-- ==== Sys2Proof/Word.lean ====
section
/-! DEFINITION. Words of the machine, the operand fields an instruction carries (R37, R41), and the header of a
host command (R393). -/

namespace Sys2Proof

/-- A 64-bit register value or address (R19, R243). -/
abbrev Word := BitVec 64

/-- One byte of memory (R8). -/
abbrev Byte := BitVec 8

/-- The legend of a 64-byte block: SCALE in [15:8], FORMAT in [7:0] (R57). -/
abbrev Legend := BitVec 16

/-- The three lengths of an instruction: 64, 96 or 128 bits (R33). -/
inductive Len where
  | w64 | w96 | w128
  deriving DecidableEq, Repr

/-- What a 6-bit operand specifier names (R41): a register 0-31, a channel (32-47), a local queue (48-55), a reserved
value (56-62) or the immediate (63). -/
inductive Opd where
  | reg (n : Fin 32)
  | chan (c : Fin 16)
  | queue (q : Fin 8)
  | rsvd (k : Fin 7)
  | imm
  deriving DecidableEq, Repr

/-- The fields of word 0 other than OP, and the extension word: I32 zero-extended for 96 bits, I64 for 128 bits,
0 for 64 bits (R37, R33). -/
structure Op where
  len : Len := .w64
  p : BitVec 3 := 0
  pn : Bool := false
  d : Opd := .reg 0
  a : Opd := .reg 0
  b : Opd := .reg 0
  c : Opd := .reg 0
  t : BitVec 4 := 0
  m : BitVec 4 := 0
  i18 : BitVec 18 := 0
  ext : BitVec 64 := 0
  deriving DecidableEq, Repr

/-- The two profiles of the instruction set (R1). -/
inductive Profile where
  | core | deep
  deriving DecidableEq, Repr

/-- A host command as a master sends it: its master number, its header and its payload (R393, R395). -/
structure HostCmd where
  master : Nat := 0
  seq : BitVec 32 := 0
  opc : BitVec 16 := 0
  len : Nat := 0
  a0 : BitVec 64 := 0
  a1 : BitVec 64 := 0
  a2 : BitVec 64 := 0
  payload : List Byte := []
  deriving DecidableEq, Repr

end Sys2Proof
end

