-- ==== Sys2Proof/Syntax.lean ====
section
/-! DEFINITION. The instructions and events of the machine: one constructor per row of the opcode table.
An instruction of a slot or an SVC carries the fields of its encoding (`Op`); an event carries the numbers that say
which unit, slot, packet or record it concerns; a host command carries its header and payload. -/

namespace Sys2Proof

/-- One step of the machine: an instruction of either profile, an event, or a host command. -/
inductive Instr where
  /-- ADD (R77). Adds two integers modulo 2^n. -/
  | add (o : Op)
  /-- SUB (R77). Subtracts two integers modulo 2^n. -/
  | sub (o : Op)
  /-- MUL (R77). Writes the low n bits of the product. -/
  | mul (o : Op)
  /-- MULH (R77). Writes the high n bits of the signed 2n-bit product. -/
  | mulh (o : Op)
  /-- MULHN (R77). Writes the high n bits of the unsigned 2n-bit product. -/
  | mulhn (o : Op)
  /-- DIV (R78). Signed division truncated toward zero; division by zero gives the signed bound and sets DZ. -/
  | div (o : Op)
  /-- DIVN (R78). Unsigned division; division by zero gives all ones and sets DZ. -/
  | divn (o : Op)
  /-- REM (R78). Signed remainder with the sign of a; a remainder by zero gives a and sets DZ. -/
  | rem (o : Op)
  /-- REMN (R78). Unsigned remainder; a remainder by zero gives a and sets DZ. -/
  | remn (o : Op)
  /-- AND (R77). Bitwise AND. -/
  | and (o : Op)
  /-- OR (R77). Bitwise OR. -/
  | or (o : Op)
  /-- XOR (R77). Bitwise XOR. -/
  | xor (o : Op)
  /-- ANDN (R77). Writes a AND NOT b. -/
  | andn (o : Op)
  /-- ORN (R77). Writes a OR NOT b. -/
  | orn (o : Op)
  /-- SHL (R77). Shifts left by the low bits of b. -/
  | shl (o : Op)
  /-- SHR (R77). Shifts right logically by the low bits of b. -/
  | shr (o : Op)
  /-- SRA (R77). Shifts right arithmetically by the low bits of b. -/
  | sra (o : Op)
  /-- ROL (R77). Rotates left by the low bits of b. -/
  | rol (o : Op)
  /-- ROR (R77). Rotates right by the low bits of b. -/
  | ror (o : Op)
  /-- MIN (R77). Writes the signed minimum. -/
  | min (o : Op)
  /-- MAX (R77). Writes the signed maximum. -/
  | max (o : Op)
  /-- MINN (R77). Writes the unsigned minimum. -/
  | minn (o : Op)
  /-- MAXN (R77). Writes the unsigned maximum. -/
  | maxn (o : Op)
  /-- CLZ (R79). Counts the leading zero bits. -/
  | clz (o : Op)
  /-- CTZ (R79). Counts the trailing zero bits. -/
  | ctz (o : Op)
  /-- POPC (R79). Counts the one bits. -/
  | popc (o : Op)
  /-- BREV (R79). Reverses the bit order in n bits. -/
  | brev (o : Op)
  /-- BSWAP (R79). Reverses the byte order in n bits. -/
  | bswap (o : Op)
  /-- BEXT (R81). Extracts a bit field, sign- or zero-extended. -/
  | bext (o : Op)
  /-- BINS (R81). Inserts a bit field into a base value. -/
  | bins (o : Op)
  /-- SEL (R80). Selects a or b by bit 0 of a predicate, reading and popping both sources. -/
  | sel (o : Op)
  /-- SET (R83). Writes 1 or 0 according to an integer comparison. -/
  | setCond (o : Op)
  /-- PSET (R83). Writes all ones or zero to a predicate according to an integer comparison. -/
  | pset (o : Op)
  /-- PAND (R84). ANDs two predicates over 32 bits. -/
  | pand (o : Op)
  /-- POR (R84). ORs two predicates over 32 bits. -/
  | por (o : Op)
  /-- PXOR (R84). XORs two predicates over 32 bits. -/
  | pxor (o : Op)
  /-- PNOT (R84). Inverts a predicate over 32 bits. -/
  | pnot (o : Op)
  /-- LI (R85). Loads a constant, or copies a source, into a register. -/
  | li (o : Op)
  /-- LEA (R86). Forms a + (b << s) modulo 2^64. -/
  | lea (o : Op)
  /-- MKADDR (R87). Packs an own, coordinate or team window address. -/
  | mkaddr (o : Op)
  /-- MKACT (R88). Packs a physical, team-relative or system actor address. -/
  | mkact (o : Op)
  /-- EXT (R82). Sign- or zero-extends a register from bit k. -/
  | ext (o : Op)
  /-- BR (R89). Branches to pc plus a word offset. -/
  | br (o : Op)
  /-- J_RELATIVE (R89). 96-bit jump to pc plus a 32-bit word offset. -/
  | jRelative (o : Op)
  /-- J_ABSOLUTE (R89). 128-bit jump to the absolute address in I64. -/
  | jAbsolute (o : Op)
  /-- JAL_RELATIVE (R89). 96-bit jump to pc plus a word offset, writing the link pc + 12. -/
  | jalRelative (o : Op)
  /-- JAL_ABSOLUTE (R89). 128-bit jump to an absolute address, writing the link pc + 16. -/
  | jalAbsolute (o : Op)
  /-- JR (R89). Jumps to a register plus a byte offset. -/
  | jr (o : Op)
  /-- JALR (R89). Jumps to a register plus a byte offset, writing the link pc + 8. -/
  | jalr (o : Op)
  /-- LOOP (R89). Decrements a counter and branches while it is not zero. -/
  | loop (o : Op)
  /-- LOOPC (R90). Increments a counter and branches while it is below a contour latch's COUNT. -/
  | loopc (o : Op)
  /-- NOP (R91). Takes one issue cycle and has no other effect. -/
  | nop (o : Op)
  /-- BRK (R92). Raises BREAK with its code. -/
  | brk (o : Op)
  /-- FADD (R94). Floating-point addition, rounded once. -/
  | fadd (o : Op)
  /-- FSUB (R94). Floating-point subtraction, rounded once. -/
  | fsub (o : Op)
  /-- FMUL (R94). Floating-point multiplication, rounded once. -/
  | fmul (o : Op)
  /-- FFMA (R94). Fused multiply-add, rounded once. -/
  | ffma (o : Op)
  /-- FDIV (R94). Floating-point division, rounded once. -/
  | fdiv (o : Op)
  /-- FSQRT (R94). Floating-point square root, rounded once. -/
  | fsqrt (o : Op)
  /-- FMIN (R95). Selects the lesser floating-point operand. -/
  | fmin (o : Op)
  /-- FMAX (R95). Selects the greater floating-point operand. -/
  | fmax (o : Op)
  /-- FCMP (R96). Writes 1 or 0 according to a floating-point comparison. -/
  | fcmp (o : Op)
  /-- FCVT (R97). Converts between integer and floating formats. -/
  | fcvt (o : Op)
  /-- FCLASS (R98). Writes the class word of a floating-point value. -/
  | fclass (o : Op)
  /-- FSGN (R99). Replaces the sign bit by a bit operation. -/
  | fsgn (o : Op)
  /-- LD (R143). Loads n bits, or performs the default operation of a personality bank. -/
  | ld (o : Op)
  /-- ST (R143). Stores n bits, or performs the default operation of a personality bank. -/
  | st (o : Op)
  /-- LDP (R143). Loads a pair of items. -/
  | ldp (o : Op)
  /-- STP (R143). Stores a pair of items. -/
  | stp (o : Op)
  /-- VLD (R144). Loads 32 bytes into a vector register. -/
  | vld (o : Op)
  /-- VST (R144). Stores 32 bytes from a vector register. -/
  | vst (o : Op)
  /-- VLDS (R144). Strided vector load, lane by lane. -/
  | vlds (o : Op)
  /-- VSTS (R144). Strided vector store, lane by lane. -/
  | vsts (o : Op)
  /-- LGLD (R145). Reads the legend of a 64-byte block. -/
  | lgld (o : Op)
  /-- LGST (R145). Writes the legend of a 64-byte block. -/
  | lgst (o : Op)
  /-- PREF (R146). Hints that a line be brought into its home L1. -/
  | pref (o : Op)
  /-- FENCE (R273). Waits until the earlier accesses of the named kind within the scope are performed. -/
  | fence (o : Op)
  /-- DRAIN (R274). Waits until every earlier access is performed and reports a pending store fault. -/
  | drain (o : Op)
  /-- AMADD (R276). Atomic add. -/
  | amadd (o : Op)
  /-- AMAND (R276). Atomic AND. -/
  | amand (o : Op)
  /-- AMOR (R276). Atomic OR. -/
  | amor (o : Op)
  /-- AMXOR (R276). Atomic XOR. -/
  | amxor (o : Op)
  /-- AMMIN (R276). Atomic signed minimum. -/
  | ammin (o : Op)
  /-- AMMAX (R276). Atomic signed maximum. -/
  | ammax (o : Op)
  /-- AMMINN (R276). Atomic unsigned minimum. -/
  | amminn (o : Op)
  /-- AMMAXN (R276). Atomic unsigned maximum. -/
  | ammaxn (o : Op)
  /-- AMSWAP (R276). Atomic swap. -/
  | amswap (o : Op)
  /-- AMCAS (R276). Atomic compare and swap. -/
  | amcas (o : Op)
  /-- AMFADD (R276). Atomic floating-point add, rounded as FADD. -/
  | amfadd (o : Op)
  /-- VADD (R107). Lane add, wrapping or saturating. -/
  | vadd (o : Op)
  /-- VSUB (R107). Lane subtract, wrapping or saturating. -/
  | vsub (o : Op)
  /-- VMUL (R107). Lane multiply, low bits. -/
  | vmul (o : Op)
  /-- VMULH (R107). Lane multiply, high bits. -/
  | vmulh (o : Op)
  /-- VAND (R107). Lane AND. -/
  | vand (o : Op)
  /-- VOR (R107). Lane OR. -/
  | vor (o : Op)
  /-- VXOR (R107). Lane XOR. -/
  | vxor (o : Op)
  /-- VSHL (R107). Lane shift left. -/
  | vshl (o : Op)
  /-- VSHR (R107). Lane logical shift right. -/
  | vshr (o : Op)
  /-- VSRA (R107). Lane arithmetic shift right. -/
  | vsra (o : Op)
  /-- VMIN (R107). Lane minimum. -/
  | vmin (o : Op)
  /-- VMAX (R107). Lane maximum. -/
  | vmax (o : Op)
  /-- VABS (R107). Lane absolute value. -/
  | vabs (o : Op)
  /-- VFADD (R109). Lane floating-point addition. -/
  | vfadd (o : Op)
  /-- VFSUB (R109). Lane floating-point subtraction. -/
  | vfsub (o : Op)
  /-- VFMUL (R109). Lane floating-point multiplication. -/
  | vfmul (o : Op)
  /-- VFMA (R109). Lane fused multiply-add. -/
  | vfma (o : Op)
  /-- VFMIN (R109). Lane floating-point minimum. -/
  | vfmin (o : Op)
  /-- VFMAX (R109). Lane floating-point maximum. -/
  | vfmax (o : Op)
  /-- VFDIV (R109). Lane floating-point division. -/
  | vfdiv (o : Op)
  /-- VFSQRT (R109). Lane floating-point square root. -/
  | vfsqrt (o : Op)
  /-- VEXP2 (R110). Lane 2^a, rounded toward zero. -/
  | vexp2 (o : Op)
  /-- VLOG2 (R110). Lane log2(a), rounded toward zero. -/
  | vlog2 (o : Op)
  /-- VRCP (R110). Lane reciprocal, rounded toward zero. -/
  | vrcp (o : Op)
  /-- VRSQ (R110). Lane reciprocal square root, rounded toward zero. -/
  | vrsq (o : Op)
  /-- VCMP (R111). Lane integer comparison into a predicate mask. -/
  | vcmp (o : Op)
  /-- VFCMP (R111). Lane floating-point comparison into a predicate mask. -/
  | vfcmp (o : Op)
  /-- VSEL (R112). Lane select by a predicate. -/
  | vsel (o : Op)
  /-- VBCAST (R112). Broadcasts a scalar to every lane. -/
  | vbcast (o : Op)
  /-- VEXT (R112). Extracts one lane to an x register. -/
  | vext (o : Op)
  /-- VINS (R112). Inserts a scalar into one lane. -/
  | vins (o : Op)
  /-- VPERM (R112). Permutes lanes by an index vector. -/
  | vperm (o : Op)
  /-- VSLIDE (R112). Slides lanes up or down across two vectors. -/
  | vslide (o : Op)
  /-- VREDADD (R113). Exact integer sum of the enabled lanes. -/
  | vredadd (o : Op)
  /-- VREDMAX (R113). Largest enabled lane. -/
  | vredmax (o : Op)
  /-- VREDMIN (R113). Smallest enabled lane. -/
  | vredmin (o : Op)
  /-- VFRED (R113). Floating-point sum in ascending lane order. -/
  | vfred (o : Op)
  /-- VCVT (R115). Converts lanes between integer, IEEE and binary8 formats. -/
  | vcvt (o : Op)
  /-- VAMAX (R117). Maximum magnitude over the enabled lanes. -/
  | vamax (o : Op)
  /-- VSCALEQ (R118). Chooses a legend for a maximum magnitude. -/
  | vscaleq (o : Op)
  /-- VQUANT (R116). Quantizes lanes to binary8 under a legend. -/
  | vquant (o : Op)
  /-- VDEQ (R116). Dequantizes binary8 lanes under a legend. -/
  | vdeq (o : Op)
  /-- VPOPC (R119). Lane population count. -/
  | vpopc (o : Op)
  /-- VPFX (R119). Exclusive prefix sum over the enabled lanes. -/
  | vpfx (o : Op)
  /-- VCOMPR (R120). Compresses the selected lanes. -/
  | vcompr (o : Op)
  /-- VEXPND (R120). Expands lanes into the selected positions. -/
  | vexpnd (o : Op)
  /-- VGATH (R121). Gathers lanes from local memory by index. -/
  | vgath (o : Op)
  /-- VSCAT (R123). Scatters lanes to local memory by index. -/
  | vscat (o : Op)
  /-- BPERS (R150). Gives a bank a new personality image and converts its contents. -/
  | bpers (o : Op)
  /-- BSPAN (R152). Composes a span of banks. -/
  | bspan (o : Op)
  /-- BPUT (R147). Enqueues, pushes, inserts or updates in a personality bank. -/
  | bput (o : Op)
  /-- BPUTU (R147). Inserts a map key only if it is absent. -/
  | bputu (o : Op)
  /-- BGET (R147). Dequeues, pops or pops the minimum. -/
  | bget (o : Op)
  /-- BPEEK (R147). Reads the head, top, minimum or a histogram bin. -/
  | bpeek (o : Op)
  /-- BTAKE (R147). Removes a map key or pops the heap minimum. -/
  | btake (o : Op)
  /-- BFIND (R147). Looks up a map key. -/
  | bfind (o : Op)
  /-- BINC (R147). Adds n to a histogram bin. -/
  | binc (o : Op)
  /-- BCNT (R147). Returns the live count or histogram total. -/
  | bcnt (o : Op)
  /-- BCLR (R147). Empties a structure or zeroes the bins. -/
  | bclr (o : Op)
  /-- BLATCH (R149). Latches eight histogram bins into the contour latches. -/
  | blatch (o : Op)
  /-- BSTAT (R148). Returns the bank status word. -/
  | bstat (o : Op)
  /-- SEND (R195). Sends a message through the NI. -/
  | send (o : Op)
  /-- CHCNT (R206). Reads a channel count, header, depth or set state without popping. -/
  | chcnt (o : Op)
  /-- CHDROP (R206). Discards entries from the head of a channel. -/
  | chdrop (o : Op)
  /-- HEN (R207). Enables handlers. -/
  | hen (o : Op)
  /-- HDIS (R207). Disables handlers. -/
  | hdis (o : Op)
  /-- HSET (R207). Sets soft pending bits of handlers. -/
  | hset (o : Op)
  /-- DONE (R208). Ends the running firing. -/
  | done (o : Op)
  /-- FORK (R211). Pushes a task record onto the core's deque. -/
  | fork (o : Op)
  /-- TEND (R212). Decrements a join record, releases its continuation and ends the firing. -/
  | tend (o : Op)
  /-- BAR (R227). Arrives at a barrier and waits for its completion. -/
  | bar (o : Op)
  /-- BARA (R227). Arrives at a barrier instance without waiting. -/
  | bara (o : Op)
  /-- BARW (R227). Waits for a barrier instance to complete. -/
  | barw (o : Op)
  /-- SELF (R231). Writes the member index, team size, coordinates or own actor address. -/
  | self (o : Op)
  /-- MLDA (R170). Fills the row buffer from local memory. -/
  | mlda (o : Op)
  /-- MLDB (R171). Fills a macro from local memory. -/
  | mldb (o : Op)
  /-- MLDBS (R165). Fills a macro from a block-compressed tile. -/
  | mldbs (o : Op)
  /-- MZERO (R172). Zeroes an accumulator. -/
  | mzero (o : Op)
  /-- MMUL (R163). Accumulates the row buffer times a macro tile by exact group sums. -/
  | mmul (o : Op)
  /-- MMULS (R166). Accumulates the product of a sparse macro, skipping absent blocks. -/
  | mmuls (o : Op)
  /-- MGEMM (R173). Starts the sequencer over several load-and-multiply steps. -/
  | mgemm (o : Op)
  /-- MDRAIN (R176). Writes an accumulator to a window address and sends a wake message. -/
  | mdrain (o : Op)
  /-- MCHAIN (R177). Converts a3 row by row into binary8 rows of the row buffer. -/
  | mchain (o : Op)
  /-- MST (R175). Writes an accumulator to local memory in FP32. -/
  | mst (o : Op)
  /-- MSYNC (R167). Waits until every matrix operation of the slot has completed. -/
  | msync (o : Op)
  /-- MSTAT (R178). Writes the matrix unit status without waiting. -/
  | mstat (o : Op)
  /-- JOB_COPY (R292). Submits a block copy job card. -/
  | jobCopy (o : Op)
  /-- JOB_GATHER (R293). Submits an indexed gather job card. -/
  | jobGather (o : Op)
  /-- JOB_SCATTER (R293). Submits an indexed scatter job card. -/
  | jobScatter (o : Op)
  /-- JOB_REDUCE (R295). Submits a card of a deterministic FP32 reduction over a group. -/
  | jobReduce (o : Op)
  /-- JOB_BCAST (R296). Submits a card of a broadcast over a group. -/
  | jobBcast (o : Op)
  /-- GATHER (R297). Sends up to eight indexed reads into local memory. -/
  | gather (o : Op)
  /-- SREC (R300). Copies a stream descriptor into a stream record. -/
  | srec (o : Op)
  /-- SSTART (R300). Starts a stream record and its index record. -/
  | sstart (o : Op)
  /-- SSTOP (R300). Stops a stream record and its index record. -/
  | sstop (o : Op)
  /-- QCNT (R300). Reads a local queue's count and flags. -/
  | qcnt (o : Op)
  /-- QFLUSH (R300). Discards a local queue's entries. -/
  | qflush (o : Op)
  /-- DEEP (R319). Submits a kernel card to the main scheduler and returns a ticket. -/
  | deep (o : Op)
  /-- RDROW (R314). Copies an HBM line into the SVC buffer. -/
  | rdrow (o : Op)
  /-- WRROW (R314). Copies buffer bytes to an HBM line. -/
  | wrrow (o : Op)
  /-- SCANROW (R314). Reads a list of HBM lines into the buffer in waves. -/
  | scanrow (o : Op)
  /-- DOT16 (R315). Accumulates a binary8 block against 32 tile columns by exact group sums. -/
  | dot16 (o : Op)
  /-- DEND (R316). Ends this SVC's part of the kernel. -/
  | dend (o : Op)
  /-- DYIELD (R316). Yields the lease if an equal or higher priority kernel waits. -/
  | dyield (o : Op)
  /-- DARG (R316). Reads a kernel argument, rank, SVC count or ticket. -/
  | darg (o : Op)
  /-- SGET (R376). Reads a system register. -/
  | sget (o : Op)
  /-- SSET (R376). Writes a system register that has no row of its own. -/
  | sset (o : Op)
  /-- TRAP (R334). Raises the TRAP instruction cause. -/
  | trap (o : Op)
  /-- KRET (R335). Returns from the keeper to XPC in the saved mode. -/
  | kret (o : Op)
  /-- PLBINV (R360). Removes cached rights and translations, optionally flushing a page. -/
  | plbinv (o : Op)
  /-- IBAR (R362). Makes earlier stores visible to later fetches. -/
  | ibar (o : Op)
  /-- CYC (R350). Reads the cycle counter. -/
  | cyc (o : Op)
  /-- FGET (R350). Reads FPCTL after earlier flags are ORed. -/
  | fget (o : Op)
  /-- FCLR (R350). Clears FPCTL flags under a mask and returns the old value. -/
  | fclr (o : Op)
  /-- GKILL (R341). Halts and retires every member slot of a gazetteer entry. -/
  | gkill (o : Op)
  /-- AEVICT (R367). Evicts an actor to a save area and marks its slot AWAY. -/
  | aevict (o : Op)
  /-- ARESTORE (R370). Restores an evicted actor from its save area. -/
  | arestore (o : Op)
  /-- KLAUNCH (R375). Reads a team descriptor and submits the team to the main scheduler. -/
  | klaunch (o : Op)
  /-- TRAVPOP (R278). Reading removes the oldest traverse ring entry and latches it. -/
  | travpop (o : Op)
  /-- SFRQPOP (R338). Reading removes the oldest store-fault record and latches it. -/
  | sfrqpop (o : Op)
  /-- SAMPPOP (R346). Reading removes the oldest PC sample and latches it. -/
  | samppop (o : Op)
  /-- MSEQ_WRITE (R173). A K-mode write of MSEQ restarts, holds or abandons a sequence. -/
  | mseqWrite (o : Op)
  /-- MUNIT_WRITE (R158). A write of MUNIT waits for the queue to empty and clears the unit on a domain change. -/
  | munitWrite (o : Op)
  /-- TRAVCTL_WRITE (R278). A write of TRAVCTL that sets EN empties the traverse ring and clears LOST. -/
  | travctlWrite (o : Op)
  /-- SAMPCTL_WRITE (R346). A write of SAMPCTL empties the sample ring and clears LOST. -/
  | sampctlWrite (o : Op)
  /-- AMODE_WRITE (R184). A write of AMODE that changes MBOX moves the mailbox to a new bank. -/
  | amodeWrite (o : Op)
  /-- VUSE_WRITE (R25). A write of VUSE gates vector register groups in retention or off mode. -/
  | vuseWrite (o : Op)
  /-- CMPCTL_WRITE (R344). A write of a comparator completes when every member core holds the new value. -/
  | cmpctlWrite (o : Op)
  /-- STREC_WRITE (R302). A K-mode write of STREC with ACTIVE set resumes the record at NEXT. -/
  | strecWrite (o : Op)
  /-- QOSBUD_WRITE (R263). A write of a class budget takes effect at the selected unit's next period. -/
  | qosbudWrite (o : Op)
  /-- DARB_WRITE (R322). A write of the channel weights takes effect at the channel's next command slot. -/
  | darbWrite (o : Op)
  /-- FORCED_ISSUE (R17). A slot READY for 60 consecutive cycles without issuing is forced to issue. -/
  | forcedIssue (core : Nat)
  /-- FIRING_START (R191). A WAITING slot selects a pending handler and starts its firing. -/
  | firingStart (core slot : Nat)
  /-- TASK_TAKE (R213). A worker slot pops or steals a task and starts its firing. -/
  | taskTake (core slot : Nat)
  /-- STEAL_WAIT_EXPIRY (R213). The 256-cycle wait after a fruitless steal round ends. -/
  | stealWaitExpiry (core slot : Nat)
  /-- QSTALL (R214). A slot blocked on a queue or channel past QWAIT.LIMIT raises QSTALL. -/
  | qstall (core slot : Nat)
  /-- VECTOR_WAKE (R25). A gated vector register group finishes waking and the stalled instruction issues. -/
  | vectorWake (core slot : Nat)
  /-- MESSAGE_ARRIVAL (R198). A message arrives at a mailbox and is accepted or refused. -/
  | messageArrival (i : Nat)
  /-- SEND_LAUNCH (R195). The NI launches a release SEND once the slot's earlier stores are acknowledged. -/
  | sendLaunch (unit n : Nat)
  /-- MESSAGE_ANSWER (R201). The sender's NI receives an acceptance or refusal and frees, holds or returns messages. -/
  | messageAnswer (i : Nat)
  /-- RETURN_DELIVERY (R202). A return kept while channel 15 was full is placed once there is room. -/
  | returnDelivery (unit n : Nat)
  /-- RETRY_BACKOFF_EXPIRY (R201). A refused message's back-off ends and it is resent with RETRY set. -/
  | retryBackoffExpiry (unit n : Nat)
  /-- REMOTE_STORE_ARRIVAL (R249). A remote store arrives at its home, is performed and acknowledged. -/
  | remoteStoreArrival (i : Nat)
  /-- STORE_ACK (R23). An acknowledgement arrives and decrements the slot's UAS. -/
  | storeAck (i : Nat)
  /-- REMOTE_LOAD_ARRIVAL (R249). A remote load arrives at its home, is performed and replied. -/
  | remoteLoadArrival (i : Nat)
  /-- LOAD_REPLY (R249). A load reply arrives and writes its destination register. -/
  | loadReply (i : Nat)
  /-- REMOTE_BANK_OP_ARRIVAL (R134). A remote bank operation arrives at the bank controller and is performed. -/
  | remoteBankOpArrival (i : Nat)
  /-- BANK_OP_REPLY (R127). The reply of a remote bank operation arrives with its value, status or fault. -/
  | bankOpReply (i : Nat)
  /-- ATOMIC_ARRIVAL (R277). An atomic is performed at its target as one step and replied. -/
  | atomicArrival (i : Nat)
  /-- ATOMIC_REPLY (R277). An atomic's reply arrives and releases the stalled slot. -/
  | atomicReply (i : Nat)
  /-- STORE_LEAVES_QUEUE (R266). A checked store leaves the store queue and is sent or performed. -/
  | storeLeavesQueue (core slot : Nat)
  /-- COMBINING_BUFFER_SEND (R271). A combining-buffer entry is sent as one store of its masked bytes. -/
  | combiningBufferSend (core slot n : Nat)
  /-- PLB_FILL_COMPLETE (R244). A PLB fill returns and the waiting accesses are checked. -/
  | plbFillComplete (core n : Nat)
  /-- TRANSLATION_WALK_COMPLETE (R256). An L2 miss's page walk completes or fails. -/
  | translationWalkComplete (n : Nat)
  /-- L2_EVICTION (R255). A slice evicts a line after its L1 parts are written back. -/
  | l2Eviction (n : Nat)
  /-- STOREFAULT (R339). A pending store-fault record is reported as a trap at the next boundary. -/
  | storefault (core slot : Nat)
  /-- MATRIX_OP_COMPLETE (R167). A queued matrix operation completes and ORs its flags into FPCTL. -/
  | matrixOpComplete (core : Nat)
  /-- MGEMM_STEP_COMPLETE (R173). A sequencer step completes and the next step starts or the sequence ends. -/
  | mgemmStepComplete (core : Nat)
  /-- MGEMM_RESTART (R174). A held sequence restarts by itself when its slot becomes READY. -/
  | mgemmRestart (core : Nat)
  /-- DRAIN_BLOCK_ARRIVAL (R176). A drain block arrives at the receiver and is written or discarded. -/
  | drainBlockArrival (i : Nat)
  /-- DRAIN_WAKE (R176). After the last block the unit sends the drain's wake message. -/
  | drainWake (core n : Nat)
  /-- MIGRATION_ARRIVAL (R251). The context arrives and the guest slot runs the firing from the access. -/
  | migrationArrival (i : Nat)
  /-- WAYPOINT_FORWARD (R252). A waypoint forwards a late load reply to the guest core. -/
  | waypointForward (i : Nat)
  /-- MIGRATE_BACK (R253). A guest firing returns to its actor's slot. -/
  | migrateBack (core slot : Nat)
  /-- BARRIER_COMPLETE (R225). The hub decides that a barrier instance is complete and advances PHASE. -/
  | barrierComplete (team entry : Nat)
  /-- TEND_DECREMENT_REPLY (R212). The join decrement's result returns, and the continuation is read and pushed. -/
  | tendDecrementReply (i : Nat)
  /-- JOB_START (R287). A card whose edges and instance are satisfied starts. -/
  | jobStart (cluster n : Nat)
  /-- JOB_END (R289). A job ends and its scheduler sends its completion message. -/
  | jobEnd (cluster n : Nat)
  /-- COLLECTIVE_INSTANCE_COMPLETE (R294). Every participant has submitted its card for a reduce or broadcast instance. -/
  | collectiveInstanceComplete (team entry bcast : Nat)
  /-- GATHER_LANE_REPLY (R297). A GATHER lane's reply is written at its position or counted as failed. -/
  | gatherLaneReply (core n : Nat)
  /-- STREAM_PUSH (R301). An active stream record reads an element and pushes it into its queue. -/
  | streamPush (core k : Nat)
  /-- RANGE_RETIRE (R259). A range scoreboard entry retires and held accesses proceed. -/
  | rangeRetire (core n : Nat)
  /-- LEASE_GRANT (R320). The main scheduler grants a READY kernel its SVCs. -/
  | leaseGrant (n : Nat)
  /-- CLEANING_DONE (R321). The footprint is cleaned and guarded and the kernel runs. -/
  | cleaningDone (n : Nat)
  /-- KERNEL_LEASE_EXPIRY (R320). An SVC reaches EXPIRY and the whole kernel is pre-empted. -/
  | kernelLeaseExpiry (n : Nat)
  /-- KERNEL_SAVED (R320). A halted kernel's context is saved and it returns to READY. -/
  | kernelSaved (n : Nat)
  /-- KERNEL_END (R321). Every SVC has ended; row writes are performed, the guard lifts and the completion is sent. -/
  | kernelEnd (n : Nat)
  /-- KERNEL_FAULT (R317). An SVC fault halts every SVC of the kernel and ends it with FAULT. -/
  | kernelFault (n : Nat)
  /-- ROW_ACCESS_PERFORMED (R311). A row access is performed at the channel and its scoreboard entry retires. -/
  | rowAccessPerformed (svc : Nat)
  /-- SCANROW_WAVE (R314). SCANROW issues its next wave of lines within the LIMIT of banks. -/
  | scanrowWave (svc : Nat)
  /-- ARB_SLOT (R322). A channel controller decides one command slot between normal and deep commands. -/
  | arbSlot (channel : Nat)
  /-- TOKEN_REFILL (R262). Every 256 unit cycles each class's token count is refilled. -/
  | tokenRefill (unit : Nat)
  /-- PREEMPTION_REQUEST (R364). The scheduler or Meridian requests pre-emption of a scope. -/
  | preemptionRequest (scope arg : Nat)
  /-- SLOT_HALT (R365). A slot halts at a boundary after its outstanding work completes. -/
  | slotHalt (core slot : Nat)
  /-- PREEMPTION_WITHDRAW (R366). A withdrawn request resumes halted slots at their boundaries. -/
  | preemptionWithdraw (scope arg : Nat)
  /-- TEAM_SWAP_OUT (R372). A team is pre-empted, saved and wiped, its slots keeping AWAY marks. -/
  | teamSwapOut (team : Nat)
  /-- TEAM_SWAP_IN (R372). A team is restored at a placement of the same shape. -/
  | teamSwapIn (team place : Nat)
  /-- QUANTUM_EXPIRY (R374). At the end of a quantum the scheduler swaps out and places teams. -/
  | quantumExpiry
  /-- TEAM_LAUNCH (R221). The scheduler places a team and sets up its member cores. -/
  | teamLaunch (team place : Nat)
  /-- TEAM_END (R223). The last actor is retired and the member cores are wiped. -/
  | teamEnd (team : Nat)
  /-- PC_SAMPLE (R346). Every PERIOD cycles the sampler records each selected slot. -/
  | pcSample (core : Nat)
  /-- ERROR_DETECTED (R398). A corrected or uncorrected error is detected and the Surveyor starts a test. -/
  | errorDetected (unit addr unc : Nat)
  /-- SURVEYOR_TEST_DONE (R399). A test ends and the error is classed, spared or the unit retired, with a record. -/
  | surveyorTestDone (n outcome : Nat)
  /-- LINK_RETRAIN (R382). A link lane retrains while its traffic waits. -/
  | linkRetrain (link phase : Nat)
  /-- DEVICE_LOST (R385). The Meridian declares a device lost and completes outstanding requests to it. -/
  | deviceLost (device : Nat)
  /-- POWER_LIMIT_ACTION (R402). The Meridian lowers clocks or HBM limits to stay within power and heat. -/
  | powerLimitAction (action arg : Nat)
  /-- THERMAL_TRIP (R402). A thermal trip resets the device after a device-lost record. -/
  | thermalTrip
  /-- POWER_ON_RESET (R390). Power-on clears the ownership record and resets the device. -/
  | powerOnReset
  /-- WATCHDOG_RESET (R390). The Meridian's watchdog expires and resets the device. -/
  | watchdogReset
  /-- OWNERSHIP_LAPSE (R389). The lease count passes LEASE without RENEW and ownership lapses. -/
  | ownershipLapse
  /-- HREAD (R388). Host command that reads device memory with a domain's rights. -/
  | hread (cmd : HostCmd)
  /-- HWRITE (R388). Host command that writes device memory with a domain's rights. -/
  | hwrite (cmd : HostCmd)
  /-- HSEND (R393). Host command that sends a message to an actor as the host. -/
  | hsend (cmd : HostCmd)
  /-- CLAIM (R389). Host command that claims ownership of an unowned device. -/
  | claim (cmd : HostCmd)
  /-- RENEW (R389). Owner command that restarts the lease count. -/
  | renew (cmd : HostCmd)
  /-- YIELD (R389). Owner command that passes ownership to another master. -/
  | yield (cmd : HostCmd)
  /-- LEASESET (R389). Owner command that sets LEASE. -/
  | leaseset (cmd : HostCmd)
  /-- IMAGE (R391). Command carrying a chunk of the firmware image; the last chunk is verified. -/
  | image (cmd : HostCmd)
  /-- ATTEST (R392). Command returning the signed cartouche. -/
  | attest (cmd : HostCmd)
  /-- LCSET (R392). Command changing the life-cycle state, wiping and resetting the device. -/
  | lcset (cmd : HostCmd)
  /-- PARTSET (R401). Command moving clusters between partitions. -/
  | partset (cmd : HostCmd)
  /-- DOMPART (R393). Command assigning a domain to a partition. -/
  | dompart (cmd : HostCmd)
  /-- TRACESET (R393). Command setting trace event enables and destination. -/
  | traceset (cmd : HostCmd)
  /-- QUANTUM (R393). Command setting the scheduler quantum. -/
  | quantum (cmd : HostCmd)
  /-- DEVIDSET (R383). Command setting the device identifier. -/
  | devidset (cmd : HostCmd)
  /-- REPLAY (R387). Command resending events from the replay ring. -/
  | replay (cmd : HostCmd)
  /-- RESET (R390). Owner command that resets the device. -/
  | reset (cmd : HostCmd)
  /-- COMMAND_ACTOR_MESSAGE (R396). A message to the Meridian's command actor performs a command and answers on channel 15. -/
  | commandActorMessage (i : Nat)
  /-- DEVICE_REINSTATE (R385). The owner reinstates a device that was declared lost, so that requests to it are no longer refused. -/
  | deviceReinstate (device : Nat)
  /-- HOST_LINK_DROP (R387). A master's link drops and retrains, losing commands and events in flight and changing whether that master is connected. -/
  | hostLinkDrop (master connected : Nat)
  deriving DecidableEq, Repr

end Sys2Proof
end

