-- ==== Sys2Proof/Config.lean ====
section
/-! DEFINITION. What the part fixes and the spec leaves open: constants with no body, so that nothing can be proved
of their values (log entries 1, 8 and 9). -/

namespace Sys2Proof

/-- What the machine's next step concerns, when it is not the issue of an instruction already chosen: a cycle of a core,
of an SVC or of the Meridian, a choice of the issue port, an event of the opcode table, a host command on its arrival, the
loss of a fetched block (R257), or the trace funnel's buffer filling or emptying (R348). The spec gives these units no common
clock (R7), so their order is open. -/
inductive Turn where
  | tick (core : Nat)
  | pick (core : Nat)
  | svcTick (svc : Nat)
  | svcPick (svc : Nat)
  | meridianTick
  | event (i : Instr)
  | host (cmd : HostCmd)
  | dropBlock (core n : Nat)
  | funnel (full : Bool)
  deriving DecidableEq, Repr, Inhabited

namespace Config

/-- Where the descriptors lie of the teams that the firmware image launches (log entry 10): the spec has its images make the main
scheduler ready, and does not say how the first team comes to be. -/
opaque fwTeams : BitVec 256 → List (BitVec 64)

/-- Which unit acts next when the agenda is empty: the n-th open choice (log entry 1). -/
opaque freeTurn : Nat → Turn

/-- The n-th value the spec leaves open, 64 bits (log entry 8). -/
opaque freeWord : Nat → BitVec 64

/-- Whether device d belongs to the scale-up domain (R383): the fabric's own arrangement (log entry 8). -/
opaque devicePresent : Nat → Bool

/-- The fabric port, 0 to 35, by which the traffic with a device goes (R383): the fabric's own arrangement (log entry 41). -/
opaque fabricPort : Nat → Nat

/-- Whether a core of another device holds a slot of a domain, at the n-th open choice (R126, log entry 8): that device's state
is not this machine's. -/
opaque farDomain : Nat → Nat → Nat → Nat → Bool

/-- SHA-256, which the spec names and does not define (R391, log entry 9). -/
opaque sha256 : List Byte → BitVec 256

/-- Verification of an LMS signature: key, signature, body (R391, R397, log entry 9). -/
opaque lmsVerifies : List Byte → List Byte → List Byte → Bool

/-- The digest fused into the device (R391). -/
opaque fusedDigest : BitVec 256

/-- The device's serial number, 16 bytes (R392, R397). -/
opaque serial : BitVec 128

/-- The attestation public key, 56 bytes as a number (R397). -/
opaque attestKey : BitVec 448

/-- The attestation signature over a message with a leaf index, 2,508 bytes as a number (R392, R397). -/
opaque attestSignature : Nat → List Byte → BitVec 20064

/-- What the verified firmware image writes into DOMTAB.BASE (R354, R391), by the image's digest. -/
opaque fwDomtab : BitVec 256 → BitVec 21

/-- What the verified firmware image writes into PTROOT.BASE (R354, R391). -/
opaque fwPtroot : BitVec 256 → BitVec 26

/-- The partition in which the firmware image places cluster k, HBM channel group g and domain d (R391, R401). -/
opaque fwClusterPart : BitVec 256 → Nat → BitVec 4
opaque fwGroupPart : BitVec 256 → Nat → BitVec 4
opaque fwDomainPart : BitVec 256 → Nat → BitVec 4

/-- What the firmware image writes into HBM before the main scheduler is ready (R391): physical addresses and bytes. -/
opaque fwMemory : BitVec 256 → List (Nat × Byte)

/-- The physical address of the reserved HBM area that holds trace ring writes and saves is not architected; the DRAM
bank of a physical line affects only time (R314): the bank of a line within its channel. -/
opaque dramBank : Nat → Nat

end Config
end Sys2Proof
end

