-- ==== Sys2Proof/Machine/Layout.lean ====
section
/-! DEFINITION. The encoding layout of every opcode (R37-R48 and the field tables of each chapter): lengths, profiles,
operand classes, accepted T and M, the role of I18, and each entry's own limits. -/

namespace Sys2Proof.Machine

/-- Specifier numbers of R41. -/
def opdOfBits (v : BitVec 6) : Opd :=
  let n := v.toNat
  if h : n < 32 then .reg ⟨n, h⟩
  else if h : n - 32 < 16 then .chan ⟨n - 32, h⟩
  else if h : n - 48 < 8 then .queue ⟨n - 48, h⟩
  else if h : n - 56 < 7 then .rsvd ⟨n - 56, h⟩
  else .imm

def opdToBits : Opd → BitVec 6
  | .reg n => BitVec.ofNat 6 n.val
  | .chan c => BitVec.ofNat 6 (32 + c.val)
  | .queue q => BitVec.ofNat 6 (48 + q.val)
  | .rsvd k => BitVec.ofNat 6 (56 + k.val)
  | .imm => 63

def lenBits : Len → BitVec 2
  | .w64 => 0 | .w96 => 1 | .w128 => 2

def lenBytes : Len → Nat
  | .w64 => 8 | .w96 => 12 | .w128 => 16

/-- Operand classes (R41): what a position accepts. `zero` is an unused field (R38); `any` is NOP's. -/
inductive Cls where
  | zero   -- unused
  | any    -- ignored (NOP)
  | x      -- source: register, channel, queue or immediate
  | xn     -- source other than the immediate
  | xr     -- register only
  | xnz    -- register only, 1-31 (LOOP, LOOPC)
  | xd     -- destination: register or queue
  | p      -- predicate source: p0-p7, channel, queue or immediate
  | pr     -- p0-p7 only
  | pd     -- predicate destination: p0-p7 or queue
  | am     -- accumulator or matrix register 0-3
  deriving DecidableEq, Repr

/-- R41: the specifiers each class accepts, by profile. -/
def clsOk (prof : Profile) (c : Cls) (o : Opd) : Bool :=
  let ch := prof == .core
  match c, o with
  | .any, _ => true
  | .zero, .reg n => n.val == 0
  | .zero, _ => false
  | .x, .reg _ => true
  | .x, .chan _ => ch
  | .x, .queue _ => ch
  | .x, .imm => true
  | .x, .rsvd _ => false
  | .xn, .reg _ => true
  | .xn, .chan _ => ch
  | .xn, .queue _ => ch
  | .xn, _ => false
  | .xr, .reg _ => true
  | .xr, _ => false
  | .xnz, .reg n => n.val != 0
  | .xnz, _ => false
  | .xd, .reg _ => true
  | .xd, .queue _ => ch
  | .xd, _ => false
  | .p, .reg n => n.val < 8
  | .p, .chan _ => ch
  | .p, .queue _ => ch
  | .p, .imm => true
  | .p, .rsvd _ => false
  | .pr, .reg n => n.val < 8
  | .pr, _ => false
  | .pd, .reg n => n.val < 8
  | .pd, .queue _ => ch
  | .pd, _ => false
  | .am, .reg n => n.val < 4
  | .am, _ => false

/-- What I18 and the extension word carry (R39). -/
inductive Role where
  | imm    -- I18 is the immediate of the 64-bit form
  | sub    -- I18 is a sub-operation or an offset; the entry limits it
  | none   -- I18 must be 0
  | fp     -- I18 must be 0; the extension word is the raw bits of an FP immediate
  | jump   -- I18 must be 0; the extension word is the target
  | nop    -- ignored
  deriving DecidableEq, Repr

/-- One row of the opcode map with its field table. -/
structure Row where
  code : Nat
  lens : List Len
  core : Bool := true
  deep : Bool := true
  kOnly : Bool := false
  role : Role := .imm
  d : Cls := .zero
  a : Cls := .zero
  b : Cls := .zero
  c : Cls := .zero
  t : List Nat := [0]
  m : List Nat := [0]
  extra : Profile → Op → Bool := fun _ _ => true
  build : Op → Instr

def l1 : List Len := [.w64]
def l2 : List Len := [.w64, .w96]
def l3 : List Len := [.w64, .w96, .w128]
def lj : List Len := [.w96, .w128]

/-- Lane width of a vector type (R101), 0 where T names none. -/
def laneWidth (t : Nat) : Nat :=
  match t with
  | 1 => 32 | 5 => 32 | 2 => 16 | 6 => 16 | 3 => 8 | 7 => 8 | _ => 0

/-- Register width of a profile's vector registers (R101). -/
def vWidth : Profile → Nat
  | .core => 256 | .deep => 1024

def lanesOf (prof : Profile) (t : Nat) : Nat := vWidth prof / laneWidth t

/-- Width n of an integer type (R74). -/
def intWidth (t : Nat) : Nat :=
  match t with
  | 0 => 64 | 1 => 32 | 2 => 16 | _ => 8

def i18n (o : Op) : Nat := o.i18.toNat

/-- A field of I18, bits [hi:lo], as a number. -/
def i18f (o : Op) (hi lo : Nat) : Nat := o.i18.toNat / 2 ^ lo % 2 ^ (hi + 1 - lo)

/-- Binary8 format codes: 0b01 U X 0 PPP with P from 1 to 7 (R58). -/
def isB8 (f : Nat) : Bool := f / 64 == 1 && f / 8 % 2 == 0 && f % 8 != 0 && f < 128

/-- Format codes for which R69 gives EmaxOf. -/
def hasEmax (f : Nat) : Bool := isB8 f || f == 0x81 || f == 0x82 || f == 0xC1 || f == 0xC2 || f == 0xC3 || f == 0xC4

def tInt : List Nat := [0, 1, 2, 3]
def tFp : List Nat := [4, 5, 6]
def tV : List Nat := [1, 2, 3]
def tVF : List Nat := [5, 6]
def tVA : List Nat := [1, 2, 3, 5, 6]
def mInt : List Nat := [0, 1, 2, 3, 4, 5, 6, 7, 8, 9]
def mFp : List Nat := [0, 1, 2, 3, 4, 5, 10, 11]
def mLd : List Nat := [0, 1, 4, 5, 8, 9]
def mSt : List Nat := [0, 2, 4, 6, 8, 10]
def m03 : List Nat := [0, 1, 2, 3]

/-- R45: every deep-profile access encodes M[3:2] = 0. -/
def deepPlain (prof : Profile) (o : Op) : Bool := prof == .core || o.m.toNat < 4

def int2 (code : Nat) (build : Op → Instr) : Row :=
  { code, lens := l3, d := .xd, a := .x, b := .x, t := tInt, build }

def int1 (code : Nat) (t : List Nat) (build : Op → Instr) : Row :=
  { code, lens := l1, d := .xd, a := .x, t, build }

/-- R77-R88. -/
def rowsScalar : List Row := [
  int2 0x01 .add, int2 0x02 .sub, int2 0x03 .mul, int2 0x04 .mulh, int2 0x05 .mulhn, int2 0x06 .div, int2 0x07 .divn,
  int2 0x08 .rem, int2 0x09 .remn, int2 0x0A .and, int2 0x0B .or, int2 0x0C .xor, int2 0x0D .andn, int2 0x0E .orn,
  int2 0x0F .shl, int2 0x10 .shr, int2 0x11 .sra, int2 0x12 .rol, int2 0x13 .ror, int2 0x14 .min, int2 0x15 .max,
  int2 0x16 .minn, int2 0x17 .maxn,
  int1 0x18 tInt .clz, int1 0x19 tInt .ctz, int1 0x1A tInt .popc, int1 0x1B tInt .brev, int1 0x1C [0, 1, 2] .bswap,
  { code := 0x1D, lens := l1, role := .sub, d := .xd, a := .x, t := tInt, build := .bext,
    extra := fun _ o => i18f o 17 13 == 0 && i18f o 5 0 + i18f o 11 6 + 1 ≤ intWidth o.t.toNat },
  { code := 0x1E, lens := l1, role := .sub, d := .xd, a := .x, b := .x, t := tInt, build := .bins,
    extra := fun _ o => i18f o 17 12 == 0 && i18f o 5 0 + i18f o 11 6 + 1 ≤ intWidth o.t.toNat },
  { code := 0x1F, lens := l1, d := .xd, a := .x, b := .x, c := .pr, t := tInt, build := .sel },
  { code := 0x20, lens := l3, d := .xd, a := .x, b := .x, t := tInt, m := mInt, build := .setCond },
  { code := 0x21, lens := l3, d := .pd, a := .x, b := .x, t := tInt, m := mInt, build := .pset },
  { code := 0x22, lens := l1, d := .pd, a := .p, b := .p, build := .pand },
  { code := 0x23, lens := l1, d := .pd, a := .p, b := .p, build := .por },
  { code := 0x24, lens := l1, d := .pd, a := .p, b := .p, build := .pxor },
  { code := 0x25, lens := l1, d := .pd, a := .p, build := .pnot },
  { code := 0x26, lens := l3, d := .xd, a := .x, build := .li },
  { code := 0x27, lens := l2, d := .xd, a := .xn, b := .x, m := [0, 1, 2, 3, 4, 5, 6, 7], build := .lea },
  { code := 0x28, lens := l1, deep := false, role := .sub, d := .xd, a := .xn, b := .xn, c := .xn, build := .mkaddr,
    extra := fun _ o => i18n o < 3 && (i18n o != 0 || o.b == .reg 0) && (i18n o == 1 || o.c == .reg 0) },
  { code := 0x29, lens := l1, deep := false, role := .sub, d := .xd, a := .xn, b := .xn, build := .mkact,
    extra := fun _ o => i18f o 17 8 == 0 && i18f o 7 6 != 3 },
  { code := 0x2A, lens := l1, role := .sub, d := .xd, a := .xn, build := .ext,
    extra := fun _ o => i18f o 17 7 == 0 }]

/-- R89-R92. -/
def rowsControl : List Row := [
  { code := 0x40, lens := l1, role := .sub, build := .br },
  { code := 0x41, lens := lj, role := .jump, build := fun o => if o.len == .w128 then .jAbsolute o else .jRelative o },
  { code := 0x42, lens := lj, role := .jump, d := .xr,
    build := fun o => if o.len == .w128 then .jalAbsolute o else .jalRelative o },
  { code := 0x43, lens := l1, role := .sub, a := .xr, build := .jr },
  { code := 0x44, lens := l1, role := .sub, d := .xr, a := .xr, build := .jalr },
  { code := 0x45, lens := l1, role := .sub, d := .xnz, build := .loop },
  { code := 0x46, lens := l1, deep := false, role := .sub, d := .xnz, m := [0, 1, 2, 3, 4, 5, 6, 7], build := .loopc },
  { code := 0x47, lens := l3, role := .nop, d := .any, a := .any, b := .any, c := .any, t := [], m := [], build := .nop },
  { code := 0x48, lens := l1, role := .sub, build := .brk }]

def fp2 (code : Nat) (build : Op → Instr) : Row :=
  { code, lens := l3, role := .fp, d := .xd, a := .x, b := .x, t := tFp, build }

/-- R93-R99. -/
def rowsScalarFp : List Row := [
  fp2 0x50 .fadd, fp2 0x51 .fsub, fp2 0x52 .fmul,
  { code := 0x53, lens := l3, role := .fp, d := .xd, a := .x, b := .x, c := .x, t := tFp, build := .ffma },
  fp2 0x54 .fdiv,
  { code := 0x55, lens := l1, role := .fp, d := .xd, a := .x, t := tFp, build := .fsqrt },
  fp2 0x56 .fmin, fp2 0x57 .fmax,
  { code := 0x58, lens := l3, role := .fp, d := .xd, a := .x, b := .x, t := tFp, m := mFp, build := .fcmp },
  { code := 0x59, lens := l1, role := .fp, d := .xd, a := .x, t := [0, 1, 2, 3, 4, 5, 6], build := .fcvt,
    m := [0, 1, 2, 3, 4, 5, 6, 8, 9, 10, 11, 12, 13, 14],
    extra := fun _ o => let s := o.m.toNat % 8; let t := o.t.toNat
      !(s < 4 && t < 4) && !(4 ≤ s && 4 ≤ t && 8 ≤ o.m.toNat) },
  { code := 0x5A, lens := l1, role := .fp, d := .xd, a := .x, t := tFp, build := .fclass },
  { code := 0x5B, lens := l1, role := .fp, d := .xd, a := .x, b := .x, t := tFp, m := m03, build := .fsgn,
    extra := fun _ o => o.m.toNat != 3 || o.b == .reg 0 }]

/-- R142, R273, R274. -/
def rowsMemory : List Row := [
  { code := 0x60, lens := l1, role := .sub, d := .xd, a := .xr, t := tInt, m := mLd, extra := deepPlain, build := .ld },
  { code := 0x61, lens := l1, role := .sub, a := .xr, b := .x, t := tInt, m := mSt, extra := deepPlain, build := .st },
  { code := 0x62, lens := l1, role := .sub, d := .xd, a := .xr, c := .xd, t := tInt, m := mLd, extra := deepPlain, build := .ldp },
  { code := 0x63, lens := l1, role := .sub, a := .xr, b := .x, c := .x, t := tInt, m := mSt, extra := deepPlain, build := .stp },
  { code := 0x64, lens := l1, role := .sub, d := .xd, a := .xr, m := mLd, extra := deepPlain, build := .vld },
  { code := 0x65, lens := l1, role := .sub, a := .xr, b := .x, m := mSt, extra := deepPlain, build := .vst },
  { code := 0x66, lens := l1, role := .sub, d := .xd, a := .xr, b := .xr, t := tV, m := mLd, extra := deepPlain, build := .vlds },
  { code := 0x67, lens := l1, role := .sub, a := .xr, b := .xr, c := .x, t := tV, m := mSt, extra := deepPlain, build := .vsts },
  { code := 0x68, lens := l1, role := .sub, d := .xd, a := .xr, build := .lgld },
  { code := 0x69, lens := l1, role := .sub, a := .xr, b := .x, build := .lgst },
  { code := 0x6A, lens := l1, deep := false, role := .sub, a := .xr, build := .pref },
  { code := 0x6B, lens := l1, role := .none, m := [1, 2, 3, 5, 6, 7, 9, 10, 11, 13, 14, 15], build := .fence },
  { code := 0x6C, lens := l1, deep := false, role := .none, build := .drain }]

def atom (code : Nat) (build : Op → Instr) : Row :=
  { code, lens := l3, deep := false, role := .sub, d := .xd, a := .xr, b := .x, t := tInt, m := m03, build }

/-- R275. -/
def rowsAtomic : List Row := [
  atom 0x70 .amadd, atom 0x71 .amand, atom 0x72 .amor, atom 0x73 .amxor, atom 0x74 .ammin, atom 0x75 .ammax,
  atom 0x76 .amminn, atom 0x77 .ammaxn, atom 0x78 .amswap,
  { code := 0x79, lens := l3, deep := false, role := .sub, d := .xd, a := .xr, b := .x, c := .x, t := tInt, m := m03,
    build := .amcas },
  { code := 0x7A, lens := l3, deep := false, role := .sub, d := .xd, a := .xr, b := .x, t := tVF, m := m03, build := .amfadd }]

def v3 (code : Nat) (t m : List Nat) (build : Op → Instr) : Row :=
  { code, lens := l2, d := .xd, a := .x, b := .x, t, m, build }

def v2 (code : Nat) (t : List Nat) (build : Op → Instr) : Row :=
  { code, lens := l2, d := .xd, a := .x, t, build }

/-- A vector instruction of one source that takes no immediate operand (R106). -/
def v1 (code : Nat) (t : List Nat) (build : Op → Instr) : Row :=
  { code, lens := l2, d := .xd, a := .xn, t, build }

def vred (code : Nat) (build : Op → Instr) : Row :=
  { code, lens := l2, d := .xd, a := .x, t := tV, m := [0, 1], build }

/-- R115: the limits of VCVT's source, format, part number and SAT. -/
def vcvtOk (o : Op) : Bool :=
  let s := o.m.toNat % 8
  let t := o.t.toNat
  let f := i18f o 7 0
  let q := i18f o 9 8
  let sat := i18f o 10 10 == 1
  let ws := laneWidth s
  let wd := laneWidth t
  i18f o 17 11 == 0 && s != 0 && s != 4 && ws != 0 && wd != 0 && (q < max ws wd / min ws wd) &&
  !(s == 7 && t == 7) && !(s < 4 && t < 4 && ws == wd) &&
  (if s == 7 || t == 7 then isB8 f else f == 0) &&
  (!sat || t == 7 || (s < 4 && t < 4 && wd < ws))

/-- R116: q below the ratio of widths, SAT only in VQUANT. -/
def vquantOk (sat : Bool) (o : Op) : Bool :=
  let w := laneWidth (o.m.toNat)
  i18f o 1 0 < w / 8 && i18f o 17 3 == 0 && (sat || i18f o 2 2 == 0)

/-- R106. -/
def rowsVector1 : List Row := [
  v3 0x80 tV [0, 1, 2] .vadd, v3 0x81 tV [0, 1, 2] .vsub, v3 0x82 tV [0] .vmul, v3 0x83 tV [0, 1] .vmulh,
  v3 0x84 tV [0] .vand, v3 0x85 tV [0] .vor, v3 0x86 tV [0] .vxor, v3 0x87 tV [0] .vshl, v3 0x88 tV [0] .vshr,
  v3 0x89 tV [0] .vsra, v3 0x8A tV [0, 1] .vmin, v3 0x8B tV [0, 1] .vmax, v1 0x8C tVA .vabs,
  v3 0x8D tVF [0] .vfadd, v3 0x8E tVF [0] .vfsub, v3 0x8F tVF [0] .vfmul,
  { code := 0x90, lens := l2, d := .xd, a := .x, b := .x, c := .x, t := tVF, build := .vfma },
  v3 0x91 tVF [0] .vfmin, v3 0x92 tVF [0] .vfmax, v3 0x93 tVF [0] .vfdiv, v1 0x94 tVF .vfsqrt, v1 0x95 tVF .vexp2,
  v1 0x96 tVF .vlog2, v1 0x97 tVF .vrcp, v1 0x98 tVF .vrsq,
  { code := 0x99, lens := l2, d := .pd, a := .x, b := .x, t := tV, m := mInt, build := .vcmp,
    extra := fun pr o => pr == .core || o.t == 1 },
  { code := 0x9A, lens := l2, d := .pd, a := .x, b := .x, t := tVF, m := mFp, build := .vfcmp,
    extra := fun pr o => pr == .core || o.t == 5 }]

def rowsVector2 : List Row := [
  { code := 0x9B, lens := l2, d := .xd, a := .x, b := .x, c := .pr, t := tVA, build := .vsel },
  v2 0x9C tVA .vbcast,
  { code := 0x9D, lens := l2, role := .sub, d := .xd, a := .x, t := tVA, build := .vext,
    extra := fun pr o => i18f o 17 7 == 0 && i18f o 6 0 < lanesOf pr o.t.toNat },
  { code := 0x9E, lens := l2, role := .sub, d := .xr, a := .x, t := tVA, build := .vins,
    extra := fun pr o => i18f o 17 7 == 0 && i18f o 6 0 < lanesOf pr o.t.toNat },
  v3 0x9F tVA [0] .vperm,
  { code := 0xA0, lens := l2, role := .sub, d := .xd, a := .x, b := .x, t := tVA, m := [0, 1], build := .vslide,
    extra := fun pr o => i18f o 17 8 == 0 && i18f o 7 0 ≤ lanesOf pr o.t.toNat },
  vred 0xA1 .vredadd, vred 0xA2 .vredmax, vred 0xA3 .vredmin,
  v3 0xA4 tVF [0] .vfred,
  { code := 0xA5, lens := l2, role := .sub, d := .xd, a := .x, t := [1, 2, 3, 5, 6, 7],
    m := [1, 2, 3, 5, 6, 7, 9, 10, 11, 13, 14, 15], build := .vcvt, extra := fun _ o => vcvtOk o },
  v3 0xA6 [5, 6, 7] [0] .vamax,
  { code := 0xA7, lens := l2, role := .sub, d := .xd, a := .x, t := [7], m := [5, 6], build := .vscaleq,
    extra := fun _ o => i18f o 17 8 == 0 && hasEmax (i18f o 7 0) },
  { code := 0xA8, lens := l2, role := .sub, d := .xd, a := .x, b := .x, t := [7], m := [5, 6], build := .vquant,
    extra := fun _ o => vquantOk true o },
  { code := 0xA9, lens := l2, role := .sub, d := .xd, a := .x, b := .x, t := [7], m := [5, 6], build := .vdeq,
    extra := fun _ o => vquantOk false o },
  v1 0xAA tV .vpopc, v3 0xAB tV [0] .vpfx,
  { code := 0xAC, lens := l2, d := .xd, a := .x, c := .pr, t := tVA, build := .vcompr },
  { code := 0xAD, lens := l2, d := .xd, a := .x, c := .pr, t := tVA, build := .vexpnd },
  { code := 0xAE, lens := l2, d := .xd, a := .xr, b := .xn, t := tVA, m := m03, build := .vgath },
  { code := 0xAF, lens := l2, a := .xr, b := .xn, c := .xn, t := tVA, m := m03, build := .vscat }]

def bank (code : Nat) (lens : List Len) (m : List Nat) (build : Op → Instr) : Row :=
  { code, lens, deep := false, role := .sub, d := .xr, a := .xr, b := .x, c := .xr, m, build }

/-- R132, R147. -/
def rowsBank : List Row := [
  bank 0xB0 l2 [0, 2] .bpers,
  { code := 0xB1, lens := l1, deep := false, role := .sub, d := .xr, a := .xr, b := .xr, c := .xr, build := .bspan },
  bank 0xB2 l3 [0, 1] .bput, bank 0xB3 l3 [0] .bputu, bank 0xB4 l1 [0, 1] .bget, bank 0xB5 l1 [0, 1] .bpeek,
  bank 0xB6 l3 [0] .btake, bank 0xB7 l3 [0] .bfind, bank 0xB8 l3 [0] .binc, bank 0xB9 l1 [0] .bcnt,
  bank 0xBA l1 [0] .bclr, bank 0xBB l1 [0] .blatch, bank 0xBC l1 [0] .bstat]

def hmask (code : Nat) (build : Op → Instr) : Row :=
  { code, lens := l1, deep := false, role := .sub, a := .xr, build, extra := fun _ o => i18f o 17 16 == 0 }

/-- R194, R205, R210, R226. -/
def rowsActor : List Row := [
  { code := 0xC0, lens := l3, deep := false, role := .none, a := .xr, b := .x, build := .send,
    m := [0, 1, 2, 3, 4, 5, 6, 7, 8, 9, 10, 11, 12, 13, 14, 15],
    extra := fun _ o => o.m.toNat % 2 == 0 || o.b != .imm },
  { code := 0xC1, lens := l1, deep := false, role := .sub, d := .xd, build := .chcnt, extra := fun _ o => i18f o 17 6 == 0 },
  { code := 0xC2, lens := l1, deep := false, role := .sub, d := .xd, b := .xr, build := .chdrop,
    extra := fun _ o => i18f o 17 4 == 0 },
  hmask 0xC3 .hen, hmask 0xC4 .hdis, hmask 0xC5 .hset,
  { code := 0xC6, lens := l1, deep := false, role := .none, build := .done },
  { code := 0xC7, lens := l1, deep := false, role := .none, a := .xr, b := .xr, c := .xr, build := .fork },
  { code := 0xC8, lens := l1, deep := false, role := .none, a := .xr, build := .tend },
  { code := 0xC9, lens := l1, deep := false, role := .sub, build := .bar, extra := fun _ o => i18f o 17 2 == 0 },
  { code := 0xCA, lens := l1, deep := false, role := .sub, d := .xd, build := .bara, extra := fun _ o => i18f o 17 2 == 0 },
  { code := 0xCB, lens := l1, deep := false, role := .sub, a := .xr, build := .barw, extra := fun _ o => i18f o 17 2 == 0 },
  { code := 0xCC, lens := l1, deep := false, role := .sub, d := .xd, build := .self, extra := fun _ o => i18f o 17 2 == 0 }]

/-- R169, R173, R176, R177. -/
def rowsMatrix : List Row := [
  { code := 0xD0, lens := l1, deep := false, role := .sub, a := .xr, b := .xr, build := .mlda },
  { code := 0xD1, lens := l1, deep := false, role := .sub, d := .am, a := .xr, b := .xr, m := [0, 1], build := .mldb },
  { code := 0xD2, lens := l1, deep := false, role := .sub, d := .am, a := .xr, b := .xr, m := [0, 1], build := .mldbs },
  { code := 0xD3, lens := l1, deep := false, role := .none, d := .am, build := .mzero },
  { code := 0xD4, lens := l1, deep := false, role := .none, d := .am, a := .am, build := .mmul },
  { code := 0xD5, lens := l1, deep := false, role := .none, d := .am, a := .am, build := .mmuls },
  { code := 0xD6, lens := l1, deep := false, role := .sub, d := .am, a := .xr, b := .xr, build := .mgemm,
    extra := fun _ o => i18f o 17 13 == 0 },
  { code := 0xD7, lens := l1, deep := false, role := .sub, d := .am, a := .xr, b := .xr, t := [5, 6, 7], build := .mdrain,
    extra := fun _ o => i18f o 17 9 == 0 && (if o.t == 7 then isB8 (i18f o 7 0) else i18f o 8 0 == 0) },
  { code := 0xD8, lens := l1, deep := false, role := .sub, d := .am, build := .mchain,
    extra := fun _ o => i18f o 17 9 == 0 && isB8 (i18f o 7 0) && o.d == .reg 3 },
  { code := 0xD9, lens := l1, deep := false, role := .sub, d := .am, a := .xr, b := .xr, build := .mst },
  { code := 0xDA, lens := l1, deep := false, role := .none, build := .msync },
  { code := 0xDB, lens := l1, deep := false, role := .none, d := .xd, build := .mstat }]

/-- R283: the TYPE, ETYPE and GROUP a JOB accepts. -/
def jobOk (o : Op) : Bool :=
  let ty := i18f o 2 0
  let et := i18f o 5 3
  i18f o 17 14 == 0 &&
  (match ty with
   | 0 => et == 0 && i18f o 13 6 == 0
   | 1 => 2 ≤ et && et ≤ 5 && i18f o 13 6 == 0
   | 2 => 2 ≤ et && et ≤ 5 && i18f o 13 6 == 0
   | 3 => et == 1
   | 4 => et == 0
   | _ => false)

def mkJob (o : Op) : Instr :=
  match i18f o 2 0 with
  | 0 => .jobCopy o | 1 => .jobGather o | 2 => .jobScatter o | 3 => .jobReduce o | _ => .jobBcast o

/-- R283, R297, R300, R319. -/
def rowsEngine : List Row := [
  { code := 0xE0, lens := l1, deep := false, role := .sub, a := .xr, b := .xr, build := mkJob, extra := fun _ o => jobOk o },
  { code := 0xE1, lens := l1, deep := false, role := .sub, a := .xr, b := .xr, c := .xr, m := m03, build := .gather },
  { code := 0xE2, lens := l1, deep := false, role := .sub, a := .xr, m := m03, build := .srec },
  { code := 0xE3, lens := l1, deep := false, role := .none, m := m03, build := .sstart },
  { code := 0xE4, lens := l1, deep := false, role := .none, m := m03, build := .sstop },
  { code := 0xE5, lens := l1, deep := false, role := .sub, d := .xr, build := .qcnt, extra := fun _ o => i18f o 17 3 == 0 },
  { code := 0xE6, lens := l1, deep := false, role := .sub, d := .xr, build := .qflush, extra := fun _ o => i18f o 17 3 == 0 },
  { code := 0xE7, lens := l1, deep := false, role := .sub, d := .xd, a := .xr, build := .deep }]

/-- R313. -/
def rowsDeep : List Row := [
  { code := 0xE8, lens := l1, core := false, role := .sub, a := .xr, b := .xr, build := .rdrow },
  { code := 0xE9, lens := l1, core := false, role := .sub, a := .xr, b := .xr, build := .wrrow },
  { code := 0xEA, lens := l1, core := false, role := .none, a := .xr, b := .xr, c := .xr, build := .scanrow },
  { code := 0xEB, lens := l1, core := false, role := .none, d := .xr, a := .xr, b := .xr, m := [0, 1], build := .dot16 },
  { code := 0xEC, lens := l1, core := false, role := .sub, build := .dend, extra := fun _ o => i18f o 17 16 == 0 },
  { code := 0xED, lens := l1, core := false, role := .none, build := .dyield },
  { code := 0xEE, lens := l1, core := false, role := .sub, d := .xr, build := .darg, extra := fun _ o => i18n o ≤ 10 }]

/-- Which SGET row a register number belongs to: the pop registers have rows of their own. -/
def mkSget (o : Op) : Instr :=
  match i18f o 9 0 with
  | 0x162 => .travpop o | 0x1A8 => .sfrqpop o | 0x1B2 => .samppop o | _ => .sget o

/-- Which SSET row a register number belongs to. -/
def mkSset (o : Op) : Instr :=
  match i18f o 9 0 with
  | 0x040 => .mseqWrite o
  | 0x110 => .munitWrite o
  | 0x160 => .travctlWrite o
  | 0x1B0 => .sampctlWrite o
  | 0x133 => .amodeWrite o
  | 0x004 => .vuseWrite o
  | 0x1BA => .cmpctlWrite o
  | 0x180 => .strecWrite o | 0x181 => .strecWrite o | 0x182 => .strecWrite o | 0x183 => .strecWrite o
  | 0x151 => .qosbudWrite o | 0x152 => .qosbudWrite o | 0x153 => .qosbudWrite o | 0x154 => .qosbudWrite o
  | 0x155 => .darbWrite o
  | _ => .sset o

/-- R334, R335, R341, R350, R360, R362, R367, R370, R375, R376. -/
def rowsSystem : List Row := [
  { code := 0xF0, lens := l1, role := .sub, d := .xd, build := mkSget, extra := fun _ o => i18f o 17 10 == 0 },
  { code := 0xF1, lens := l3, role := .sub, b := .x, build := mkSset, extra := fun _ o => i18f o 17 10 == 0 },
  { code := 0xF2, lens := l1, deep := false, role := .sub, build := .trap },
  { code := 0xF3, lens := l1, deep := false, kOnly := true, role := .none, m := [0, 1], build := .kret },
  { code := 0xF4, lens := l1, deep := false, kOnly := true, role := .none, a := .xr, b := .xr,
    m := [0, 1, 2, 4, 5, 6, 12], build := .plbinv },
  { code := 0xF5, lens := l1, deep := false, role := .none, build := .ibar },
  { code := 0xF6, lens := l1, role := .none, d := .xd, build := .cyc },
  { code := 0xF7, lens := l1, role := .none, d := .xd, build := .fget },
  { code := 0xF8, lens := l1, role := .sub, d := .xd, a := .xr, build := .fclr, extra := fun _ o => i18f o 17 7 == 0 },
  { code := 0xF9, lens := l1, deep := false, kOnly := true, role := .none, d := .xd, a := .xr, build := .gkill },
  { code := 0xFA, lens := l1, deep := false, kOnly := true, role := .none, d := .xd, a := .xr, b := .xr, c := .xr, build := .aevict },
  { code := 0xFB, lens := l1, deep := false, kOnly := true, role := .none, d := .xd, a := .xr, b := .xr, build := .arestore },
  { code := 0xFC, lens := l1, deep := false, kOnly := true, role := .none, d := .xd, a := .xr, build := .klaunch }]

/-- The opcode map (R48). -/
def rows : List Row :=
  rowsScalar ++ rowsControl ++ rowsScalarFp ++ rowsMemory ++ rowsAtomic ++ rowsVector1 ++ rowsVector2 ++ rowsBank ++
  rowsActor ++ rowsMatrix ++ rowsEngine ++ rowsDeep ++ rowsSystem

def rowOf (code : Nat) : Option Row := rows.find? (fun r => r.code == code)

/-- R40, R42: how many operands are the immediate. -/
def immCount (o : Op) : Nat :=
  (if o.d == .imm then 1 else 0) + (if o.a == .imm then 1 else 0) + (if o.b == .imm then 1 else 0) +
  (if o.c == .imm then 1 else 0)

/-- R38-R40, R42: I18, the extension word and the immediate agree with the role. -/
def immOk (r : Row) (o : Op) : Bool :=
  let n := immCount o
  let short := o.len == .w64
  match r.role with
  | .nop => true
  | .imm => n ≤ 1 && (if n == 1 then short || o.i18 == 0 else o.i18 == 0 && o.ext == 0)
  | .sub => n ≤ 1 && (if n == 1 then !short else o.ext == 0)
  | .none => n ≤ 1 && o.i18 == 0 && (if n == 1 then !short else o.ext == 0)
  | .jump => o.i18 == 0
  | .fp => n ≤ 1 && o.i18 == 0 &&
      (if n == 1 then
        match o.len with
        | .w64 => false
        | .w96 => o.t != 4 && (o.t != 6 || o.ext.toNat < 2 ^ 16)
        | .w128 => o.t == 4
       else o.ext == 0)

/-- The extension word fits the length: none in 64 bits, I32 in 96 bits (R33). -/
def extFits (o : Op) : Bool :=
  match o.len with
  | .w64 => o.ext == 0
  | .w96 => o.ext.toNat < 2 ^ 32
  | .w128 => true

/-- CheckFields of R46: R38, R39, R41, R42, R44, R45 and the entry's own limits. -/
def fieldsOk (prof : Profile) (r : Row) (o : Op) : Bool :=
  r.role == .nop ||
  (clsOk prof r.d o.d && clsOk prof r.a o.a && clsOk prof r.b o.b && clsOk prof r.c o.c &&
   r.t.contains o.t.toNat && r.m.contains o.m.toNat && immOk r o && r.extra prof o)

/-- R46: the profile, the length, then the fields. -/
def rowOk (prof : Profile) (r : Row) (o : Op) : Bool :=
  (if prof == .core then r.core else r.deep) && r.lens.contains o.len && extFits o && fieldsOk prof r o

/-- The opcode and fields of an instruction of either profile; none for an event or a host command. -/
def opOf : Instr → Option (Nat × Op)
  | .add o => some (0x01, o)
  | .sub o => some (0x02, o)
  | .mul o => some (0x03, o)
  | .mulh o => some (0x04, o)
  | .mulhn o => some (0x05, o)
  | .div o => some (0x06, o)
  | .divn o => some (0x07, o)
  | .rem o => some (0x08, o)
  | .remn o => some (0x09, o)
  | .and o => some (0x0A, o)
  | .or o => some (0x0B, o)
  | .xor o => some (0x0C, o)
  | .andn o => some (0x0D, o)
  | .orn o => some (0x0E, o)
  | .shl o => some (0x0F, o)
  | .shr o => some (0x10, o)
  | .sra o => some (0x11, o)
  | .rol o => some (0x12, o)
  | .ror o => some (0x13, o)
  | .min o => some (0x14, o)
  | .max o => some (0x15, o)
  | .minn o => some (0x16, o)
  | .maxn o => some (0x17, o)
  | .clz o => some (0x18, o)
  | .ctz o => some (0x19, o)
  | .popc o => some (0x1A, o)
  | .brev o => some (0x1B, o)
  | .bswap o => some (0x1C, o)
  | .bext o => some (0x1D, o)
  | .bins o => some (0x1E, o)
  | .sel o => some (0x1F, o)
  | .setCond o => some (0x20, o)
  | .pset o => some (0x21, o)
  | .pand o => some (0x22, o)
  | .por o => some (0x23, o)
  | .pxor o => some (0x24, o)
  | .pnot o => some (0x25, o)
  | .li o => some (0x26, o)
  | .lea o => some (0x27, o)
  | .mkaddr o => some (0x28, o)
  | .mkact o => some (0x29, o)
  | .ext o => some (0x2A, o)
  | .br o => some (0x40, o)
  | .jRelative o => some (0x41, o)
  | .jAbsolute o => some (0x41, o)
  | .jalRelative o => some (0x42, o)
  | .jalAbsolute o => some (0x42, o)
  | .jr o => some (0x43, o)
  | .jalr o => some (0x44, o)
  | .loop o => some (0x45, o)
  | .loopc o => some (0x46, o)
  | .nop o => some (0x47, o)
  | .brk o => some (0x48, o)
  | .fadd o => some (0x50, o)
  | .fsub o => some (0x51, o)
  | .fmul o => some (0x52, o)
  | .ffma o => some (0x53, o)
  | .fdiv o => some (0x54, o)
  | .fsqrt o => some (0x55, o)
  | .fmin o => some (0x56, o)
  | .fmax o => some (0x57, o)
  | .fcmp o => some (0x58, o)
  | .fcvt o => some (0x59, o)
  | .fclass o => some (0x5A, o)
  | .fsgn o => some (0x5B, o)
  | .ld o => some (0x60, o)
  | .st o => some (0x61, o)
  | .ldp o => some (0x62, o)
  | .stp o => some (0x63, o)
  | .vld o => some (0x64, o)
  | .vst o => some (0x65, o)
  | .vlds o => some (0x66, o)
  | .vsts o => some (0x67, o)
  | .lgld o => some (0x68, o)
  | .lgst o => some (0x69, o)
  | .pref o => some (0x6A, o)
  | .fence o => some (0x6B, o)
  | .drain o => some (0x6C, o)
  | .amadd o => some (0x70, o)
  | .amand o => some (0x71, o)
  | .amor o => some (0x72, o)
  | .amxor o => some (0x73, o)
  | .ammin o => some (0x74, o)
  | .ammax o => some (0x75, o)
  | .amminn o => some (0x76, o)
  | .ammaxn o => some (0x77, o)
  | .amswap o => some (0x78, o)
  | .amcas o => some (0x79, o)
  | .amfadd o => some (0x7A, o)
  | .vadd o => some (0x80, o)
  | .vsub o => some (0x81, o)
  | .vmul o => some (0x82, o)
  | .vmulh o => some (0x83, o)
  | .vand o => some (0x84, o)
  | .vor o => some (0x85, o)
  | .vxor o => some (0x86, o)
  | .vshl o => some (0x87, o)
  | .vshr o => some (0x88, o)
  | .vsra o => some (0x89, o)
  | .vmin o => some (0x8A, o)
  | .vmax o => some (0x8B, o)
  | .vabs o => some (0x8C, o)
  | .vfadd o => some (0x8D, o)
  | .vfsub o => some (0x8E, o)
  | .vfmul o => some (0x8F, o)
  | .vfma o => some (0x90, o)
  | .vfmin o => some (0x91, o)
  | .vfmax o => some (0x92, o)
  | .vfdiv o => some (0x93, o)
  | .vfsqrt o => some (0x94, o)
  | .vexp2 o => some (0x95, o)
  | .vlog2 o => some (0x96, o)
  | .vrcp o => some (0x97, o)
  | .vrsq o => some (0x98, o)
  | .vcmp o => some (0x99, o)
  | .vfcmp o => some (0x9A, o)
  | .vsel o => some (0x9B, o)
  | .vbcast o => some (0x9C, o)
  | .vext o => some (0x9D, o)
  | .vins o => some (0x9E, o)
  | .vperm o => some (0x9F, o)
  | .vslide o => some (0xA0, o)
  | .vredadd o => some (0xA1, o)
  | .vredmax o => some (0xA2, o)
  | .vredmin o => some (0xA3, o)
  | .vfred o => some (0xA4, o)
  | .vcvt o => some (0xA5, o)
  | .vamax o => some (0xA6, o)
  | .vscaleq o => some (0xA7, o)
  | .vquant o => some (0xA8, o)
  | .vdeq o => some (0xA9, o)
  | .vpopc o => some (0xAA, o)
  | .vpfx o => some (0xAB, o)
  | .vcompr o => some (0xAC, o)
  | .vexpnd o => some (0xAD, o)
  | .vgath o => some (0xAE, o)
  | .vscat o => some (0xAF, o)
  | .bpers o => some (0xB0, o)
  | .bspan o => some (0xB1, o)
  | .bput o => some (0xB2, o)
  | .bputu o => some (0xB3, o)
  | .bget o => some (0xB4, o)
  | .bpeek o => some (0xB5, o)
  | .btake o => some (0xB6, o)
  | .bfind o => some (0xB7, o)
  | .binc o => some (0xB8, o)
  | .bcnt o => some (0xB9, o)
  | .bclr o => some (0xBA, o)
  | .blatch o => some (0xBB, o)
  | .bstat o => some (0xBC, o)
  | .send o => some (0xC0, o)
  | .chcnt o => some (0xC1, o)
  | .chdrop o => some (0xC2, o)
  | .hen o => some (0xC3, o)
  | .hdis o => some (0xC4, o)
  | .hset o => some (0xC5, o)
  | .done o => some (0xC6, o)
  | .fork o => some (0xC7, o)
  | .tend o => some (0xC8, o)
  | .bar o => some (0xC9, o)
  | .bara o => some (0xCA, o)
  | .barw o => some (0xCB, o)
  | .self o => some (0xCC, o)
  | .mlda o => some (0xD0, o)
  | .mldb o => some (0xD1, o)
  | .mldbs o => some (0xD2, o)
  | .mzero o => some (0xD3, o)
  | .mmul o => some (0xD4, o)
  | .mmuls o => some (0xD5, o)
  | .mgemm o => some (0xD6, o)
  | .mdrain o => some (0xD7, o)
  | .mchain o => some (0xD8, o)
  | .mst o => some (0xD9, o)
  | .msync o => some (0xDA, o)
  | .mstat o => some (0xDB, o)
  | .jobCopy o => some (0xE0, o)
  | .jobGather o => some (0xE0, o)
  | .jobScatter o => some (0xE0, o)
  | .jobReduce o => some (0xE0, o)
  | .jobBcast o => some (0xE0, o)
  | .gather o => some (0xE1, o)
  | .srec o => some (0xE2, o)
  | .sstart o => some (0xE3, o)
  | .sstop o => some (0xE4, o)
  | .qcnt o => some (0xE5, o)
  | .qflush o => some (0xE6, o)
  | .deep o => some (0xE7, o)
  | .rdrow o => some (0xE8, o)
  | .wrrow o => some (0xE9, o)
  | .scanrow o => some (0xEA, o)
  | .dot16 o => some (0xEB, o)
  | .dend o => some (0xEC, o)
  | .dyield o => some (0xED, o)
  | .darg o => some (0xEE, o)
  | .sget o => some (0xF0, o)
  | .sset o => some (0xF1, o)
  | .trap o => some (0xF2, o)
  | .kret o => some (0xF3, o)
  | .plbinv o => some (0xF4, o)
  | .ibar o => some (0xF5, o)
  | .cyc o => some (0xF6, o)
  | .fget o => some (0xF7, o)
  | .fclr o => some (0xF8, o)
  | .gkill o => some (0xF9, o)
  | .aevict o => some (0xFA, o)
  | .arestore o => some (0xFB, o)
  | .klaunch o => some (0xFC, o)
  | .travpop o => some (0xF0, o)
  | .sfrqpop o => some (0xF0, o)
  | .samppop o => some (0xF0, o)
  | .mseqWrite o => some (0xF1, o)
  | .munitWrite o => some (0xF1, o)
  | .travctlWrite o => some (0xF1, o)
  | .sampctlWrite o => some (0xF1, o)
  | .amodeWrite o => some (0xF1, o)
  | .vuseWrite o => some (0xF1, o)
  | .cmpctlWrite o => some (0xF1, o)
  | .strecWrite o => some (0xF1, o)
  | .qosbudWrite o => some (0xF1, o)
  | .darbWrite o => some (0xF1, o)
  | .forcedIssue _ => none
  | .firingStart _ _ => none
  | .taskTake _ _ => none
  | .stealWaitExpiry _ _ => none
  | .qstall _ _ => none
  | .vectorWake _ _ => none
  | .messageArrival _ => none
  | .sendLaunch _ _ => none
  | .messageAnswer _ => none
  | .returnDelivery _ _ => none
  | .retryBackoffExpiry _ _ => none
  | .remoteStoreArrival _ => none
  | .storeAck _ => none
  | .remoteLoadArrival _ => none
  | .loadReply _ => none
  | .remoteBankOpArrival _ => none
  | .bankOpReply _ => none
  | .atomicArrival _ => none
  | .atomicReply _ => none
  | .storeLeavesQueue _ _ => none
  | .combiningBufferSend _ _ _ => none
  | .plbFillComplete _ _ => none
  | .translationWalkComplete _ => none
  | .l2Eviction _ => none
  | .storefault _ _ => none
  | .matrixOpComplete _ => none
  | .mgemmStepComplete _ => none
  | .mgemmRestart _ => none
  | .drainBlockArrival _ => none
  | .drainWake _ _ => none
  | .migrationArrival _ => none
  | .waypointForward _ => none
  | .migrateBack _ _ => none
  | .barrierComplete _ _ => none
  | .tendDecrementReply _ => none
  | .jobStart _ _ => none
  | .jobEnd _ _ => none
  | .collectiveInstanceComplete _ _ _ => none
  | .gatherLaneReply _ _ => none
  | .streamPush _ _ => none
  | .rangeRetire _ _ => none
  | .leaseGrant _ => none
  | .cleaningDone _ => none
  | .kernelLeaseExpiry _ => none
  | .kernelSaved _ => none
  | .kernelEnd _ => none
  | .kernelFault _ => none
  | .rowAccessPerformed _ => none
  | .scanrowWave _ => none
  | .arbSlot _ => none
  | .tokenRefill _ => none
  | .preemptionRequest _ _ => none
  | .slotHalt _ _ => none
  | .preemptionWithdraw _ _ => none
  | .teamSwapOut _ => none
  | .teamSwapIn _ _ => none
  | .quantumExpiry => none
  | .teamLaunch _ _ => none
  | .teamEnd _ => none
  | .pcSample _ => none
  | .errorDetected _ _ _ => none
  | .surveyorTestDone _ _ => none
  | .linkRetrain _ _ => none
  | .deviceLost _ => none
  | .powerLimitAction _ _ => none
  | .thermalTrip => none
  | .powerOnReset => none
  | .watchdogReset => none
  | .ownershipLapse => none
  | .hread _ => none
  | .hwrite _ => none
  | .hsend _ => none
  | .claim _ => none
  | .renew _ => none
  | .yield _ => none
  | .leaseset _ => none
  | .image _ => none
  | .attest _ => none
  | .lcset _ => none
  | .partset _ => none
  | .dompart _ => none
  | .traceset _ => none
  | .quantum _ => none
  | .devidset _ => none
  | .replay _ => none
  | .reset _ => none
  | .commandActorMessage _ => none
  | .deviceReinstate _ => none
  | .hostLinkDrop _ _ => none

/-- The instruction that an opcode and fields make. -/
def instrOf (code : Nat) (o : Op) : Option Instr := (rowOf code).map (fun r => r.build o)

end Sys2Proof.Machine
end

