-- ==== Sys2Proof/WellFormed.lean ====
section
/-! DEFINITION. Which instructions are well formed: an encoded instruction satisfies its opcode's row of the layout
(R38-R46), an event names units that exist, a host command's header fits its fields (R393). -/

namespace Sys2Proof

/-- An encoded instruction is well formed in a profile when its opcode's row accepts its fields and the row builds it
from them. -/
def opWf (prof : Profile) (i : Instr) (code : Nat) (o : Op) : Bool :=
  match Machine.rowOf code with
  | none => false
  | some r => Machine.rowOk prof r o && r.build o == i

/-- A host command as its link can carry it: a master's number, its own OPC, and LEN bytes of payload (R393, R395). -/
def hostWf (opc : BitVec 16) (c : HostCmd) : Bool :=
  c.opc == opc && (c.master < 3 || (0x100 ≤ c.master && c.master < 0x200)) && c.len < 0x10000 && c.payload.length == c.len

/-- Well-formedness of every constructor; for an encoded instruction, in profile `prof`. -/
def Instr.wf (prof : Profile) : Instr → Bool
  | .add o => opWf prof (.add o) 0x01 o
  | .sub o => opWf prof (.sub o) 0x02 o
  | .mul o => opWf prof (.mul o) 0x03 o
  | .mulh o => opWf prof (.mulh o) 0x04 o
  | .mulhn o => opWf prof (.mulhn o) 0x05 o
  | .div o => opWf prof (.div o) 0x06 o
  | .divn o => opWf prof (.divn o) 0x07 o
  | .rem o => opWf prof (.rem o) 0x08 o
  | .remn o => opWf prof (.remn o) 0x09 o
  | .and o => opWf prof (.and o) 0x0A o
  | .or o => opWf prof (.or o) 0x0B o
  | .xor o => opWf prof (.xor o) 0x0C o
  | .andn o => opWf prof (.andn o) 0x0D o
  | .orn o => opWf prof (.orn o) 0x0E o
  | .shl o => opWf prof (.shl o) 0x0F o
  | .shr o => opWf prof (.shr o) 0x10 o
  | .sra o => opWf prof (.sra o) 0x11 o
  | .rol o => opWf prof (.rol o) 0x12 o
  | .ror o => opWf prof (.ror o) 0x13 o
  | .min o => opWf prof (.min o) 0x14 o
  | .max o => opWf prof (.max o) 0x15 o
  | .minn o => opWf prof (.minn o) 0x16 o
  | .maxn o => opWf prof (.maxn o) 0x17 o
  | .clz o => opWf prof (.clz o) 0x18 o
  | .ctz o => opWf prof (.ctz o) 0x19 o
  | .popc o => opWf prof (.popc o) 0x1A o
  | .brev o => opWf prof (.brev o) 0x1B o
  | .bswap o => opWf prof (.bswap o) 0x1C o
  | .bext o => opWf prof (.bext o) 0x1D o
  | .bins o => opWf prof (.bins o) 0x1E o
  | .sel o => opWf prof (.sel o) 0x1F o
  | .setCond o => opWf prof (.setCond o) 0x20 o
  | .pset o => opWf prof (.pset o) 0x21 o
  | .pand o => opWf prof (.pand o) 0x22 o
  | .por o => opWf prof (.por o) 0x23 o
  | .pxor o => opWf prof (.pxor o) 0x24 o
  | .pnot o => opWf prof (.pnot o) 0x25 o
  | .li o => opWf prof (.li o) 0x26 o
  | .lea o => opWf prof (.lea o) 0x27 o
  | .mkaddr o => opWf prof (.mkaddr o) 0x28 o
  | .mkact o => opWf prof (.mkact o) 0x29 o
  | .ext o => opWf prof (.ext o) 0x2A o
  | .br o => opWf prof (.br o) 0x40 o
  | .jRelative o => opWf prof (.jRelative o) 0x41 o
  | .jAbsolute o => opWf prof (.jAbsolute o) 0x41 o
  | .jalRelative o => opWf prof (.jalRelative o) 0x42 o
  | .jalAbsolute o => opWf prof (.jalAbsolute o) 0x42 o
  | .jr o => opWf prof (.jr o) 0x43 o
  | .jalr o => opWf prof (.jalr o) 0x44 o
  | .loop o => opWf prof (.loop o) 0x45 o
  | .loopc o => opWf prof (.loopc o) 0x46 o
  | .nop o => opWf prof (.nop o) 0x47 o
  | .brk o => opWf prof (.brk o) 0x48 o
  | .fadd o => opWf prof (.fadd o) 0x50 o
  | .fsub o => opWf prof (.fsub o) 0x51 o
  | .fmul o => opWf prof (.fmul o) 0x52 o
  | .ffma o => opWf prof (.ffma o) 0x53 o
  | .fdiv o => opWf prof (.fdiv o) 0x54 o
  | .fsqrt o => opWf prof (.fsqrt o) 0x55 o
  | .fmin o => opWf prof (.fmin o) 0x56 o
  | .fmax o => opWf prof (.fmax o) 0x57 o
  | .fcmp o => opWf prof (.fcmp o) 0x58 o
  | .fcvt o => opWf prof (.fcvt o) 0x59 o
  | .fclass o => opWf prof (.fclass o) 0x5A o
  | .fsgn o => opWf prof (.fsgn o) 0x5B o
  | .ld o => opWf prof (.ld o) 0x60 o
  | .st o => opWf prof (.st o) 0x61 o
  | .ldp o => opWf prof (.ldp o) 0x62 o
  | .stp o => opWf prof (.stp o) 0x63 o
  | .vld o => opWf prof (.vld o) 0x64 o
  | .vst o => opWf prof (.vst o) 0x65 o
  | .vlds o => opWf prof (.vlds o) 0x66 o
  | .vsts o => opWf prof (.vsts o) 0x67 o
  | .lgld o => opWf prof (.lgld o) 0x68 o
  | .lgst o => opWf prof (.lgst o) 0x69 o
  | .pref o => opWf prof (.pref o) 0x6A o
  | .fence o => opWf prof (.fence o) 0x6B o
  | .drain o => opWf prof (.drain o) 0x6C o
  | .amadd o => opWf prof (.amadd o) 0x70 o
  | .amand o => opWf prof (.amand o) 0x71 o
  | .amor o => opWf prof (.amor o) 0x72 o
  | .amxor o => opWf prof (.amxor o) 0x73 o
  | .ammin o => opWf prof (.ammin o) 0x74 o
  | .ammax o => opWf prof (.ammax o) 0x75 o
  | .amminn o => opWf prof (.amminn o) 0x76 o
  | .ammaxn o => opWf prof (.ammaxn o) 0x77 o
  | .amswap o => opWf prof (.amswap o) 0x78 o
  | .amcas o => opWf prof (.amcas o) 0x79 o
  | .amfadd o => opWf prof (.amfadd o) 0x7A o
  | .vadd o => opWf prof (.vadd o) 0x80 o
  | .vsub o => opWf prof (.vsub o) 0x81 o
  | .vmul o => opWf prof (.vmul o) 0x82 o
  | .vmulh o => opWf prof (.vmulh o) 0x83 o
  | .vand o => opWf prof (.vand o) 0x84 o
  | .vor o => opWf prof (.vor o) 0x85 o
  | .vxor o => opWf prof (.vxor o) 0x86 o
  | .vshl o => opWf prof (.vshl o) 0x87 o
  | .vshr o => opWf prof (.vshr o) 0x88 o
  | .vsra o => opWf prof (.vsra o) 0x89 o
  | .vmin o => opWf prof (.vmin o) 0x8A o
  | .vmax o => opWf prof (.vmax o) 0x8B o
  | .vabs o => opWf prof (.vabs o) 0x8C o
  | .vfadd o => opWf prof (.vfadd o) 0x8D o
  | .vfsub o => opWf prof (.vfsub o) 0x8E o
  | .vfmul o => opWf prof (.vfmul o) 0x8F o
  | .vfma o => opWf prof (.vfma o) 0x90 o
  | .vfmin o => opWf prof (.vfmin o) 0x91 o
  | .vfmax o => opWf prof (.vfmax o) 0x92 o
  | .vfdiv o => opWf prof (.vfdiv o) 0x93 o
  | .vfsqrt o => opWf prof (.vfsqrt o) 0x94 o
  | .vexp2 o => opWf prof (.vexp2 o) 0x95 o
  | .vlog2 o => opWf prof (.vlog2 o) 0x96 o
  | .vrcp o => opWf prof (.vrcp o) 0x97 o
  | .vrsq o => opWf prof (.vrsq o) 0x98 o
  | .vcmp o => opWf prof (.vcmp o) 0x99 o
  | .vfcmp o => opWf prof (.vfcmp o) 0x9A o
  | .vsel o => opWf prof (.vsel o) 0x9B o
  | .vbcast o => opWf prof (.vbcast o) 0x9C o
  | .vext o => opWf prof (.vext o) 0x9D o
  | .vins o => opWf prof (.vins o) 0x9E o
  | .vperm o => opWf prof (.vperm o) 0x9F o
  | .vslide o => opWf prof (.vslide o) 0xA0 o
  | .vredadd o => opWf prof (.vredadd o) 0xA1 o
  | .vredmax o => opWf prof (.vredmax o) 0xA2 o
  | .vredmin o => opWf prof (.vredmin o) 0xA3 o
  | .vfred o => opWf prof (.vfred o) 0xA4 o
  | .vcvt o => opWf prof (.vcvt o) 0xA5 o
  | .vamax o => opWf prof (.vamax o) 0xA6 o
  | .vscaleq o => opWf prof (.vscaleq o) 0xA7 o
  | .vquant o => opWf prof (.vquant o) 0xA8 o
  | .vdeq o => opWf prof (.vdeq o) 0xA9 o
  | .vpopc o => opWf prof (.vpopc o) 0xAA o
  | .vpfx o => opWf prof (.vpfx o) 0xAB o
  | .vcompr o => opWf prof (.vcompr o) 0xAC o
  | .vexpnd o => opWf prof (.vexpnd o) 0xAD o
  | .vgath o => opWf prof (.vgath o) 0xAE o
  | .vscat o => opWf prof (.vscat o) 0xAF o
  | .bpers o => opWf prof (.bpers o) 0xB0 o
  | .bspan o => opWf prof (.bspan o) 0xB1 o
  | .bput o => opWf prof (.bput o) 0xB2 o
  | .bputu o => opWf prof (.bputu o) 0xB3 o
  | .bget o => opWf prof (.bget o) 0xB4 o
  | .bpeek o => opWf prof (.bpeek o) 0xB5 o
  | .btake o => opWf prof (.btake o) 0xB6 o
  | .bfind o => opWf prof (.bfind o) 0xB7 o
  | .binc o => opWf prof (.binc o) 0xB8 o
  | .bcnt o => opWf prof (.bcnt o) 0xB9 o
  | .bclr o => opWf prof (.bclr o) 0xBA o
  | .blatch o => opWf prof (.blatch o) 0xBB o
  | .bstat o => opWf prof (.bstat o) 0xBC o
  | .send o => opWf prof (.send o) 0xC0 o
  | .chcnt o => opWf prof (.chcnt o) 0xC1 o
  | .chdrop o => opWf prof (.chdrop o) 0xC2 o
  | .hen o => opWf prof (.hen o) 0xC3 o
  | .hdis o => opWf prof (.hdis o) 0xC4 o
  | .hset o => opWf prof (.hset o) 0xC5 o
  | .done o => opWf prof (.done o) 0xC6 o
  | .fork o => opWf prof (.fork o) 0xC7 o
  | .tend o => opWf prof (.tend o) 0xC8 o
  | .bar o => opWf prof (.bar o) 0xC9 o
  | .bara o => opWf prof (.bara o) 0xCA o
  | .barw o => opWf prof (.barw o) 0xCB o
  | .self o => opWf prof (.self o) 0xCC o
  | .mlda o => opWf prof (.mlda o) 0xD0 o
  | .mldb o => opWf prof (.mldb o) 0xD1 o
  | .mldbs o => opWf prof (.mldbs o) 0xD2 o
  | .mzero o => opWf prof (.mzero o) 0xD3 o
  | .mmul o => opWf prof (.mmul o) 0xD4 o
  | .mmuls o => opWf prof (.mmuls o) 0xD5 o
  | .mgemm o => opWf prof (.mgemm o) 0xD6 o
  | .mdrain o => opWf prof (.mdrain o) 0xD7 o
  | .mchain o => opWf prof (.mchain o) 0xD8 o
  | .mst o => opWf prof (.mst o) 0xD9 o
  | .msync o => opWf prof (.msync o) 0xDA o
  | .mstat o => opWf prof (.mstat o) 0xDB o
  | .jobCopy o => opWf prof (.jobCopy o) 0xE0 o
  | .jobGather o => opWf prof (.jobGather o) 0xE0 o
  | .jobScatter o => opWf prof (.jobScatter o) 0xE0 o
  | .jobReduce o => opWf prof (.jobReduce o) 0xE0 o
  | .jobBcast o => opWf prof (.jobBcast o) 0xE0 o
  | .gather o => opWf prof (.gather o) 0xE1 o
  | .srec o => opWf prof (.srec o) 0xE2 o
  | .sstart o => opWf prof (.sstart o) 0xE3 o
  | .sstop o => opWf prof (.sstop o) 0xE4 o
  | .qcnt o => opWf prof (.qcnt o) 0xE5 o
  | .qflush o => opWf prof (.qflush o) 0xE6 o
  | .deep o => opWf prof (.deep o) 0xE7 o
  | .rdrow o => opWf prof (.rdrow o) 0xE8 o
  | .wrrow o => opWf prof (.wrrow o) 0xE9 o
  | .scanrow o => opWf prof (.scanrow o) 0xEA o
  | .dot16 o => opWf prof (.dot16 o) 0xEB o
  | .dend o => opWf prof (.dend o) 0xEC o
  | .dyield o => opWf prof (.dyield o) 0xED o
  | .darg o => opWf prof (.darg o) 0xEE o
  | .sget o => opWf prof (.sget o) 0xF0 o
  | .sset o => opWf prof (.sset o) 0xF1 o
  | .trap o => opWf prof (.trap o) 0xF2 o
  | .kret o => opWf prof (.kret o) 0xF3 o
  | .plbinv o => opWf prof (.plbinv o) 0xF4 o
  | .ibar o => opWf prof (.ibar o) 0xF5 o
  | .cyc o => opWf prof (.cyc o) 0xF6 o
  | .fget o => opWf prof (.fget o) 0xF7 o
  | .fclr o => opWf prof (.fclr o) 0xF8 o
  | .gkill o => opWf prof (.gkill o) 0xF9 o
  | .aevict o => opWf prof (.aevict o) 0xFA o
  | .arestore o => opWf prof (.arestore o) 0xFB o
  | .klaunch o => opWf prof (.klaunch o) 0xFC o
  | .travpop o => opWf prof (.travpop o) 0xF0 o
  | .sfrqpop o => opWf prof (.sfrqpop o) 0xF0 o
  | .samppop o => opWf prof (.samppop o) 0xF0 o
  | .mseqWrite o => opWf prof (.mseqWrite o) 0xF1 o
  | .munitWrite o => opWf prof (.munitWrite o) 0xF1 o
  | .travctlWrite o => opWf prof (.travctlWrite o) 0xF1 o
  | .sampctlWrite o => opWf prof (.sampctlWrite o) 0xF1 o
  | .amodeWrite o => opWf prof (.amodeWrite o) 0xF1 o
  | .vuseWrite o => opWf prof (.vuseWrite o) 0xF1 o
  | .cmpctlWrite o => opWf prof (.cmpctlWrite o) 0xF1 o
  | .strecWrite o => opWf prof (.strecWrite o) 0xF1 o
  | .qosbudWrite o => opWf prof (.qosbudWrite o) 0xF1 o
  | .darbWrite o => opWf prof (.darbWrite o) 0xF1 o
  | .forcedIssue core => decide (core < 4096)
  | .firingStart core slot => decide (core < 4096) && decide (slot < 4)
  | .taskTake core slot => decide (core < 4096) && decide (slot < 4)
  | .stealWaitExpiry core slot => decide (core < 4096) && decide (slot < 4)
  | .qstall core slot => decide (core < 4096) && decide (slot < 4)
  | .vectorWake core slot => decide (core < 4096) && decide (slot < 4)
  | .messageArrival _ => true
  | .sendLaunch _ _ => true
  | .messageAnswer _ => true
  | .returnDelivery _ _ => true
  | .retryBackoffExpiry _ _ => true
  | .remoteStoreArrival _ => true
  | .storeAck _ => true
  | .remoteLoadArrival _ => true
  | .loadReply _ => true
  | .remoteBankOpArrival _ => true
  | .bankOpReply _ => true
  | .atomicArrival _ => true
  | .atomicReply _ => true
  | .storeLeavesQueue core slot => decide (core < 4096) && decide (slot < 4)
  | .combiningBufferSend core slot _ => decide (core < 4096) && decide (slot < 4)
  | .plbFillComplete core _ => decide (core < 4096)
  | .translationWalkComplete _ => true
  | .l2Eviction _ => true
  | .storefault core slot => decide (core < 4096) && decide (slot < 4)
  | .matrixOpComplete core => decide (core < 4096)
  | .mgemmStepComplete core => decide (core < 4096)
  | .mgemmRestart core => decide (core < 4096)
  | .drainBlockArrival _ => true
  | .drainWake core _ => decide (core < 4096)
  | .migrationArrival _ => true
  | .waypointForward _ => true
  | .migrateBack core slot => decide (core < 4096) && decide (slot < 4)
  | .barrierComplete _ entry => decide (entry < 256)
  | .tendDecrementReply _ => true
  | .jobStart cluster _ => decide (cluster < 32)
  | .jobEnd cluster _ => decide (cluster < 32)
  | .collectiveInstanceComplete _ entry bcast => decide (entry < 256) && decide (bcast < 2)
  | .gatherLaneReply core _ => decide (core < 4096)
  | .streamPush core k => decide (core < 4096) && decide (k < 4)
  | .rangeRetire core _ => decide (core < 4096)
  | .leaseGrant _ => true
  | .cleaningDone _ => true
  | .kernelLeaseExpiry _ => true
  | .kernelSaved _ => true
  | .kernelEnd _ => true
  | .kernelFault _ => true
  | .rowAccessPerformed svc => decide (svc < 256)
  | .scanrowWave svc => decide (svc < 256)
  | .arbSlot channel => decide (channel < 256)
  | .tokenRefill _ => true
  | .preemptionRequest _ _ => true
  | .slotHalt core slot => decide (core < 4096) && decide (slot < 4)
  | .preemptionWithdraw _ _ => true
  | .teamSwapOut _ => true
  | .teamSwapIn _ _ => true
  | .quantumExpiry => true
  | .teamLaunch _ _ => true
  | .teamEnd _ => true
  | .pcSample core => decide (core < 4096)
  | .errorDetected _ _ unc => decide (unc < 2)
  | .surveyorTestDone _ _ => true
  | .linkRetrain _ _ => true
  | .deviceLost device => decide (device < 256)
  | .powerLimitAction _ _ => true
  | .thermalTrip => true
  | .powerOnReset => true
  | .watchdogReset => true
  | .ownershipLapse => true
  | .hread cmd => hostWf 0x01 cmd
  | .hwrite cmd => hostWf 0x02 cmd
  | .hsend cmd => hostWf 0x03 cmd
  | .claim cmd => hostWf 0x10 cmd
  | .renew cmd => hostWf 0x11 cmd
  | .yield cmd => hostWf 0x12 cmd
  | .leaseset cmd => hostWf 0x13 cmd
  | .image cmd => hostWf 0x20 cmd
  | .attest cmd => hostWf 0x21 cmd
  | .lcset cmd => hostWf 0x22 cmd
  | .partset cmd => hostWf 0x23 cmd
  | .dompart cmd => hostWf 0x24 cmd
  | .traceset cmd => hostWf 0x30 cmd
  | .quantum cmd => hostWf 0x31 cmd
  | .devidset cmd => hostWf 0x32 cmd
  | .replay cmd => hostWf 0x40 cmd
  | .reset cmd => hostWf 0x41 cmd
  | .commandActorMessage _ => true
  | .deviceReinstate device => decide (device < 256)
  | .hostLinkDrop _ connected => decide (connected < 2)

end Sys2Proof
end

