-- ==== Sys2Proof/Decode.lean ====
section
/-! DEFINITION. The decoder, total on any bytes, and the encoder, both from the field table of word 0 (R33-R46). -/

namespace Sys2Proof

/-- Why bytes decode to no instruction (R34, R46), with the value the trap reports in XVAL. -/
inductive DecodeError where
  | illegal (xval : Word)
  | boundary (xval : Word)
  deriving DecidableEq, Repr

/-- The number that little-endian bytes spell (R8). -/
def bytesToNat : List Byte → Nat
  | [] => 0
  | b :: bs => b.toNat + 256 * bytesToNat bs

/-- The n little-endian bytes of a number (R8). -/
def natToBytes : Nat → Nat → List Byte
  | 0, _ => []
  | n + 1, v => BitVec.ofNat 8 v :: natToBytes n (v / 256)

/-- A field of a word: w bits from bit lo. -/
def fieldAt (w0 lo w : Nat) : Nat := w0 / 2 ^ lo % 2 ^ w

def lenOfBits (v : Nat) : Option Len :=
  match v with
  | 0 => some .w64 | 1 => some .w96 | 2 => some .w128 | _ => none

/-- The fields of word 0 (R37) with an extension word. -/
def unpackOp (len : Len) (w0 : Nat) (ext : BitVec 64) : Op :=
  { len, ext,
    d := Machine.opdOfBits (BitVec.ofNat 6 (fieldAt w0 10 6)),
    a := Machine.opdOfBits (BitVec.ofNat 6 (fieldAt w0 16 6)),
    b := Machine.opdOfBits (BitVec.ofNat 6 (fieldAt w0 22 6)),
    c := Machine.opdOfBits (BitVec.ofNat 6 (fieldAt w0 28 6)),
    p := BitVec.ofNat 3 (fieldAt w0 34 3),
    pn := fieldAt w0 37 1 == 1,
    t := BitVec.ofNat 4 (fieldAt w0 38 4),
    m := BitVec.ofNat 4 (fieldAt w0 42 4),
    i18 := BitVec.ofNat 18 (fieldAt w0 46 18) }

/-- Word 0 of an opcode with its fields (R37). -/
def packWord0 (code : Nat) (o : Op) : BitVec 64 :=
  BitVec.ofNat 64
    ((Machine.lenBits o.len).toNat + 2 ^ 2 * (code % 256) + 2 ^ 10 * (Machine.opdToBits o.d).toNat +
     2 ^ 16 * (Machine.opdToBits o.a).toNat + 2 ^ 22 * (Machine.opdToBits o.b).toNat +
     2 ^ 28 * (Machine.opdToBits o.c).toNat + 2 ^ 34 * o.p.toNat + 2 ^ 37 * o.pn.toNat + 2 ^ 38 * o.t.toNat +
     2 ^ 42 * o.m.toNat + 2 ^ 46 * o.i18.toNat)

/-- Decode word 0 and its extension word in a profile: the opcode's row, then its checks (R46). -/
def decodeWord (prof : Profile) (len : Len) (w0 : BitVec 64) (ext : BitVec 64) : Option Instr :=
  match Machine.rowOf (fieldAt w0.toNat 2 8) with
  | none => none
  | some r =>
    let o := unpackOp len w0.toNat ext
    if Machine.rowOk prof r o then some (r.build o) else none

/-- Decode the instruction that begins the bytes of a fetch block from pc to the block's end (R34, R46): the
instruction and its length in bytes, or the fault. -/
def decodeBlock (prof : Profile) (bs : List Byte) : Except DecodeError (Instr × Nat) :=
  let w32 := bytesToNat (bs.take 4)
  let w0 := BitVec.ofNat 64 (bytesToNat (bs.take 8))
  match lenOfBits (w32 % 4) with
  | none => .error (.illegal (if bs.length < 8 then BitVec.ofNat 64 w32 else w0))
  | some len =>
    let n := Machine.lenBytes len
    if bs.length < n then .error (.boundary (BitVec.ofNat 64 w32))
    else
      match decodeWord prof len w0 (BitVec.ofNat 64 (bytesToNat ((bs.take n).drop 8))) with
      | none => .error (.illegal w0)
      | some i => .ok (i, n)

/-- The bytes of an instruction: word 0, then I32 or I64 (R33); none for an event. -/
def encode (i : Instr) : Option (List Byte) :=
  match Machine.opOf i with
  | none => none
  | some (code, o) =>
    some (natToBytes 8 (packWord0 code o).toNat ++ natToBytes (Machine.lenBytes o.len - 8) o.ext.toNat)

/-- The instruction the decoder reads from a word of the opcode table's numbering, with zeros above its bits: in the
core profile, or in the deep profile for what only that profile has. -/
def decodeTableWord (nbits w : Nat) : Option Instr :=
  let bs := natToBytes (nbits / 8) (w % 2 ^ nbits) ++ List.replicate (16 - nbits / 8) 0
  match decodeBlock .core bs with
  | .ok (i, _) => some i
  | .error _ =>
    match decodeBlock .deep bs with
    | .ok (i, _) => some i
    | .error _ => none

end Sys2Proof
end

