-- ==== Sys2Proof/Machine/State.lean ====
section
/-! DEFINITION. The state of the device: every piece of state the spec gives it, as plain data, and its value right after
reset. Numbers of units, ids and counts are `Nat`; what software sees as a word is a bit vector. -/

namespace Sys2Proof.Machine

/-- How a step can stop with a fault. No rule of the spec ends the device's run: every fault the spec describes is a
trap, a status, an event or a record, and is a next state. -/
inductive Fault where
  /-- Raised by `step` when the unit it was to issue for does not exist (a core above 4,095, a slot above 3 or an SVC
  above 255): only a state that no run reaches names such a unit. Safe. -/
  | noSuchUnit
  deriving DecidableEq, Repr

/-- How a step can be refused. -/
inductive Refusal where
  /-- Raised by an arm of `exec` whose instruction has no meaning yet. Safe. -/
  | notModelled (mnemonic : String)
  deriving DecidableEq, Repr

/-- XCAUSE.CODE (R27). -/
inductive Cause where
  | none | illegal | boundary | align | rights | page | storefault | bankop | bankst | format | rate | qstall | brk
  | watch | domain | machinecheck | trap
  deriving DecidableEq, Repr

/-- Page kinds and bank KINDs (R244, R266). -/
inductive Kind where
  | so | rc | uo
  deriving DecidableEq, Repr

/-- What a STALLED slot waits on, in the order of the REASON codes 2 to 20 (R16, R347). `room` is a full queue that an instruction
waits for without the limit of QWAIT: its chapter lists no QSTALL (R231, R236). -/
inductive Wait where
  | operand | memReply | remoteReply | plbFill | storeQueue | fence | release | barrier
  | channel (c : Nat) | queue (q : Nat)
  | room (q : Nat)
  | bank | matrix | range | vwake (group : Nat) | backpressure | guard | away | fetch | accept
  deriving DecidableEq, Repr

/-- The states of a slot (R16). -/
inductive SlotStatus where
  | idle | waiting | ready | stalled (w : Wait)
  deriving DecidableEq, Repr

/-- What runs in a slot: a handler's firing or a task's (R180). -/
inductive Firing where
  | handler (c : Nat)
  | task
  deriving DecidableEq, Repr

/-- What slots and SVCs share: scalar and predicate registers, the program counter, FPCTL (R19, R21, R305).
FPCTL is held as RM and the seven flags NV DZ OF UF NX SCLU SATF, bit 0 to bit 6. -/
structure Thread where
  x : Vector (BitVec 64) 32 := Vector.replicate 32 0
  p : Vector (BitVec 32) 8 := Vector.replicate 8 0
  pc : BitVec 64 := 0
  rm : BitVec 3 := 0
  flags : BitVec 7 := 0
  deriving DecidableEq, Repr

/-- Whose actor a slot holds: team handle, member, slot of the team (R181, R216). -/
structure Ident where
  team : Nat
  member : Nat
  slot : Nat
  deriving DecidableEq, Repr

/-- Where an access is performed (R264): local memory of a core, or the home core of a global line; with its device. -/
structure Target where
  dev : Nat
  core : Nat
  isLocal : Bool
  deriving DecidableEq, Repr

/-- What a store does when it reaches its target: a plain access of n bytes, the two halves of STP, VST, a lane of VSTS, a lane
of VSCAT, LGST, or a combining-buffer entry (R123, R127, R140, R271). -/
inductive StoreOp where
  | plain (n : Nat) | pair (n : Nat) | vec | lane | scat | legend | merged
  deriving DecidableEq, Repr

/-- A store that a combining-buffer entry of another core's local memory holds, as it was issued (R127, R271): where it begins, the
whole access it is a part of, its bytes, and what it does there. -/
structure Merged where
  off : Nat
  whole : Option (Nat × Nat) := none
  data : List (Option Byte)
  op : StoreOp
  deriving DecidableEq, Repr

/-- The rights check of a store in the queue (R245, R266, R336). -/
inductive Check where
  | pending
  | ok (tgt : Target) (kind : Kind)
  | bad (reason : Nat)
  deriving DecidableEq, Repr

/-- One entry of a slot's store queue (R266). `dom` is the domain of its check; of a sent combining-buffer entry, `doms` are those of
the stores merged into it, and `parts` those stores, where its target is local memory. `addr` is the address as issued, `off` the offset for local memory, `whole` the
offset and length of the local access that the entry is a part of (R267). -/
structure StoreReq where
  id : Nat
  pc : BitVec 64
  addr : Nat
  off : Nat := 0
  whole : Option (Nat × Nat) := none
  data : List (Option Byte) := []
  leg : Option Legend := none
  op : StoreOp
  dom : Nat
  doms : List Nat := []
  parts : List Merged := []
  chk : Check
  rel : Bool := false
  counted : Bool := false
  qos : Nat := 0
  since : Nat := 0
  waiting : Bool := false
  failed : Bool := false
  deriving DecidableEq, Repr

/-- One entry of the combining buffer: the masked bytes of one line (R271). `ord` is the id of its first store, `doms` are the
domains under which its stores were checked, `parts` its stores where its target is local memory, in their order. -/
structure CombEntry where
  id : Nat
  ord : Nat
  pc : BitVec 64
  tgt : Target
  line : Nat
  off : Nat := 0
  data : List (Option Byte)
  doms : List Nat := []
  parts : List Merged := []
  qos : Nat := 0
  deriving DecidableEq, Repr

/-- A store sent and not yet acknowledged (R23). `ord` is the id of the store, or of the first one merged into it; `far`
marks one that the firing sent before it returned from a guest core for a trap (R253). -/
structure Unacked where
  id : Nat
  ord : Nat
  tgt : Target
  kind : Kind
  far : Bool := false
  deriving DecidableEq, Repr

/-- The destination of a load (R142): x registers, a v register, lanes of a v register, or a local queue. -/
inductive LoadDst where
  | x (n sz : Nat)
  | xx (n m sz : Nat)
  | v (n : Nat)
  | lanes (n w : Nat) (mask : List Bool) (base : BitVec 256)
  | q (k : Nat) (sz : Nat)
  | qq (d c : Opd) (sz : Nat)
  | vq (k : Nat)
  | lanesq (k w : Nat) (mask : List Bool)
  | lgx (n : Nat)
  | lgq (k : Nat)
  deriving DecidableEq, Repr

/-- Where one part of an access goes: a global line's bytes, or bytes of a core's local memory. -/
inductive Part where
  | glob (a n : Nat)
  | loc (dev core off n : Nat)
  deriving DecidableEq, Repr

/-- One part of a load with what its rights check found: the address that a fault of the part names (a global part's own, a
bank access's first byte), its target and its kind. -/
structure LoadPart where
  part : Part
  xa : Nat
  tgt : Target
  kind : Kind
  deriving DecidableEq, Repr

/-- A load whose reply is owed to a slot (R18, R249). `tgts`, `kinds` and `got` have one entry a part; `later` are the SO
parts that an earlier one still holds (R266), with their places. -/
structure Owed where
  rid : Nat
  addr : BitVec 64
  acq : Bool := false
  dst : LoadDst
  tgts : List Target
  kinds : List Kind
  got : List (Option (List Byte))
  later : List (Nat × LoadPart) := []
  size : Nat := 0
  pair : Nat := 0
  leg : Bool := false
  bst : Option (BitVec 3) := none
  poisoned : Bool := false
  deriving DecidableEq, Repr

/-- A region descriptor, decoded (R284), with the core its window resolved to: `base` is an offset of local memory or a
global address, `addr` the first address as its window names it, `team` the member of a team window. -/
structure Region where
  isLocal : Bool
  base : Nat
  blocks : Nat
  addr : Nat := 0
  dev : Nat := 0
  core : Nat := 0
  team : Option Nat := none
  deriving DecidableEq, Repr

/-- A unit of a job that was skipped: its region, its number, its STATUS, its address, and what tells it from others (R289, R291). -/
structure Skip where
  region : Nat
  unit : Nat
  status : Nat
  addr : Nat
  key : Nat × Nat
  deriving DecidableEq, Repr

/-- The phases of a card (R287, R294). -/
inductive CardPhase where
  | queued | started | performed | ended
  deriving DecidableEq, Repr

/-- A job card that its cluster's scheduler holds (R283-R289). `footR` and `footW` are its regions as they resolved at its issue,
`ins` and `outs` as they resolved last. Of a job that runs, `left` are the units not yet performed, by region and number, `fails` those
skipped, and `moved` the table elements that a SCATTER has written, each with its unit (R293). -/
structure Card where
  id : Nat
  core : Nat
  slot : Nat
  ident : Ident
  dom : Nat
  addr : BitVec 64
  done : BitVec 64
  type : Nat
  etype : Nat
  group : Nat
  ins : List (Option Region)
  outs : List (Option Region)
  footR : List Region := []
  footW : List Region := []
  edges : List Nat := []
  inst : Nat := 0
  ready : Bool := false
  phase : CardPhase := .queued
  status : Nat := 0
  left : Option (List (Nat × Nat)) := none
  fails : List Skip := []
  moved : List (Nat × Nat) := []
  flags : BitVec 7 := 0
  region : Nat := 0
  skipped : Nat := 0
  failAddr : BitVec 64 := 0
  deriving DecidableEq, Repr

/-- What an instruction popped at its issue: entries of queues, and header words of channels (R20). A precise fault in its
reply puts them back. -/
structure Popped where
  queues : List (Nat × List (BitVec 256)) := []
  chans : List (Nat × List (BitVec 64)) := []
  deriving DecidableEq, Repr

/-- An instruction that holds its slot: until a reply comes (R127, R212, R277), until the store queue has taken its lanes
(R266), or until its scheduler accepts a card (R285). -/
inductive Pend where
  | atomic (rid : Nat) (d : Opd) (len : Nat) (undo : Popped)
  | bank (rid : Nat) (d c : Nat) (v : Bool) (len : Nat) (undo : Popped)
  | load (rid : Nat) (len : Nat) (undo : Popped)
  | stores (rest : List StoreReq) (len : Nat)
  | job (card : Card) (len : Nat)
  | tend (rid : Nat) (addr : BitVec 64)
  | tendPush (addr : BitVec 64)
  deriving DecidableEq, Repr

/-- A record of the store-fault queue (R338). -/
structure SfrqRec where
  addr : BitVec 64
  pc : BitVec 64
  kind : Nat
  reason : Nat
  size : Nat
  deriving DecidableEq, Repr

/-- A message: header fields and payload (R188), with the sender's domain (R359) and, for an actor, its team and its
address in TR form. -/
structure Msg where
  retry : Bool := false
  rtn : Bool := false
  wake : Bool := false
  reason : Nat := 0
  source : BitVec 28
  dest : BitVec 28
  payload : BitVec 256
  dom : Nat := 0
  tr : Option (Nat × BitVec 28) := none
  deriving DecidableEq, Repr

/-- Where a message stands in its sender's NI (R195, R200, R201). -/
inductive NiState where
  | release
  | flying
  | backoff (left : Nat)
  | held
  | returning (reason : Nat)
  deriving DecidableEq, Repr

/-- A retry entry of an NI, or a completion that a scheduler sends (R200, R290). `dc` is the resolved destination:
device, core, slot, channel. `upTo` bounds the stores a release waits for. `card` is the card or kernel it completes.
`bypass` marks `.rt`; `behindReturn` an entry held behind a returned `.nr` message (R203). -/
structure NiEntry where
  id : Nat
  addr : BitVec 64
  dc : Nat × Nat × Nat × Nat
  sys : Bool := false
  team : Option Nat := none
  nr : Bool := false
  bypass : Bool := false
  release : Bool := false
  upTo : Nat := 0
  pc : BitVec 64 := 0
  msg : Msg
  st : NiState
  tries : Nat := 0
  refusals : Nat := 0
  behindReturn : Bool := false
  card : Option Nat := none
  owner : Option (Nat × Nat) := none
  deriving DecidableEq, Repr

/-- The AWAY mark (R368). `refused` and `ovf` are the mailbox's set and OVF bits. -/
structure AwayMark where
  team : Nat
  member : Nat
  refused : List (Nat × Nat × Nat × Nat) := []
  ovf : BitVec 16 := 0
  deriving DecidableEq, Repr

/-- The handler and actor registers of a slot (R181-R184). -/
structure ActorRegs where
  htab : Vector (BitVec 64) 16 := Vector.replicate 16 0x000F0100
  en : BitVec 16 := 0
  soft : BitVec 16 := 0
  abase : BitVec 64 := 0
  acode : BitVec 64 := 0
  taske : BitVec 8 := 0
  worker : Bool := false
  mbox : BitVec 4 := 0
  backoff : BitVec 17 := 64
  returns : BitVec 8 := 0
  deriving DecidableEq, Repr

/-- The registers and trap state of a slot beyond its thread (R19-R29, R90, R228, R263, R298, R329, R338, R344). -/
structure SlotRegs where
  bst : BitVec 3 := 0
  livev : BitVec 32 := 0
  vuseMode : Bool := false
  vuseN : BitVec 2 := 3
  vlost : BitVec 4 := 0
  qos : BitVec 2 := 0
  qwaitLimit : BitVec 32 := 0xFFFFFFFF
  xpc : BitVec 64 := 0
  xcause : BitVec 9 := 0
  xval : BitVec 64 := 0
  infiring : Bool := false
  prevk : Bool := false
  vwake : Bool := false
  gslot : BitVec 36 := 0
  latch : Vector (BitVec 64) 8 := Vector.replicate 8 0
  barpend : BitVec 35 := 0
  qossel : BitVec 16 := 0
  gstat : BitVec 32 := 0
  gfirst : BitVec 64 := 0
  kvec : BitVec 64 := 0
  kscr : Vector (BitVec 64) 4 := Vector.replicate 4 0
  sfrqPc : BitVec 64 := 0
  sfrqInfo : BitVec 64 := 0
  sfrqLost : BitVec 8 := 0
  cmpsel : BitVec 10 := 0
  deriving DecidableEq, Repr

/-- An entry of the task deque (R209, R211). -/
structure Task where
  entry : BitVec 64
  args : BitVec 64 × BitVec 64 × BitVec 64
  join : BitVec 64
  forker : BitVec 64
  slot : Nat × Nat
  upTo : Nat
  recAddr : BitVec 64
  pc : BitVec 64
  deriving DecidableEq, Repr

/-- A thread slot of a core. -/
structure Slot where
  thr : Thread := {}
  v : Vector (BitVec 256) 32 := Vector.replicate 32 0
  regs : SlotRegs := {}
  act : ActorRegs := {}
  status : SlotStatus := .idle
  km : Bool := false
  ident : Option Ident := none
  firing : Option Firing := none
  sent : Nat := 0
  readyFor : Nat := 0
  waited : Nat := 0
  sq : List StoreReq := []
  comb : List CombEntry := []
  unacked : List Unacked := []
  owed : List Owed := []
  poisonX : List (Nat × BitVec 64) := []
  pend : Option Pend := none
  badPage : Option (Nat × Nat) := none
  badLine : Option Nat := none
  sfrq : List SfrqRec := []
  sfReported : Nat := 0
  draining : Bool := false
  seqFault : Option (Cause × BitVec 64) := none
  ctr : List (Nat × Nat) := []
  lasth : Nat × Nat := (0, 0)
  ni : List NiEntry := []
  returned : List (Bool × Nat × Nat × Nat × Nat) := []   -- channels whose `.nr` message was returned (R203)
  refused : List (Nat × Nat × Nat × Nat) := []
  ovf : BitVec 16 := 0
  passed : List (Nat × Nat) := []
  lastVictim : Option Nat := none
  roundLeft : Option (List Nat) := none
  stealAt : Option Nat := none
  taskWait : Option Task := none   -- the bottom entry that a worker's pop waits for (R211)
  stealWait : Nat := 0
  noMatch : Bool := false
  guest : Option (Nat × Nat) := none
  awayAt : Option (Nat × Nat) := none
  reserved : Option (Nat × Nat) := none
  away : Option AwayMark := none
  leaving : Bool := false
  haltReq : Bool := false
  haltOps : Nat := 0   -- matrix operations queued at the halt request that the halt still waits for (R365)
  halted : Bool := false
  killed : Bool := false
  dying : Bool := false
  deriving DecidableEq, Repr

/-- A span as its master records it: members by member index and bank, the head and tail members (R152, R153, R232). -/
structure SpanCtl where
  members : List (Nat × Nat)
  head : Nat := 0
  tail : Nat := 0
  deriving DecidableEq, Repr

/-- A bank's control register and controller state (R128, R135-R139, R152, R187). -/
structure Bank where
  ctl : BitVec 64 := 0
  depths : List Nat := []
  heads : List Nat := []
  counts : List Nat := []
  top : Nat := 0
  used : BitVec 512 := 0
  hcount : Nat := 0
  hseq : BitVec 16 := 0
  span : Option SpanCtl := none
  master : Option (Nat × Nat) := none
  hdrs : List (List (BitVec 64)) := []
  deriving DecidableEq, Repr

/-- A decoded or exact number: a NaN (signalling or quiet), an infinity, or (-1)^neg × m × 2^e (R51-R55). -/
inductive FVal where
  | nan (signalling : Bool)
  | inf (neg : Bool)
  | fin (neg : Bool) (m : Nat) (e : Int)
  deriving DecidableEq, Repr

/-- A macro of the matrix unit: its decoded elements, row k by row (missing rows and elements are +0), its MB16 bit and its
sparsity record (R156, R165). -/
structure MTile where
  rows : List (List FVal) := []
  b16 : Bool := false
  sparse : Option (BitVec 16 × Bool) := none
  deriving DecidableEq, Repr

/-- An operation of the matrix queue with the operands it captured at issue (R156, R162, R167). -/
inductive MKind where
  | lda (base stride : Nat) (b16 : Bool)
  | ldb (m : Nat) (tr : Bool) (base stride : Nat) (b16 : Bool)
  | ldbs (m : Nat) (b32 : Bool) (bm : BitVec 16) (base : Nat)
  | zero (a : Nat)
  | mul (a m : Nat)
  | muls (a m : Nat)
  | drain (a : Nat) (t : Nat) (fmt : Nat) (sat : Bool) (dst : BitVec 64) (tgt : Target) (wake : BitVec 64)
  | chain (fmt : Nat) (sat : Bool)
  | st (a base stride : Nat)
  deriving DecidableEq, Repr

/-- One entry of the matrix queue: its slot and actor, the rounding mode and the domain of its issue, and its ranges. -/
structure MOp where
  kind : MKind
  slot : Nat
  rm : BitVec 3
  ranges : List Nat := []
  ident : Option Ident := none
  dom : Nat := 0
  deriving DecidableEq, Repr

/-- An MDRAIN whose blocks are not all written or discarded, or whose wake is not yet sent (R176, R178). -/
structure Drain where
  id : Nat
  slot : Nat
  ident : Option Ident
  addr : BitVec 64
  wake : BitVec 64
  left : Nat
  discarded : Bool := false
  fl : BitVec 7
  dom : Nat
  deriving DecidableEq, Repr

/-- The matrix unit (R156-R158, R173). MSEQ.HELD and ACTIVE are fields of `mseq`; `due` marks a held sequence whose slot
has resumed and that restarts before the slot's next instruction (R174); `seqFl` are the flags of the steps that a sequence has
completed. -/
structure MatrixUnit where
  tiles : Vector MTile 4 := Vector.replicate 4 {}
  arows : List (List FVal) := []
  ab16 : Bool := false
  acc : Vector (List (List (BitVec 32))) 4 := Vector.replicate 4 []
  mseq : BitVec 64 := 0
  en : Bool := false
  domain : BitVec 12 := 0
  queue : List MOp := []
  seqRange : Option Nat := none
  seqFl : BitVec 7 := 0
  due : Bool := false
  deriving DecidableEq, Repr

/-- Who holds an entry of the range scoreboard (R259). -/
inductive Holder where
  | matrix
  | job (cluster card : Nat)
  | gather (id : Nat)
  | drain (id : Nat)
  deriving DecidableEq, Repr

structure Range where
  id : Nat
  lo : Nat
  len : Nat
  write : Bool
  holder : Holder
  deriving DecidableEq, Repr

/-- A stream record: its descriptor, STREC and STRERR (R299, R302). -/
structure Stream where
  base : BitVec 64 := 0
  stride : BitVec 64 := 0
  count : BitVec 32 := 0
  esize : BitVec 3 := 0
  qsel : BitVec 3 := 0
  noq : Bool := false
  isrc : BitVec 2 := 0
  iv : Bool := false
  active : Bool := false
  err : Bool := false
  owner : BitVec 2 := 0
  errc : BitVec 3 := 0
  next : BitVec 32 := 0
  strerr : BitVec 64 := 0
  deriving DecidableEq, Repr

/-- A PLB entry (R244). -/
structure PlbEntry where
  page : Nat
  big : Bool
  dom : Nat
  r : Bool
  w : Bool
  x : Bool
  a : Bool
  kind : Kind
  hashed : Bool
  hdev : Nat
  hcore : Nat
  deriving DecidableEq, Repr

/-- A line of an L1: 64 bytes with a dirty bit a byte, and its legend (R247, R255). -/
structure L1Line where
  line : Nat
  data : BitVec 512
  dirty : BitVec 64 := 0
  leg : Legend
  legDirty : Bool := false
  deriving DecidableEq, Repr

/-- A line of an L2 slice: 256 bytes, sector dirty bits, four legends (R254, R255), and the frame it was translated to. -/
structure L2Line where
  line : Nat
  pa : Nat
  slice : Nat
  data : BitVec 2048
  dirty : BitVec 4 := 0
  leg : Vector Legend 4
  legDirty : BitVec 4 := 0
  deriving DecidableEq, Repr

/-- A fetched block of code, with the domain whose X right was checked (R47, R257, R340). -/
structure CodeBlock where
  block : Nat
  dom : Nat
  data : BitVec 256
  deriving DecidableEq, Repr

/-- A waypoint (R252): the slot whose firing left, where to, and the replies still owed. -/
structure Waypoint where
  slot : Nat
  guest : Nat × Nat
  owed : List Nat
  deriving DecidableEq, Repr

/-- A GATHER in flight: its lanes by destination offset, address, target and kind (R297). -/
structure Gather where
  id : Nat
  slot : Nat
  z : Nat
  lanes : List (Nat × BitVec 64 × Target × Kind)
  dom : Nat
  deriving DecidableEq, Repr

/-- An entry of the traverse ring (R278). -/
structure TravRec where
  addr : BitVec 64
  cyc : BitVec 64
  word : BitVec 64
  deriving DecidableEq, Repr

/-- An entry of the sample ring (R346). -/
structure SampRec where
  pc : BitVec 64
  info : BitVec 64
  deriving DecidableEq, Repr

/-- The traverse ring of a core (R278). -/
structure Traverse where
  en : Bool := false
  lmem : Bool := false
  stop : Bool := false
  domain : BitVec 12 := 0
  ring : List TravRec := []
  lost : BitVec 32 := 0
  travc : BitVec 64 := 0
  travs : BitVec 64 := 0
  deriving DecidableEq, Repr

/-- The PC sampler of a core (R346). -/
structure Sampler where
  period : BitVec 32 := 0
  slots : BitVec 4 := 0
  trace : Bool := false
  ring : List SampRec := []
  lost : BitVec 32 := 0
  info : BitVec 64 := 0
  count : Nat := 0
  deriving DecidableEq, Repr

/-- A core (R16-R30 and the chapters of its units). -/
structure Core where
  slots : Vector Slot 4 := Vector.replicate 4 {}
  last : Nat := 3
  issued : Option Nat := none
  cyc : BitVec 64 := 0
  queues : Vector (List (BitVec 256)) 8 := Vector.replicate 8 []
  qerr : BitVec 8 := 0
  qfault : List (Nat × Nat) := []   -- for a queue with QERR, the record whose ERRC and STRERR a pop of it raises (R301)
  qbad : List (Nat × Nat × BitVec 64) := []   -- loads with an error that went to a queue: queue, entries ahead, address
  mem : List Host.Cell := []
  leg : List (Nat × Legend) := []
  banks : Vector Bank 16 := Vector.replicate 16 {}
  mu : MatrixUnit := {}
  drains : List Drain := []
  ranges : List Range := []
  deque : List Task := []
  streams : Vector Stream 4 := Vector.replicate 4 {}
  gathers : List Gather := []
  plb : List PlbEntry := []
  fills : List (Nat × Nat) := []   -- (address, domain) of the PLB fills asked for
  l1 : List L1Line := []
  icache : List CodeBlock := []
  waypoints : List Waypoint := []
  trav : Traverse := {}
  samp : Sampler := {}
  clock : Nat := 4000
  deriving DecidableEq, Repr

/-- The lines of a SCANROW: their addresses and frames, the lines completed, the end of the wave that is being activated, the
lines that the channel has read, and whether a later instruction of the SVC has issued (R314). -/
structure Scan where
  lines : List (Nat × Nat)
  next : Nat := 0
  wave : Nat := 0
  read : Nat := 0
  past : Bool := false
  deriving DecidableEq, Repr

/-- An entry of the row scoreboard: a line into the buffer, the buffer into a line, or the lines of a SCANROW into the buffer
(R311, R314). -/
structure RowAccess where
  line : Nat
  pa : Nat
  off : Nat
  write : Bool
  served : Bool := false
  scan : Option Scan := none
  deriving DecidableEq, Repr

/-- How a stack vector core stands: free, running a kernel's code, ended, or stopped by a fault (R316, R317, R320). -/
inductive SvcStatus where
  | free | running | ended (code : Nat) | faulted (c : Cause) (pc xval : BitVec 64)
  deriving DecidableEq, Repr

/-- A stack vector core (R305). `scan` is a SCANROW that a pre-emption met, which reissues (R314); `code` the block that the SVC
fetched last (R308). -/
structure Svc where
  thr : Thread := {}
  w : Vector (BitVec 1024) 32 := Vector.replicate 32 0
  mem : List Host.Cell := []
  leg : List (Nat × Legend) := []
  rows : List RowAccess := []
  scan : Option Scan := none
  dprog : BitVec 9 := 0
  code : Option (Nat × List Byte) := none
  cyc : BitVec 64 := 0
  kernel : Option Nat := none
  rank : Nat := 0
  left : Option Nat := none
  status : SvcStatus := .free
  moving : Option Nat := none
  deriving DecidableEq, Repr

/-- The context of an SVC that a pre-emption saved (R320). -/
structure SvcSave where
  thr : Thread
  w : Vector (BitVec 1024) 32
  mem : List Host.Cell
  leg : List (Nat × Legend)
  scan : Option Scan
  dprog : BitVec 9
  status : SvcStatus
  deriving DecidableEq, Repr

/-- The engine scheduler of a cluster: cards and the completions it sends (R285, R290). -/
structure Cluster where
  cards : List Card := []
  compl : List NiEntry := []
  deriving DecidableEq, Repr

/-- The states of a kernel (R320). -/
inductive KState where
  | queued | ready | cleaning | running | halting | ended
  deriving DecidableEq, Repr

/-- A deep kernel (R318-R321). `ended` lists the SVCs that have reached DEND, `behind` the kernels it yielded to; `fault` is
the cause, SVC, PC and XVAL of the fault that ended it. -/
structure Kernel where
  ticket : Nat
  card : BitVec 64
  ident : Option Ident
  dom : Nat
  code : Nat
  coden : Nat
  args : List (BitVec 64)
  reads : List Region
  writes : List Region
  mask : BitVec 32
  stack : Nat
  expiry : Nat
  prio : Nat
  rm : BitVec 3
  done : BitVec 64
  edges : List Nat := []
  st : KState := .queued
  guard : Bool := false
  begun : Bool := false
  ended : List Nat := []
  behind : List Nat := []
  preempts : Nat := 0
  saves : List (Nat × SvcSave) := []
  flags : BitVec 7 := 0
  code0 : Nat := 0
  status : Nat := 0
  fault : Option (Cause × Nat × BitVec 64 × BitVec 64) := none
  completed : Bool := false
  deriving DecidableEq, Repr

/-- A normal command of a channel (R322): the read of an L2 miss, by line and slice, or a write-back of a number of sectors. -/
inductive NormalCmd where
  | read (line slice : Nat)
  | write (sectors : Nat)
  deriving DecidableEq, Repr

/-- A slice or a channel controller (R262, R322): weights, deficits, throttle, class tokens, and the normal commands that
wait, each with its class. -/
structure Channel where
  wn : BitVec 4 := 12
  wd : BitVec 4 := 4
  dn : Int := 0
  dd : Int := 0
  limit : Nat := 16
  waves : BitVec 32 := 0
  tokens : Vector Nat 4 := #v[1024, 1024, 1024, 1024]
  rate : Vector (BitVec 16) 4 := #v[128, 96, 16, 16]
  depth : Vector (BitVec 16) 4 := #v[1024, 1024, 1024, 1024]
  newRate : Option (Vector (BitVec 16) 4) := none
  newDepth : Option (Vector (BitVec 16) 4) := none
  normal : List (NormalCmd × Nat) := []
  deriving DecidableEq, Repr

/-- An L2 miss: the 256-byte line, its slice and class, whether a MOVING leaf holds its walk (R256, R358), its frame once it is
translated and its read waits at the channel, and the requests of the slice that wait for it (R261). -/
structure Walk where
  line : Nat
  slice : Nat
  cls : Nat
  moving : Bool := false
  pa : Option Nat := none
  reqs : List Nat := []
  deriving DecidableEq, Repr

/-- A translation of 64 KiB that a slice or a stack caches (R256, R357, R358): its page and its frame. -/
structure Xlat where
  unit : Nat
  page : Nat
  pa : Nat
  deriving DecidableEq, Repr

/-- A comparator of a gazetteer entry: address and control (R343). -/
structure Comparator where
  addr : BitVec 64 := 0
  ctl : BitVec 32 := 0
  deriving DecidableEq, Repr

/-- A gazetteer entry (R218) with its barrier (R225, R230) and its collective counts (R294). -/
structure GazEntry where
  valid : Bool := false
  rebal : Bool := false
  slots : BitVec 4 := 0
  members : List Nat := []
  cmps : Vector Comparator 4 := Vector.replicate 4 {}
  phase : BitVec 32 := 0
  arrived : List (Nat × Nat) := []
  prevLast : Option Nat := none
  reduces : List ((Nat × Nat) × Nat) := []
  bcasts : List ((Nat × Nat) × Nat) := []
  complete : List (Bool × Nat) := []
  deriving DecidableEq, Repr

/-- A slot template (R217). -/
structure Template where
  acode : BitVec 64
  abase : BitVec 64
  mbox : BitVec 4
  worker : Bool
  en : BitVec 16
  soft : BitVec 16
  vuse : BitVec 3
  depths : List Nat
  htab : List (BitVec 64)
  deriving DecidableEq, Repr

/-- What a swap-out saves of a member core (R372, R373). `cards` are the unstarted job cards, which stay in their scheduler too
(R303). -/
structure CoreSave where
  slots : Vector Slot 4
  queues : Vector (List (BitVec 256)) 8
  qerr : BitVec 8
  qbad : List (Nat × Nat × BitVec 64)
  mem : List Host.Cell
  leg : List (Nat × Legend)
  banks : Vector Bank 16
  mu : MatrixUnit
  deque : List Task
  streams : Vector Stream 4
  qfault : List (Nat × Nat)
  cards : List Card
  deriving DecidableEq, Repr

/-- Where a team stands with the main scheduler (R220, R372, R374). -/
inductive TeamState where
  | queued | resident | swapped | ended
  deriving DecidableEq, Repr

/-- A placement: the compute stacks P[0..S-1] and the origin (R220). -/
structure Place where
  planes : List Nat
  x : Nat
  y : Nat
  deriving DecidableEq, Repr

/-- A team (R216-R225, R374). `since` is the Meridian's count at its placement, `queuedAt` its place among those that wait. -/
structure Team where
  handle : Nat
  st : TeamState := .queued
  w : Nat
  h : Nat
  s : Nat
  ngroup : Nat
  calign : Bool
  pin : Bool
  orgx : Nat
  orgy : Nat
  orgs : Nat
  place : Option Place := none
  domain : Nat
  qos : Nat
  steal : Option Nat
  gaz : List GazEntry
  banks : List (BitVec 64)
  image : Nat
  tmpls : List (Option Template)
  retired : List (Nat × Nat) := []
  saves : List (Nat × CoreSave) := []
  since : BitVec 64 := 0
  queuedAt : Nat := 0
  deriving DecidableEq, Repr

/-- What an entry of a BSPAN list names (R152): no local window, a window that R126 refuses, or a bank. -/
inductive SpanName where
  | outside (addr : BitVec 64)
  | refused (addr : BitVec 64)
  | bank (addr : BitVec 64) (dev core bank : Nat)
  deriving DecidableEq, Repr

/-- What a request is answered with: its result, or the trap its target names (R249). -/
inductive Answer (α : Type) where
  | ok (a : α)
  | trap (c : Cause) (xval : BitVec 64)
  deriving DecidableEq, Repr

/-- What travels between units: requests, replies and acknowledgements (R249), the lane of a GATHER by its place in the destination
(R297), messages (R198), drain blocks (R176) and migrating contexts (R251). -/
inductive Body where
  | store (r : StoreReq)
  | ack (id : Nat) (sat : Bool)
  | load (rid part : Nat) (addr : Nat) (n size : Nat) (leg : Bool) (pair : Nat) (uo : Bool) (xa : BitVec 64)
  | lane (gather off a n : Nat) (uo : Bool)
  | loadReply (rid part : Nat) (data : Answer (List Byte)) (bst : Option (BitVec 3)) (poisoned : Bool)
  | bank (rid : Nat) (code : Nat) (addr : BitVec 64) (din bv : BitVec 64) (v : Bool) (vdata : BitVec 256) (detach : Bool)
      (km own : Bool) (off : Nat)
  | bspan (rid : Nat) (addr : BitVec 64) (names : List SpanName) (km own : Bool) (off : Nat)
  | bankReply (rid : Nat) (r : Answer (BitVec 64 × BitVec 256 × BitVec 3 × Bool × List (BitVec 64)))
  | atomic (rid : Nat) (code : Nat) (addr : Nat) (n : Nat) (bv cv : BitVec 64) (rm : BitVec 3) (tend : Bool) (xa : BitVec 64)
  | atomicReply (rid : Nat) (r : Answer (BitVec 64 × BitVec 7))
  | tendReply (rid : Nat) (r : Answer (BitVec 64))
  | msg (m : Msg) (entry : Nat)
  | answer (entry : Nat) (reason : Nat)
  | drainBlock (drain : Nat) (off : Nat) (total : Nat) (data : List Byte) (leg : Option Legend) (blkOff : Nat)
  | context (sl : Slot)
  deriving DecidableEq, Repr

/-- A packet: its source unit (a slot as core and slot, or a scheduler), its destination device and core, its order in the
(core, target) pair being its place in the list (R249, R384). -/
structure Packet where
  src : Nat × Nat
  unit : Nat
  dev : Nat
  core : Nat
  slot : Nat := 0
  isLocal : Bool := false
  dom : Nat := 0
  cls : Nat := 0
  waiting : Bool := false
  failed : Bool := false
  body : Body
  deriving DecidableEq, Repr

/-- A device event sent to a master (R394). -/
structure Event where
  seq : BitVec 32
  evt : Nat
  cseq : BitVec 32
  status : Nat
  master : Nat
  b0 : BitVec 64
  b1 : BitVec 64
  payload : List Byte
  deriving DecidableEq, Repr

/-- A master as the device sees it (R386, R389, R395): its counters, its replay ring and the events sent on its link. -/
structure Master where
  cmdseq : BitVec 32 := 0
  evseq : BitVec 32 := 0
  connected : Bool := true
  ring : List Event := []
  link : List Event := []
  deriving DecidableEq, Repr

/-- The ownership record of the port die's retained registers (R389). -/
structure Ownership where
  owner : Option (Nat × BitVec 32) := none
  lease : BitVec 64 := 1000000000
  deriving DecidableEq, Repr

/-- An error record (R400). -/
structure ErrRec where
  count : BitVec 64
  unit : BitVec 16
  kind : Nat
  cls : Nat
  action : Nat
  addr : BitVec 64
  stores : BitVec 64
  deriving DecidableEq, Repr

/-- A trace record (R348). -/
structure TraceRec where
  type : Nat
  seq : BitVec 48
  unit : BitVec 16
  a : BitVec 48
  cycle : BitVec 64
  b : BitVec 64
  deriving DecidableEq, Repr

/-- The trace funnel (R348, R393 TRACESET): `recs` are the records sent to the trace lanes, `pos` counts those written to the
ring in HBM since it was set; `full` says that its buffer is full, `dropped` counts the events dropped since the last DROP. -/
structure Funnel where
  enable : BitVec 16 := 0
  toRing : Bool := false
  logSize : Nat := 0
  base : BitVec 64 := 0
  pos : Nat := 0
  seq : BitVec 48 := 0
  recs : List TraceRec := []
  full : Bool := false
  dropped : Nat := 0
  deriving DecidableEq, Repr

/-- A unit whose error the Surveyor tests (R398): kind and number as in R400, the address, whether it was uncorrected, and
the Meridian's counter at detection. -/
structure UnitTest where
  kind : Nat
  num : Nat
  addr : BitVec 64
  unc : Bool
  count : BitVec 64
  deriving DecidableEq, Repr

/-- Data with an uncorrectable error (R332, R399): a global block, a block of a core's local memory, a block of code, a block
of an SVC's buffer, a block of HBM by its frame, or a register of an SVC. -/
inductive Poison where
  | line (va64 : Nat)
  | bank (core blk : Nat)
  | code (core block : Nat)
  | buffer (svc blk : Nat)
  | frame (pa64 : Nat)
  | reg (svc key : Nat)
  deriving DecidableEq, Repr

/-- A host HREAD or HWRITE that waits at the deep guard or at a MOVING page (R388). -/
structure HostWait where
  cmd : HostCmd
  write : Bool
  deriving DecidableEq, Repr

/-- A partition change that waits for its steps (R401): its map, and whom it is answered to: a master's command, or the sender
of a message to the command actor. -/
structure PartChange where
  map : List Byte
  master : Nat := 0
  seq : BitVec 32 := 0
  msg : Option Msg := none
  deriving DecidableEq, Repr

/-- A pre-emption request in force: its scope (0 team, 1 core, 2 domain, 3 device) and what it names (R364). -/
structure Preempt where
  scope : Nat
  arg : Nat
  deriving DecidableEq, Repr

/-- The Meridian, the schedulers and the port die (R3, R374, R383-R402). A CLAIM of `claimed` is a master and a number (R389). -/
structure Port where
  count : BitVec 64 := 0
  own : Ownership := {}
  leaseCount : BitVec 64 := 0
  masters : List (Nat × Master) := []
  image : List Byte := []
  running : Option (BitVec 256) := none
  lifecycle : BitVec 2 := 0
  leaf : Nat := 0
  devid : Option (BitVec 8) := none
  lostDevs : List Nat := []
  launched : Bool := false
  quantum : BitVec 32 := 10000000
  quantumLeft : Nat := 10000000
  clusterPart : Vector (BitVec 4) 32 := Vector.replicate 32 0
  groupPart : Vector (BitVec 4) 32 := Vector.replicate 32 0
  domPart : List (Nat × BitVec 4) := []
  errors : List ErrRec := []
  tests : List UnitTest := []
  retired : List (Nat × Nat) := []
  linksDown : List Nat := []
  funnel : Funnel := {}
  ni : List NiEntry := []
  kcompl : List NiEntry := []
  waits : List HostWait := []
  parts : List PartChange := []
  preempts : List Preempt := []
  clearing : Option (Nat × Nat) := none   -- a waiting team, and the number of the placement that is being freed for it (R374)
  told : List Nat := []   -- the masters that had the OWNER event of the last CLAIM that won (R389)
  held : List HostCmd := []   -- commands on a link that carries no traffic (R382, R398)
  claimed : Option (BitVec 64 × List (Nat × BitVec 32)) := none   -- the count in which a CLAIM made the owner, and its CLAIMs
  power : Bool := false
  plb : List PlbEntry := []   -- the port die's own (R388)
  deriving DecidableEq, Repr

/-- Whose instruction the next step issues. -/
inductive Agent where
  | slot (core slot : Nat)
  | svc (n : Nat)
  deriving DecidableEq, Repr

/-- The whole device. Cores, SVCs, clusters, channels and slices that nothing has touched are absent from their lists and
hold their reset value. -/
structure State where
  cores : List (Nat × Core) := []
  svcs : List (Nat × Svc) := []
  clusters : List (Nat × Cluster) := []
  channels : List (Nat × Channel) := []
  slices : List (Nat × Channel) := []
  teams : List Team := []
  nextHandle : Nat := 0
  kernels : List Kernel := []
  nextTicket : Nat := 0
  net : List Packet := []
  nextId : Nat := 1
  hbm : List Host.Cell := []
  hbmLeg : List (Nat × Legend) := []
  l2 : List L2Line := []
  walks : List Walk := []
  xlat : List Xlat := []
  domtab : BitVec 21 := 0
  ptroot : BitVec 26 := 0
  poison : List Poison := []
  port : Port := {}
  cur : Agent := .slot 0 0
  granted : Bool := false
  agenda : List Turn := []
  freeCtr : Nat := 0
  deriving DecidableEq, Repr

/-- The device right after reset (R32, R157, R390): every unit at its reset value, every memory listing nothing (all of
it reads as zero), no actor anywhere, no owner (the reset at power-on, R389). -/
def State.reset : State := {}

end Sys2Proof.Machine
end

