-- ==== Sys2Proof/Machine/Numbers.lean ====
section
/-! DEFINITION. Numbers (R50-R73): exact values, the formats, the rounding helpers, scales and the exact group of sixteen.
Codes and bit patterns are natural numbers; flags are the seven bits NV DZ OF UF NX SCLU SATF of FPCTL[10:4]. -/

namespace Sys2Proof.Machine

/-! ### Integers (R40, R50) -/

/-- The low n bits of v read as two's complement. -/
def toSigned (n v : Nat) : Int :=
  let u := v % 2 ^ n
  if u < 2 ^ (n - 1) then (u : Int) else (u : Int) - (2 ^ n : Nat)

/-- An integer's low n bits. -/
def ofInt (n : Nat) (i : Int) : Nat := (i % ((2 ^ n : Nat) : Int)).toNat

/-- SignExtend of R40, to 64 bits. -/
def signExtend64 (n v : Nat) : BitVec 64 := BitVec.ofInt 64 (toSigned n v)

/-! ### Flags (R21, R64) -/

abbrev Flags := BitVec 7
def flNV : Flags := 1
def flDZ : Flags := 2
def flOF : Flags := 4
def flUF : Flags := 8
def flNX : Flags := 16
def flSCLU : Flags := 32
def flSATF : Flags := 64

def flagIf (b : Bool) (f : Flags) : Flags := if b then f else 0

/-! ### Exact values -/

def FVal.isNan : FVal → Bool
  | .nan _ => true | _ => false
def FVal.isSig : FVal → Bool
  | .nan s => s | _ => false
def FVal.isInf : FVal → Bool
  | .inf _ => true | _ => false
def FVal.isZero : FVal → Bool
  | .fin _ m _ => m == 0 | _ => false
/-- The sign of an infinity or a finite value. -/
def FVal.sign : FVal → Bool
  | .nan _ => false | .inf n => n | .fin n _ _ => n

def FVal.neg : FVal → FVal
  | .nan s => .nan s | .inf n => .inf (!n) | .fin n m e => .fin (!n) m e

def FVal.ofInt (i : Int) : FVal := .fin (i < 0) i.natAbs 0

/-- v × 2^k, for a finite v. -/
def FVal.scale (k : Int) : FVal → FVal
  | .fin n m e => .fin n m (e + k) | v => v

/-- The signed integer s such that the finite value is s × 2^lo, for lo no greater than its exponent. -/
def finAt (neg : Bool) (m : Nat) (e lo : Int) : Int :=
  let k : Int := ((m * 2 ^ (e - lo).toNat : Nat) : Int)
  if neg then -k else k

/-- The exact sum of two finite values, as a signed integer and an exponent. -/
def finAdd (n1 : Bool) (m1 : Nat) (e1 : Int) (n2 : Bool) (m2 : Nat) (e2 : Int) : Int × Int :=
  let lo := min e1 e2
  (finAt n1 m1 e1 lo + finAt n2 m2 e2 lo, lo)

/-- Comparison of two values that are not NaNs. -/
def FVal.cmp : FVal → FVal → Ordering
  | .inf a, .inf b => if a == b then .eq else if a then .lt else .gt
  | .inf a, _ => if a then .lt else .gt
  | _, .inf b => if b then .gt else .lt
  | .fin n1 m1 e1, .fin n2 m2 e2 =>
      let lo := min e1 e2
      compare (finAt n1 m1 e1 lo) (finAt n2 m2 e2 lo)
  | _, _ => .eq

/-- floor(log2 x) of the positive value m × 2^e. -/
def floorLog (m : Nat) (e : Int) : Int := (Nat.log2 m : Int) + e

/-! ### RoundToGrid (R63)

A positive value is given as m × 2^e, or, when `st` (sticky) is set, as some value strictly between m × 2^e and
(m + 1) × 2^e; a sticky value always has e below the grid's spacing. -/

/-- The integer k of R63 for x = ±(m × 2^e) on the grid of spacing 2^q, and whether k × 2^q is exact. -/
def roundAt (rm : Nat) (neg : Bool) (m : Nat) (e : Int) (st : Bool) (q : Int) : Nat × Bool :=
  if q ≤ e then (m * 2 ^ (e - q).toNat, !st)
  else
    let sh := (q - e).toNat
    let k := m / 2 ^ sh
    let r := m % 2 ^ sh
    let half := 2 ^ (sh - 1)
    let exact := r == 0 && !st
    let above := decide (half < r) || (r == half && st)
    let tie := r == half && !st
    let up :=
      match rm with
      | 1 => false
      | 2 => neg && !exact
      | 3 => !neg && !exact
      | 4 => above || tie
      | _ => above || (tie && k % 2 == 1)
    (if up then k + 1 else k, exact)

/-- RoundToGrid for precision p and least exponent emin: the exponent of the binade used, k, exactness, and R64's
tininess (judged with no least exponent). -/
def roundGrid (rm : Nat) (neg : Bool) (m : Nat) (e : Int) (st : Bool) (p : Nat) (emin : Int) : Int × Nat × Bool × Bool :=
  let fl := floorLog m e
  let ee := max fl emin
  let (k, exact) := roundAt rm neg m e st (ee - (p : Int) + 1)
  let tiny :=
    if fl < emin then
      let (k', _) := roundAt rm neg m e st (fl - (p : Int) + 1)
      !(k' == 2 ^ p && fl + 1 == emin)
    else false
  (ee, k, exact, tiny)

/-! ### IEEE formats (R51, R65) -/

structure Fmt where
  width : Nat
  ebits : Nat
  p : Nat
  deriving DecidableEq, Repr

def f16 : Fmt := ⟨16, 5, 11⟩
def f32 : Fmt := ⟨32, 8, 24⟩
def f64 : Fmt := ⟨64, 11, 53⟩

/-- The format of T = 4, 5, 6 (R94). -/
def fmtOf (t : Nat) : Fmt :=
  match t with
  | 4 => f64 | 6 => f16 | _ => f32

def Fmt.bias (f : Fmt) : Nat := 2 ^ (f.ebits - 1) - 1
def Fmt.emin (f : Fmt) : Int := 1 - (f.bias : Int)
def Fmt.infBits (f : Fmt) : Nat := (2 ^ f.ebits - 1) * 2 ^ (f.p - 1)
def Fmt.maxBits (f : Fmt) : Nat := f.infBits - 1
def Fmt.nanBits (f : Fmt) : Nat := f.infBits + 2 ^ (f.p - 2)
def Fmt.signBit (f : Fmt) : Nat := 2 ^ (f.width - 1)
def Fmt.signed (f : Fmt) (neg : Bool) (mag : Nat) : Nat := if neg then f.signBit + mag else mag

/-- The exact value of a bit pattern; bits above the width are ignored (R93). -/
def Fmt.decode (f : Fmt) (bits : Nat) : FVal :=
  let b := bits % 2 ^ f.width
  let neg := f.signBit ≤ b
  let mag := b % f.signBit
  let ex := mag / 2 ^ (f.p - 1)
  let tr := mag % 2 ^ (f.p - 1)
  if ex == 2 ^ f.ebits - 1 then
    if tr == 0 then .inf neg else .nan (tr < 2 ^ (f.p - 2))
  else if ex == 0 then .fin neg tr (f.emin - (f.p : Int) + 1)
  else .fin neg (2 ^ (f.p - 1) + tr) ((ex : Int) - (f.bias : Int) - (f.p : Int) + 1)

/-- Whether R65's table delivers an infinity on overflow. -/
def overflowToInf (rm : Nat) (neg : Bool) : Bool :=
  match rm with
  | 1 => false | 2 => neg | 3 => !neg | _ => true

/-- RoundIeee (R65) of an exact, possibly sticky, value. -/
def roundIeee (f : Fmt) (rm : Nat) (x : FVal) (st : Bool := false) : Nat × Flags :=
  match x with
  | .nan s => (f.nanBits, flagIf s flNV)
  | .inf n => (f.signed n f.infBits, 0)
  | .fin n m e =>
    if m == 0 then (f.signed n 0, 0)
    else
      let (ee, k, exact, tiny) := roundGrid rm n m e st f.p f.emin
      let mag := (ee - f.emin).toNat * 2 ^ (f.p - 1) + k
      if f.maxBits < mag then
        (f.signed n (if overflowToInf rm n then f.infBits else f.maxBits), flOF ||| flNX)
      else (f.signed n mag, flagIf (!exact) flNX ||| flagIf (!exact && tiny) flUF)

/-! ### Binary8 (R53-R56, R66) -/

def b8Unsigned (f : Nat) : Bool := f / 32 % 2 == 1
def b8Ext (f : Nat) : Bool := f / 16 % 2 == 1
def b8P (f : Nat) : Nat := f % 8
def b8Bias (f : Nat) : Nat := if b8Unsigned f then 2 ^ (8 - b8P f) else 2 ^ (7 - b8P f)
def b8Nan (f : Nat) : Nat := if b8Unsigned f then 0xFF else 0x80
/-- The positive infinity code of an extended format (R53, R54). -/
def b8Inf (f : Nat) : Nat := if b8Unsigned f then 0xFE else 0x7F
/-- The largest finite positive code (R56). -/
def b8Max (f : Nat) : Nat :=
  match b8Unsigned f, b8Ext f with
  | false, false => 0x7F | false, true => 0x7E | true, false => 0xFE | true, true => 0xFD
/-- A code with a sign. -/
def b8Signed (neg : Bool) (c : Nat) : Nat := if neg then c + 0x80 else c

/-- DecodeB8 (R55). -/
def decodeB8 (c f : Nat) : FVal :=
  let p := b8P f
  let u := b8Unsigned f
  if c == b8Nan f then .nan false
  else if b8Ext f && c == b8Inf f then .inf false
  else if b8Ext f && !u && c == 0xFF then .inf true
  else
    let neg := !u && decide (0x80 ≤ c)
    let mag := if u then c else c % 0x80
    let ex := mag / 2 ^ (p - 1)
    let tr := mag % 2 ^ (p - 1)
    let lo : Int := 1 - (p : Int)
    if ex == 0 then .fin neg tr (lo + 1 - (b8Bias f : Int))
    else .fin neg (2 ^ (p - 1) + tr) (lo + (ex : Int) - (b8Bias f : Int))

/-- RoundB8 (R66). -/
def roundB8 (f rm : Nat) (sat : Bool) (x : FVal) : Nat × Flags :=
  let u := b8Unsigned f
  let emin : Int := 1 - (b8Bias f : Int)
  match x with
  | .nan s => (b8Nan f, flagIf s flNV)
  | .inf n =>
    if u && n then if sat then (0, flSATF ||| flNX) else (b8Nan f, flNV)
    else if b8Ext f then (b8Signed n (b8Inf f), 0)
    else if sat then (b8Signed n (b8Max f), flSATF ||| flNX)
    else (b8Nan f, flNV)
  | .fin n m e =>
    if m == 0 then (0, 0)
    else
      let (ee, k, exact, tiny) := roundGrid rm n m e false (b8P f) emin
      let mag := (ee - emin).toNat * 2 ^ (b8P f - 1) + k
      if u && n && k != 0 then if sat then (0, flSATF ||| flNX) else (b8Nan f, flNV)
      else if b8Max f < mag then
        if sat then (b8Signed n (b8Max f), flSATF ||| flNX)
        else if !b8Ext f then (b8Nan f, flOF ||| flNX)
        else (b8Signed n (if overflowToInf rm n then b8Inf f else b8Max f), flOF ||| flNX)
      else (if mag == 0 then 0 else b8Signed (n && !u) mag, flagIf (!exact) flNX ||| flagIf (!exact && tiny) flUF)

/-! ### Integers from values (R67) -/

/-- RoundInt (R67): the n-bit pattern. -/
def roundInt (n : Nat) (signed : Bool) (rm : Nat) (x : FVal) : Nat × Flags :=
  let lo : Int := if signed then -((2 ^ (n - 1) : Nat) : Int) else 0
  let hi : Int := if signed then ((2 ^ (n - 1) : Nat) : Int) - 1 else ((2 ^ n : Nat) : Int) - 1
  match x with
  | .nan _ => (0, flNV)
  | .inf neg => (ofInt n (if neg then lo else hi), flNV)
  | .fin neg m e =>
    if m == 0 then (0, 0)
    else
      let (k, exact) := roundAt rm neg m e false 0
      let i : Int := if neg then -(k : Int) else (k : Int)
      if i < lo then (ofInt n lo, flNV)
      else if hi < i then (ofInt n hi, flNV)
      else (ofInt n i, flagIf (!exact) flNX)

/-! ### Legends (R57-R59) -/

def legFmt (l : Legend) : Nat := l.toNat % 256
def legScale (l : Legend) : Nat := l.toNat / 256

/-- Bytes of one element (R58), 0 for codes with no element. -/
def elemBytes (f : Nat) : Nat :=
  if isB8 f then 1 else
  match f with
  | 0x81 => 2 | 0x82 => 4 | 0xC1 => 1 | 0xC2 => 1 | 0xC3 => 2 | 0xC4 => 4 | _ => 0

/-- DecodeElem (R59), for a format its typed use accepts. -/
def decodeElem (bits : Nat) (l : Legend) : FVal :=
  let f := legFmt l
  if legScale l == 0x80 then .nan false
  else
    let v :=
      if isB8 f then decodeB8 (bits % 256) f
      else match f with
        | 0x81 => f16.decode bits
        | 0x82 => f32.decode bits
        | 0xC1 => FVal.ofInt (toSigned 8 bits)
        | 0xC2 => FVal.ofInt ((bits % 256 : Nat) : Int)
        | 0xC3 => FVal.ofInt (toSigned 16 bits)
        | _ => FVal.ofInt (toSigned 32 bits)
    v.scale (toSigned 8 (legScale l))

/-- EmaxOf (R56, R69). -/
def emaxOf (f : Nat) : Int :=
  if isB8 f then
    match decodeB8 (b8Max f) f with
    | .fin _ m e => floorLog m e
    | _ => 0
  else match f with
    | 0x81 => 15 | 0x82 => 127 | 0xC1 => 6 | 0xC2 => 7 | 0xC3 => 14 | _ => 30

/-- The greatest magnitude of a list of values with no NaN and no infinity, as the value. -/
def amaxFin (vals : List FVal) : FVal :=
  vals.foldl (fun acc v =>
    let a := match v with | .fin _ m e => .fin false m e | w => w
    if FVal.cmp acc a == .lt then a else acc) (.fin false 0 0)

/-- ChooseScale (R69): the scale byte and flags. -/
def chooseScale (vals : List FVal) (f : Nat) : Nat × Flags :=
  if vals.any FVal.isNan then (0x80, 0)
  else if vals.any FVal.isInf then (0x7F, flOF)
  else match amaxFin vals with
    | .fin _ m e =>
      if m == 0 then (0x81, 0)
      else
        let s := floorLog m e - emaxOf f
        if s < -127 then (0x81, flSCLU)
        else if 127 < s then (0x7F, flOF)
        else (ofInt 8 s, 0)
    | _ => (0x80, 0)

/-- Quantization under a chosen scale byte (R70). -/
def quantize (f rm : Nat) (sat : Bool) (s : Nat) (x : FVal) : Nat × Flags :=
  roundB8 f rm sat (x.scale (-(toSigned 8 s)))

/-! ### ExactGroupSum (R71) -/

/-- One product of R71 and its NV. -/
def groupProd (a b : FVal) : FVal × Flags :=
  match a, b with
  | .nan _, _ => (.nan false, 0)
  | _, .nan _ => (.nan false, 0)
  | .inf n, .inf k => (.inf (n != k), 0)
  | .inf n, .fin k m _ => if m == 0 then (.nan false, flNV) else (.inf (n != k), 0)
  | .fin n m _, .inf k => if m == 0 then (.nan false, flNV) else (.inf (n != k), 0)
  | .fin n m e, .fin k l f => (.fin (n != k) (m * l) (e + f), 0)

/-- The exact sum of finite values, as s × 2^e. -/
def exactSum (vs : List FVal) : Int × Int :=
  let lo := vs.foldl (fun lo v => match v with | .fin _ _ e => min lo e | _ => lo) (0 : Int)
  (vs.foldl (fun s v => match v with | .fin n m e => s + finAt n m e lo | _ => s) 0, lo)

/-- ExactGroupSum (R71): the new FP32 accumulator element and the flags. -/
def exactGroupSum (acc : Nat) (a b : List FVal) (rm : Nat) : Nat × Flags :=
  let ps := (a.zip b).map (fun x => groupProd x.1 x.2)
  let fl := ps.foldl (fun f p => f ||| p.2) 0
  let prods := ps.map Prod.fst
  if prods.all FVal.isZero then (acc, fl)
  else
    let all := f32.decode acc :: prods
    if all.any FVal.isNan then (f32.nanBits, fl ||| flNV)
    else
      let pinf := all.any (fun v => v.isInf && !v.sign)
      let ninf := all.any (fun v => v.isInf && v.sign)
      if pinf && ninf then (f32.nanBits, fl ||| flNV)
      else if pinf then (f32.infBits, fl)
      else if ninf then (f32.signed true f32.infBits, fl)
      else
        let (s, e) := exactSum all
        if s == 0 then (if rm == 2 then 0x80000000 else 0, fl)
        else
          let (r, g) := roundIeee f32 rm (.fin (s < 0) s.natAbs e)
          (r, fl ||| g)

/-! ### Arithmetic of R94 -/

/-- NaN handling shared by R94's instructions: the canonical NaN if an operand is a NaN. -/
def nanOf (f : Fmt) (ops : List FVal) : Option (Nat × Flags) :=
  if ops.any FVal.isNan then some (f.nanBits, flagIf (ops.any FVal.isSig) flNV) else none

/-- The sum of two terms that are not NaNs (R94). -/
def addTerms (f : Fmt) (rm : Nat) (a b : FVal) : Nat × Flags :=
  match a, b with
  | .inf n, .inf k => if n == k then (f.signed n f.infBits, 0) else (f.nanBits, flNV)
  | .inf n, _ => (f.signed n f.infBits, 0)
  | _, .inf k => (f.signed k f.infBits, 0)
  | .fin n m e, .fin k l g =>
    if m == 0 && l == 0 && n == k then (f.signed n 0, 0)
    else
      let (s, lo) := finAdd n m e k l g
      if s == 0 then (f.signed (rm == 2) 0, 0)
      else roundIeee f rm (.fin (s < 0) s.natAbs lo)
  | _, _ => (f.nanBits, 0)

def fpAdd (f : Fmt) (rm a b : Nat) : Nat × Flags :=
  let x := f.decode a
  let y := f.decode b
  (nanOf f [x, y]).getD (addTerms f rm x y)

def fpSub (f : Fmt) (rm a b : Nat) : Nat × Flags :=
  let x := f.decode a
  let y := f.decode b
  (nanOf f [x, y]).getD (addTerms f rm x y.neg)

def fpMul (f : Fmt) (rm a b : Nat) : Nat × Flags :=
  let x := f.decode a
  let y := f.decode b
  (nanOf f [x, y]).getD
    (match groupProd x y with
     | (.nan _, _) => (f.nanBits, flNV)
     | (v, _) => roundIeee f rm v)

def fpFma (f : Fmt) (rm a b c : Nat) : Nat × Flags :=
  let x := f.decode a
  let y := f.decode b
  let z := f.decode c
  (nanOf f [x, y, z]).getD
    (match groupProd x y with
     | (.nan _, _) => (f.nanBits, flNV)
     | (v, _) => addTerms f rm v z)

/-- (m1 × 2^e1) / (m2 × 2^e2) to more bits than any format holds, with its sticky bit. -/
def divSticky (m1 : Nat) (e1 : Int) (m2 : Nat) (e2 : Int) : Nat × Int × Bool :=
  let s := 128 + Nat.log2 m2
  let n := m1 * 2 ^ s
  (n / m2, e1 - e2 - (s : Int), n % m2 != 0)

def fpDiv (f : Fmt) (rm a b : Nat) : Nat × Flags :=
  let x := f.decode a
  let y := f.decode b
  (nanOf f [x, y]).getD
    (match x, y with
     | .inf _, .inf _ => (f.nanBits, flNV)
     | .inf n, v => (f.signed (n != v.sign) f.infBits, 0)
     | v, .inf k => (f.signed (v.sign != k) 0, 0)
     | .fin n m e, .fin k l g =>
       if l == 0 then
         if m == 0 then (f.nanBits, flNV) else (f.signed (n != k) f.infBits, flDZ)
       else if m == 0 then (f.signed (n != k) 0, 0)
       else
         let (q, qe, st) := divSticky m e l g
         roundIeee f rm (.fin (n != k) q qe) st
     | _, _ => (f.nanBits, 0))

/-- floor(√n), bit by bit from bit `i`. -/
def isqrtFrom (n : Nat) : Nat → Nat → Nat
  | 0, r => r
  | i + 1, r =>
    let t := r + 2 ^ i
    isqrtFrom n i (if t * t ≤ n then t else r)

def isqrt (n : Nat) : Nat := isqrtFrom n (Nat.log2 n / 2 + 1) 0

/-- √(m × 2^e) to more bits than any format holds. -/
def sqrtSticky (m : Nat) (e : Int) : Nat × Int × Bool :=
  let odd := e % 2 != 0
  let n := (if odd then 2 * m else m) * 2 ^ 160
  let e' := if odd then e - 1 else e
  let r := isqrt n
  (r, e' / 2 - 80, r * r != n)

def fpSqrt (f : Fmt) (rm a : Nat) : Nat × Flags :=
  let x := f.decode a
  (nanOf f [x]).getD
    (match x with
     | .inf n => if n then (f.nanBits, flNV) else (f.infBits, 0)
     | .fin n m e =>
       if m == 0 then (f.signed n 0, 0)
       else if n then (f.nanBits, flNV)
       else
         let (r, re, st) := sqrtSticky m e
         roundIeee f rm (.fin false r re) st
     | _ => (f.nanBits, 0))

/-- FMIN and FMAX (R95). -/
def fpMinMax (f : Fmt) (isMax : Bool) (a b : Nat) : Nat × Flags :=
  let x := f.decode a
  let y := f.decode b
  let ab := a % 2 ^ f.width
  let bb := b % 2 ^ f.width
  let fl := flagIf (x.isSig || y.isSig) flNV
  if x.isNan && y.isNan then (f.nanBits, fl)
  else if x.isNan then (bb, fl)
  else if y.isNan then (ab, fl)
  else
    let aLess := match x.cmp y with
      | .lt => true | .gt => false | .eq => x.sign && !y.sign
    let bLess := match x.cmp y with
      | .lt => false | .gt => true | .eq => y.sign && !x.sign
    (if isMax then (if aLess then bb else ab) else (if bLess then bb else ab), 0)

/-- FP conditions of R45, with R96's NV. -/
def fpCond (f : Fmt) (m a b : Nat) : Bool × Flags :=
  let x := f.decode a
  let y := f.decode b
  let un := x.isNan || y.isNan
  let sig := x.isSig || y.isSig
  let o := x.cmp y
  match m with
  | 0 => (!un && o == .eq, flagIf sig flNV)
  | 1 => (un || o != .eq, flagIf sig flNV)
  | 2 => (!un && o == .lt, flagIf un flNV)
  | 3 => (!un && o != .lt, flagIf un flNV)
  | 4 => (!un && o != .gt, flagIf un flNV)
  | 5 => (!un && o == .gt, flagIf un flNV)
  | 10 => (un, flagIf sig flNV)
  | _ => (!un, flagIf sig flNV)

/-- Integer conditions of R45 at width n. -/
def intCond (n m a b : Nat) : Bool :=
  let x := a % 2 ^ n
  let y := b % 2 ^ n
  let i := toSigned n a
  let j := toSigned n b
  match m with
  | 0 => x == y
  | 1 => x != y
  | 2 => i < j
  | 3 => j ≤ i
  | 4 => i ≤ j
  | 5 => j < i
  | 6 => x < y
  | 7 => y ≤ x
  | 8 => x ≤ y
  | _ => y < x

/-- FCLASS's word (R98). -/
def fpClass (f : Fmt) (a : Nat) : Nat :=
  let b := a % 2 ^ f.width
  let neg := if f.signBit ≤ b then 0x100 else 0
  match f.decode a with
  | .nan s => neg + 16 + (if s then 0x200 else 0)
  | .inf _ => neg + 8
  | .fin _ m _ =>
    neg + (if m == 0 then 1 else if m < 2 ^ (f.p - 1) then 2 else 4)

/-! ### 2^a, log2 a, 1/a, 1/√a (R110) -/

/-- ln 2 in units of 2^-320, by Σ 1/(k 2^k). -/
def ln2Sum : Nat → Nat
  | 0 => 0
  | k + 1 => 2 ^ 320 / ((k + 1) * 2 ^ (k + 1)) + ln2Sum k

def ln2 : Nat := ln2Sum 330

/-- Σ_{j<n} z^j / j! in units of 2^-320, with `term` the current term and `j` its index. -/
def expSum (z : Nat) : Nat → Nat → Nat → Nat
  | 0, _, _ => 0
  | n + 1, j, term => term + expSum z n (j + 1) (term * z / 2 ^ 320 / (j + 1))

/-- 2^f for f = n / 2^320 in [0, 1), in units of 2^-320. -/
def exp2Frac (n : Nat) : Nat := expSum (n * ln2 / 2 ^ 320) 80 0 (2 ^ 320)

/-- 2^a for a finite a: mantissa, exponent, sticky. Past ±1000 every format overflows or rounds to zero. -/
def exp2Sticky (neg : Bool) (m : Nat) (e : Int) : Nat × Int × Bool :=
  if 10 ≤ floorLog m e then (2 ^ 64, if neg then -1100 else 1000, true)
  else
    let fx : Int := finAt neg m (e + 320) 0
    let k := fx / ((2 ^ 320 : Nat) : Int)
    let fr := (fx % ((2 ^ 320 : Nat) : Int)).toNat
    if fr == 0 then (1, k, false)
    else (exp2Frac fr / 2 ^ 256, k - 64, true)

/-- The first n binary digits of log2 y for y in [1, 2), y in units of 2^-400, added to `acc` shifted. -/
def log2Digits : Nat → Nat → Nat → Nat
  | 0, _, acc => acc
  | n + 1, y, acc =>
    let y2 := y * y / 2 ^ 400
    if 2 ^ 401 ≤ y2 then log2Digits n (y2 / 2) (2 * acc + 1) else log2Digits n y2 (2 * acc)

/-- log2 of the positive m × 2^e: sign, mantissa, exponent, sticky. -/
def log2Sticky (m : Nat) (e : Int) : Bool × Nat × Int × Bool :=
  let k := floorLog m e
  let l := Nat.log2 m
  let y := m * 2 ^ 400 / 2 ^ l
  if m == 2 ^ l then (k < 0, k.natAbs, 0, false)
  else
    let fr := log2Digits 128 y 0
    let r : Int := k * ((2 ^ 128 : Nat) : Int) + (fr : Int)
    if 0 ≤ r then (false, r.toNat, -128, true) else (true, (-r).toNat - 1, -128, true)

/-- 1/√(m × 2^e): mantissa, exponent, sticky. -/
def rsqrtSticky (m : Nat) (e : Int) : Nat × Int × Bool :=
  let odd := e % 2 != 0
  let m' := if odd then 2 * m else m
  let e' := if odd then e - 1 else e
  let q := 2 ^ 240 / m'
  let r := isqrt q
  (r, -(e' / 2) - 120, r * r * m' != 2 ^ 240)

def fpExp2 (f : Fmt) (a : Nat) : Nat × Flags :=
  match f.decode a with
  | .nan s => (f.nanBits, flagIf s flNV)
  | .inf n => (if n then 0 else f.infBits, 0)
  | .fin n m e =>
    if m == 0 then roundIeee f 1 (.fin false 1 0)
    else
      let (r, re, st) := exp2Sticky n m e
      roundIeee f 1 (.fin false r re) st

def fpLog2 (f : Fmt) (a : Nat) : Nat × Flags :=
  match f.decode a with
  | .nan s => (f.nanBits, flagIf s flNV)
  | .inf n => if n then (f.nanBits, flNV) else (f.infBits, 0)
  | .fin n m e =>
    if m == 0 then (f.signed true f.infBits, flDZ)
    else if n then (f.nanBits, flNV)
    else
      let (s, r, re, st) := log2Sticky m e
      roundIeee f 1 (.fin s r re) st

def fpRcp (f : Fmt) (a : Nat) : Nat × Flags :=
  match f.decode a with
  | .nan s => (f.nanBits, flagIf s flNV)
  | .inf n => (f.signed n 0, 0)
  | .fin n m e =>
    if m == 0 then (f.signed n f.infBits, flDZ)
    else
      let (r, re, st) := divSticky 1 0 m e
      roundIeee f 1 (.fin n r re) st

def fpRsq (f : Fmt) (a : Nat) : Nat × Flags :=
  match f.decode a with
  | .nan s => (f.nanBits, flagIf s flNV)
  | .inf n => if n then (f.nanBits, flNV) else (0, 0)
  | .fin n m e =>
    if m == 0 then (f.signed n f.infBits, flDZ)
    else if n then (f.nanBits, flNV)
    else
      let (r, re, st) := rsqrtSticky m e
      roundIeee f 1 (.fin false r re) st

end Sys2Proof.Machine
end

