-- ==== Sys2Proof/Machine/Ops.lean ====
section
/-! DEFINITION. The named operations over the state: sparse maps, memory, units, the monad of an instruction's body,
registers, local queues, teams, records and events, and taking and returning from a trap. -/

namespace Sys2Proof.Machine

/-! ### Sparse maps -/

/-- The entry of key a, or d when it is absent. -/
def aget {α : Type} (d : α) : List (Nat × α) → Nat → α
  | [], _ => d
  | (k, v) :: r, a => if k = a then v else aget d r a

/-- Set the entry of key a; keys rise. -/
def aput {α : Type} : List (Nat × α) → Nat → α → List (Nat × α)
  | [], a, v => [(a, v)]
  | (k, w) :: r, a, v =>
    if a = k then (a, v) :: r
    else if a < k then (a, v) :: (k, w) :: r
    else (k, w) :: aput r a v

/-- Set the entry of key a in a map that lists no entry equal to z. -/
def cput {α : Type} [DecidableEq α] (z : α) : List (Nat × α) → Nat → α → List (Nat × α)
  | [], a, v => if v = z then [] else [(a, v)]
  | (k, w) :: r, a, v =>
    if a = k then (if v = z then r else (a, v) :: r)
    else if a < k then (if v = z then (k, w) :: r else (a, v) :: (k, w) :: r)
    else (k, w) :: cput z r a v

/-- The canonical form: keys strictly rise and no entry equals z. -/
def Canon {α : Type} [DecidableEq α] (z : α) : List (Nat × α) → Bool
  | [] => true
  | [(_, v)] => v ≠ z
  | (k, v) :: (k', v') :: r => v ≠ z && decide (k < k') && Canon z ((k', v') :: r)

def vget {α : Type} {n : Nat} (d : α) (v : Vector α n) (i : Nat) : α := (v[i]?).getD d
def vput {α : Type} {n : Nat} (v : Vector α n) (i : Nat) (x : α) : Vector α n := v.setIfInBounds i x

/-- Replace element i of a list. -/
def lput {α : Type} : List α → Nat → α → List α
  | [], _, _ => []
  | _ :: r, 0, x => x :: r
  | y :: r, i + 1, x => y :: lput r i x

def lget {α : Type} (d : α) (l : List α) (i : Nat) : α := (l[i]?).getD d

/-- A list without its element i. -/
def ldel {α : Type} : List α → Nat → List α
  | [], _ => []
  | _ :: r, 0 => r
  | y :: r, i + 1 => y :: ldel r i

def sumNat (l : List Nat) : Nat := l.foldl (· + ·) 0

/-! ### Memory: bytes, words, legends (R8, R57) -/

abbrev Mem := List Host.Cell
abbrev LegMap := List (Nat × Legend)

/-- What an unlisted address reads as: zero, since every reset wipes every memory (R390). -/
def Mem.unlisted : Byte := 0

def Mem.read (m : Mem) (a : Nat) : Byte := aget Mem.unlisted m a
def Mem.write (m : Mem) (a : Nat) (b : Byte) : Mem := cput Mem.unlisted m a b
/-- The canonical form of a memory. -/
def Memory.wf (m : Mem) : Bool := Canon Mem.unlisted m

def Mem.readN (m : Mem) (a : Nat) : Nat → List Byte
  | 0 => []
  | n + 1 => m.read a :: m.readN (a + 1) n

def Mem.writeN (m : Mem) (a : Nat) : List Byte → Mem
  | [] => m
  | b :: bs => (m.write a b).writeN (a + 1) bs

/-- Write the bytes that are present (a masked store). -/
def Mem.writeMasked (m : Mem) (a : Nat) : List (Option Byte) → Mem
  | [] => m
  | none :: bs => m.writeMasked (a + 1) bs
  | some b :: bs => (m.write a b).writeMasked (a + 1) bs

def Mem.word (m : Mem) (a n : Nat) : Nat := bytesToNat (m.readN a n)
def Mem.setWord (m : Mem) (a n v : Nat) : Mem := m.writeN a (natToBytes n v)

/-- Remove every entry with lo ≤ key < hi: the wipe of a range to zero. -/
def wipeRange {α : Type} (m : List (Nat × α)) (lo hi : Nat) : List (Nat × α) :=
  m.filter (fun e => e.1 < lo || hi ≤ e.1)

/-- The legend of 64-byte block b (R57). -/
def LegMap.read (l : LegMap) (b : Nat) : Legend := aget 0 l b
def LegMap.write (l : LegMap) (b : Nat) (v : Legend) : LegMap := cput (0 : Legend) l b v

/-- The bytes of a bit vector, little-endian. -/
def bvBytes {w : Nat} (n : Nat) (v : BitVec w) : List Byte := natToBytes n v.toNat
def bytesBv (w : Nat) (bs : List Byte) : BitVec w := BitVec.ofNat w (bytesToNat bs)

/-! ### Units -/

def State.core (s : State) (c : Nat) : Core := aget {} s.cores c
def State.setCore (s : State) (c : Nat) (x : Core) : State := { s with cores := aput s.cores c x }
def State.modCore (s : State) (c : Nat) (f : Core → Core) : State := s.setCore c (f (s.core c))

def Core.slot (c : Core) (k : Nat) : Slot := vget {} c.slots k
def Core.setSlot (c : Core) (k : Nat) (x : Slot) : Core := { c with slots := vput c.slots k x }
def State.slot (s : State) (c k : Nat) : Slot := (s.core c).slot k
def State.setSlot (s : State) (c k : Nat) (x : Slot) : State := s.modCore c (·.setSlot k x)
def State.modSlot (s : State) (c k : Nat) (f : Slot → Slot) : State := s.setSlot c k (f (s.slot c k))

def Core.bank (c : Core) (b : Nat) : Bank := vget {} c.banks b
def Core.setBank (c : Core) (b : Nat) (x : Bank) : Core := { c with banks := vput c.banks b x }
def State.bank (s : State) (c b : Nat) : Bank := (s.core c).bank b
def State.modBank (s : State) (c b : Nat) (f : Bank → Bank) : State := s.modCore c (fun x => x.setBank b (f (x.bank b)))

def State.svc (s : State) (n : Nat) : Svc := aget {} s.svcs n
def State.setSvc (s : State) (n : Nat) (x : Svc) : State := { s with svcs := aput s.svcs n x }
def State.modSvc (s : State) (n : Nat) (f : Svc → Svc) : State := s.setSvc n (f (s.svc n))

def State.cluster (s : State) (n : Nat) : Cluster := aget {} s.clusters n
def State.modCluster (s : State) (n : Nat) (f : Cluster → Cluster) : State :=
  { s with clusters := aput s.clusters n (f (s.cluster n)) }

def State.channel (s : State) (n : Nat) : Channel := aget {} s.channels n
def State.modChannel (s : State) (n : Nat) (f : Channel → Channel) : State :=
  { s with channels := aput s.channels n (f (s.channel n)) }

def State.slice (s : State) (n : Nat) : Channel := aget {} s.slices n
def State.modSlice (s : State) (n : Nat) (f : Channel → Channel) : State :=
  { s with slices := aput s.slices n (f (s.slice n)) }

def State.modPort (s : State) (f : Port → Port) : State := { s with port := f s.port }

def State.team (s : State) (h : Nat) : Option Team := s.teams.find? (fun t => t.handle == h)
def State.modTeam (s : State) (h : Nat) (f : Team → Team) : State :=
  { s with teams := s.teams.map (fun t => if t.handle == h then f t else t) }

def State.kernel (s : State) (n : Nat) : Option Kernel := s.kernels.find? (fun k => k.ticket == n)
def State.modKernel (s : State) (n : Nat) (f : Kernel → Kernel) : State :=
  { s with kernels := s.kernels.map (fun k => if k.ticket == n then f k else k) }

/-- This device's identifier (R383); 0 until DEVIDSET gives one. -/
def State.ownDev (s : State) : Nat := (s.port.devid.map BitVec.toNat).getD 0

/-- A fresh number for a store, request or record. -/
def State.fresh (s : State) : Nat × State := (s.nextId, { s with nextId := s.nextId + 1 })

/-- The next value that the spec leaves open (log entry 8). -/
def State.free (s : State) : BitVec 64 × State :=
  (Config.freeWord s.freeCtr, { s with freeCtr := s.freeCtr + 1 })

/-- Fields of a core identifier (R4): stack, Y, X; and the cluster that holds the core (R5). -/
def coreStack (c : Nat) : Nat := c / 1024 % 4
def coreY (c : Nat) : Nat := c / 32 % 32
def coreX (c : Nat) : Nat := c % 32
def coreOf (stack y x : Nat) : Nat := stack * 1024 + y * 32 + x
def clusterOf (c : Nat) : Nat := coreStack c * 8 + coreY c / 8 * 2 + coreX c / 16
/-- The lowest-numbered core of a cluster. -/
def clusterLow (k : Nat) : Nat := coreOf (k / 8) (k % 8 / 2 * 8) (k % 2 * 16)

/-! ### Links (R382, R398)

Links 0 to 3 join the stacks; link 4 is the host link, and link 5 + p is fabric port p (DESIGN CHOICE, log entry 41). -/

/-- The links that a route crosses: 0 to 3 are CS0-CS1, CS0-CS2, CS1-CS3 and CS2-CS3. -/
def linksOf (a b : Nat) : List Nat :=
  match a, b with
  | 0, 1 => [0] | 1, 0 => [0] | 0, 2 => [1] | 2, 0 => [1] | 1, 3 => [2] | 3, 1 => [2] | 2, 3 => [3] | 3, 2 => [3]
  | 0, 3 => [0, 2] | 3, 0 => [3, 1] | 1, 2 => [0, 1] | 2, 1 => [3, 2]
  | _, _ => []

/-- Whether a link carries traffic: it does not while it retrains or is tested (R382, R398). -/
def State.linkUp (s : State) (l : Nat) : Bool := !s.port.linksDown.contains l && !s.port.tests.any (fun t => t.kind == 4 && t.num == l)

/-- Whether every link of the route between two stacks carries traffic. -/
def State.stacksJoined (s : State) (a b : Nat) : Bool := (linksOf a b).all s.linkUp

/-- Whether the fabric port of another device carries traffic. -/
def State.fabricUp (s : State) (dev : Nat) : Bool := s.linkUp (5 + Config.fabricPort dev % 36)

/-- Whether the route between a firing's slot and its actor's carries traffic: it is the same core unless the firing has migrated. -/
def State.homeJoined (s : State) (c k : Nat) : Bool :=
  match (s.slot c k).guest with | none => true | some h => s.stacksJoined (coreStack c) (coreStack h.1)

/-! ### Teams (R216-R224) -/

def Team.size (t : Team) : Nat := t.w * t.h * t.s

/-- The core of member m at a placement (R220). -/
def Team.coreAt (t : Team) (p : Place) (m : Nat) : Nat :=
  let plane := t.w * t.h
  coreOf (lget 0 p.planes (m / plane)) (p.y + m % plane / t.w) (p.x + m % t.w)

/-- The core of member m now, if the team is placed (R222). -/
def Team.coreOfMember (t : Team) (m : Nat) : Option Nat :=
  if m < t.size then t.place.map (fun p => t.coreAt p m) else none

/-- The member that lives on core c, if any. -/
def Team.memberAt (t : Team) (c : Nat) : Option Nat :=
  (List.range t.size).find? (fun m => t.coreOfMember m == some c)

/-- Whether member m's slot k belongs to entry e: the entry is valid, names m, and the team uses slot k (R218). -/
def Team.inGroup (t : Team) (e m k : Nat) : Bool :=
  let g := lget {} t.gaz e
  e < t.ngroup && g.valid && g.members.contains m && g.slots.getLsbD k && (lget none t.tmpls k).isSome

/-- The member slots of entry e that are not retired, as (member, slot). -/
def Team.groupSlots (t : Team) (e : Nat) : List (Nat × Nat) :=
  ((lget {} t.gaz e).members.flatMap (fun m => (List.range 4).map (fun k => (m, k)))).filter
    (fun x => t.inGroup e x.1 x.2 && !t.retired.contains x)

/-- The team of the actor in a slot. -/
def State.teamOf (s : State) (c k : Nat) : Option Team :=
  match (s.slot c k).ident with
  | some i => s.team i.team
  | none => none

/-- The protection domain of a slot: its team's (R198); 0 where no actor is. -/
def State.domainOf (s : State) (c k : Nat) : Nat :=
  match s.teamOf c k with
  | some t => t.domain
  | none => 0

/-! ### The monad of an instruction's body -/

/-- How an attempt ends without completing: it stalls with nothing changed; it stalls having asked for what it waits for,
its operands unread; it has issued and holds its slot in a state already arranged (a request sent, a wait begun); or it
raises a precise fault with nothing changed (R42). -/
inductive Stop where
  | stall (w : Wait)
  | ask (f : State → State)
  | hold (s : State)
  | trap (c : Cause) (xval : BitVec 64)

abbrev M := StateT State (Except Stop)

def getS : M State := fun s => .ok (s, s)
def modS (f : State → State) : M Unit := fun s => .ok ((), f s)
def stallOn {α : Type} (w : Wait) : M α := fun _ => .error (.stall w)
def askFor {α : Type} (f : State → State) : M α := fun _ => .error (.ask f)
def holdIn {α : Type} (s : State) : M α := fun _ => .error (.hold s)
def raise {α : Type} (c : Cause) (x : BitVec 64) : M α := fun _ => .error (.trap c x)

/-- The next open value, as a step of a body (log entry 8). -/
def freeM : M (BitVec 64) := fun s => .ok s.free

/-- What an instruction does with the program counter when it has completed. -/
inductive Flow where
  | next                      -- the following instruction
  | jump (target : BitVec 64)
  | ended                     -- the firing, kernel thread or slot is gone

def State.prof (s : State) : Profile :=
  match s.cur with
  | .slot _ _ => .core | .svc _ => .deep

/-- The core and slot that issue; meaningful for a core's agent. -/
def State.at_ (s : State) : Nat × Nat :=
  match s.cur with
  | .slot c k => (c, k) | .svc _ => (0, 0)

def State.thread (s : State) : Thread :=
  match s.cur with
  | .slot c k => (s.slot c k).thr
  | .svc n => (s.svc n).thr

def State.modThread (s : State) (f : Thread → Thread) : State :=
  match s.cur with
  | .slot c k => s.modSlot c k (fun x => { x with thr := f x.thr })
  | .svc n => s.modSvc n (fun x => { x with thr := f x.thr })

/-- The issuing slot (R19). -/
def curSlot : M Slot := fun s => .ok (s.slot s.at_.1 s.at_.2, s)
def modCurSlot (f : Slot → Slot) : M Unit := modS (fun s => s.modSlot s.at_.1 s.at_.2 f)
def modRegs (f : SlotRegs → SlotRegs) : M Unit := modCurSlot (fun x => { x with regs := f x.regs })
def curCore : M Core := fun s => .ok (s.core s.at_.1, s)
def modCurCore (f : Core → Core) : M Unit := modS (fun s => s.modCore s.at_.1 f)
def curThread : M Thread := fun s => .ok (s.thread, s)
def curDomain : M Nat := fun s => .ok (s.domainOf s.at_.1 s.at_.2, s)
def curTeam : M (Option Team) := fun s => .ok (s.teamOf s.at_.1 s.at_.2, s)

/-! ### Registers (R18, R19, R24, R25) -/

def Thread.getX (t : Thread) (n : Nat) : BitVec 64 := if n = 0 then 0 else vget 0 t.x n
def Thread.setX (t : Thread) (n : Nat) (v : BitVec 64) : Thread :=
  if n = 0 then t else { t with x := vput t.x n v }
def Thread.getP (t : Thread) (n : Nat) : BitVec 32 := if n = 0 then BitVec.allOnes 32 else vget 0 t.p n
def Thread.setP (t : Thread) (n : Nat) (v : BitVec 32) : Thread :=
  if n = 0 then t else { t with p := vput t.p n v }

/-- The x registers that a load writes. -/
def LoadDst.regsX : LoadDst → List Nat
  | .x n _ => [n] | .xx n m _ => [n, m] | .lgx n => [n]
  | .qq d e _ => (match d with | .reg n => [n.val] | _ => []) ++ (match e with | .reg n => [n.val] | _ => [])
  | _ => []

/-- Whether a load in flight writes x register n. -/
def LoadDst.coversX (d : LoadDst) (n : Nat) : Bool := d.regsX.contains n

/-- Whether a load in flight writes v register n. -/
def LoadDst.coversV (d : LoadDst) (n : Nat) : Bool :=
  match d with
  | .v m => m == n
  | .lanes m _ _ _ => m == n
  | _ => false

/-- The poison key of x register n and of v register n. -/
def poisonKeyX (n : Nat) : Nat := n
def poisonKeyV (n : Nat) : Nat := 32 + n
/-- The key of p register n, where an SVC's register file holds an error. -/
def poisonKeyP (n : Nat) : Nat := 64 + n

def Slot.poisonAt (sl : Slot) (key : Nat) : Option (BitVec 64) :=
  (sl.poisonX.find? (fun e => e.1 == key)).map Prod.snd
def Slot.clearPoison (sl : Slot) (key : Nat) : Slot :=
  { sl with poisonX := sl.poisonX.filter (fun e => e.1 != key) }

/-- The address by which a unit of register files names register `key` of unit i (log entry 12). -/
def regAddress (i key : Nat) : BitVec 64 := BitVec.ofNat 64 (0xFF * 2 ^ 56 + 128 * i + key)

/-- A register of an SVC is written: an error that it held is gone. -/
def State.cleanReg (s : State) (i key : Nat) : State :=
  if s.poison.isEmpty then s else { s with poison := s.poison.filter (· != .reg i key) }

/-- Read x register n: it stalls while a load owes it a value (R18), and a register whose load carried an uncorrectable
error raises MACHINECHECK with the load's address (R332). -/
def rdX (n : Nat) : M (BitVec 64) := fun s =>
  match s.cur with
  | .svc i =>
    if s.poison.contains (.reg i (poisonKeyX n)) then .error (.trap .machinecheck (regAddress i (poisonKeyX n)))
    else .ok (s.thread.getX n, s)
  | .slot c k =>
    let sl := s.slot c k
    if n = 0 then .ok (0, s)
    else if sl.owed.any (fun o => o.dst.coversX n) then .error (.stall .remoteReply)
    else match sl.poisonAt (poisonKeyX n) with
      | some a => .error (.trap .machinecheck a)
      | none => .ok (s.thread.getX n, s)

/-- Write x register n, discarded for x0 (R19). -/
def wrX (n : Nat) (v : BitVec 64) : M Unit := fun s =>
  match s.cur with
  | .svc i => .ok ((), (s.cleanReg i (poisonKeyX n)).modThread (·.setX n v))
  | .slot c k =>
    if n != 0 && (s.slot c k).owed.any (fun o => o.dst.coversX n) then .error (.stall .remoteReply)
    else .ok ((), s.modSlot c k (fun x => { x.clearPoison (poisonKeyX n) with thr := x.thr.setX n v }))

/-- The uncorrectable error that the agent's register file holds in p register n; p0 is a constant. -/
def State.maskError (s : State) (n : Nat) : Option (BitVec 64) :=
  if n = 0 then none
  else match s.cur with
    | .svc i => if s.poison.contains (.reg i (poisonKeyP n)) then some (regAddress i (poisonKeyP n)) else none
    | .slot c k => (s.slot c k).poisonAt (poisonKeyP n)

/-- Read p register n: an error that it holds raises MACHINECHECK (R332). -/
def rdP (n : Nat) : M (BitVec 32) := fun s =>
  match s.maskError n with
  | some a => .error (.trap .machinecheck a)
  | none => .ok (s.thread.getP n, s)

def wrP (n : Nat) (v : BitVec 32) : M Unit := fun s =>
  match s.cur with
  | .svc i => .ok ((), (s.cleanReg i (poisonKeyP n)).modThread (·.setP n v))
  | .slot c k => .ok ((), s.modSlot c k (fun x => { x.clearPoison (poisonKeyP n) with thr := x.thr.setP n v }))

/-- Whether v register n is gated (R25). -/
def SlotRegs.gated (r : SlotRegs) (n : Nat) : Bool := r.vuseN.toNat < n / 8

/-- Read a vector register as a number: v (256 bits) on a core, w (1,024 bits) on an SVC. -/
def rdV (n : Nat) : M Nat := fun s =>
  match s.cur with
  | .svc i =>
    if s.poison.contains (.reg i (poisonKeyV n)) then .error (.trap .machinecheck (regAddress i (poisonKeyV n)))
    else .ok ((vget 0 (s.svc i).w n).toNat, s)
  | .slot c k =>
    let sl := s.slot c k
    if sl.regs.gated n then .error (.stall (.vwake (n / 8)))
    else if sl.owed.any (fun o => o.dst.coversV n) then .error (.stall .remoteReply)
    else match sl.poisonAt (poisonKeyV n) with
      | some a => .error (.trap .machinecheck a)
      | none => .ok ((vget 0 sl.v n).toNat, s)

/-- Write a vector register; on a core LIVEV records it (R24). -/
def Slot.setV (sl : Slot) (n : Nat) (v : BitVec 256) : Slot :=
  { sl.clearPoison (poisonKeyV n) with
    v := vput sl.v n v, regs := { sl.regs with livev := sl.regs.livev ||| (1 <<< n) } }

def wrV (n : Nat) (v : Nat) : M Unit := fun s =>
  match s.cur with
  | .svc i => .ok ((), (s.cleanReg i (poisonKeyV n)).modSvc i (fun x => { x with w := vput x.w n (BitVec.ofNat 1024 v) }))
  | .slot c k =>
    let sl := s.slot c k
    if sl.regs.gated n then .error (.stall (.vwake (n / 8)))
    else if sl.owed.any (fun o => o.dst.coversV n) then .error (.stall .remoteReply)
    else .ok ((), s.modSlot c k (·.setV n (BitVec.ofNat 256 v)))

/-! ### Local queues (R20, R214) -/

def queueCap : Nat := 16

def Core.queue (c : Core) (q : Nat) : List (BitVec 256) := vget [] c.queues q
def Core.setQueue (c : Core) (q : Nat) (l : List (BitVec 256)) : Core := { c with queues := vput c.queues q l }

/-- Whether the issuing firing runs in a guest slot (R251). -/
def State.isGuest (s : State) : Bool :=
  match s.cur with
  | .slot c k => (s.slot c k).guest.isSome
  | .svc _ => false

/-- What R253 lists first migrates back: at a guest the slot waits for MIGRATE_BACK. -/
def homeOnly : M Unit := fun s => if s.isGuest then .error (.stall .away) else .ok ((), s)

/-- The cause that ERRC names (R302). -/
def errCause (errc : Nat) : Option Cause := match errc with | 1 => some .rights | 2 => some .page | 3 => some .bankop | 4 => some .align | _ => none

/-- The fault that a pop of an empty queue raises after the record that fed it, or its index record, has stopped on a failing
element, while QERR stands (R301): the one that the record's ERRC names now, at its STRERR; none where ERRC names none, and the pop
waits (log entry 54). -/
def Core.queueFault (c : Core) (q : Nat) : Option (Cause × BitVec 64) :=
  if !c.qerr.getLsbD q then none
  else match c.qfault.find? (fun x => x.1 == q) with
    | none => none
    | some x =>
      let r := vget {} c.streams x.2
      (errCause r.errc.toNat).map (fun cause => (cause, r.strerr))

/-- Move the marks of loads with errors along a queue whose head has moved. -/
def Core.shiftBad (c : Core) (q : Nat) (f : Nat → Nat) : Core :=
  { c with qbad := c.qbad.map (fun x => if x.1 == q then (q, f x.2.1, x.2.2) else x) }

/-- A load for a queue whose reply carries an uncorrectable error pushes no entry: a mark stands in its place, and the pop that
reaches it raises MACHINECHECK (R332). -/
def Core.markBad (c : Core) (q : Nat) (a : BitVec 64) : Core :=
  { c with qbad := c.qbad ++ [(q, (c.queue q).length, a)] }

/-- The mark goes with the MACHINECHECK that it raised (DESIGN CHOICE, log entry 47: it is no entry, and "the first
instruction" of R332 is the one that raised it). -/
def Core.dropBad (c : Core) (a : BitVec 64) : Core :=
  match c.qbad.findIdx? (fun x => x.2.1 == 0 && x.2.2 == a) with
  | some i => { c with qbad := ldel c.qbad i }
  | none => c

def popQueue (q : Nat) : M (BitVec 256) := fun s =>
  let c := s.at_.1
  if s.isGuest then .error (.stall .away)
  else match (s.core c).qbad.find? (fun x => x.1 == q && x.2.1 == 0) with
  | some x => .error (.trap .machinecheck x.2.2)
  | none =>
    match (s.core c).queue q with
    | [] =>
      match (s.core c).queueFault q with
      | some (cause, v) => .error (.trap cause v)
      | none => .error (.stall (.queue q))
    | e :: r => .ok (e, s.modCore c (fun x => (x.setQueue q r).shiftBad q (· - 1)))

/-- The queues a load's destination pushes into (R20). -/
def LoadDst.queues : LoadDst → List Nat
  | .q r _ => [r] | .vq r => [r] | .lanesq r _ _ => [r] | .lgq r => [r]
  | .qq d e _ => (match d with | .queue r => [r.val] | _ => []) ++ (match e with | .queue r => [r.val] | _ => [])
  | _ => []

/-- Whether an instruction of the core that has issued is still to push into a queue: a later push waits, so that pushes stand
in the order of issue (R18). -/
def Core.owesPush (c : Core) (q : Nat) : Bool :=
  c.slots.toList.any (fun sl => sl.owed.any (fun o => o.dst.queues.contains q) ||
    (match sl.pend with | some (.atomic _ (.queue r) _ _) => r.val == q | _ => false))

/-- What an instruction that holds its slot popped at its issue. -/
def Pend.popped : Pend → Popped
  | .atomic _ _ _ u => u | .bank _ _ _ _ _ u => u | .load _ _ u => u
  | _ => {}

/-- The places of a queue that instructions in progress have popped and may still put back (R20). -/
def Core.reserved (c : Core) (q : Nat) : Nat :=
  sumNat (c.slots.toList.flatMap (fun sl =>
    ((sl.pend.map Pend.popped).getD {}).queues.map (fun e => if e.1 == q then e.2.length else 0)))

/-- The entries that a queue can still take. -/
def Core.room (c : Core) (q : Nat) : Nat := queueCap - ((c.queue q).length + c.reserved q)

def pushQueue (q : Nat) (e : BitVec 256) : M Unit := fun s =>
  let c := s.at_.1
  let l := (s.core c).queue q
  if s.isGuest then .error (.stall .away)
  else if (s.core c).room q == 0 then .error (.stall (.queue q))
  else if (s.core c).owesPush q then .error (.stall .remoteReply)
  else .ok ((), s.modCore c (·.setQueue q (l ++ [e])))

/-! ### Mailboxes (R187-R190) -/

def bankBytes : Nat := 0x2000

/-- The index of a sub-queue's first entry (R135). -/
def Bank.subBase (b : Bank) (i : Nat) : Nat := sumNat (b.depths.take i)
def Bank.count (b : Bank) (i : Nat) : Nat := lget 0 b.counts i
def Bank.depth (b : Bank) (i : Nat) : Nat := lget 0 b.depths i
def Bank.head (b : Bank) (i : Nat) : Nat := lget 0 b.heads i
/-- The entry index of the j-th live entry of sub-queue i. -/
def Bank.entryIx (b : Bank) (i j : Nat) : Nat := b.subBase i + (b.head i + j) % max 1 (b.depth i)

/-- Drop n entries from the head of sub-queue i. -/
def Bank.dropHead (b : Bank) (i n : Nat) : Bank :=
  { b with
    heads := lput b.heads i ((b.head i + n) % max 1 (b.depth i)),
    counts := lput b.counts i (b.count i - n),
    hdrs := lput b.hdrs i ((lget [] b.hdrs i).drop n) }

/-- The places of a sub-queue that instructions in progress have popped and may still put back (R20). -/
def Core.reservedChan (c : Core) (mb i : Nat) : Nat :=
  sumNat (c.slots.toList.flatMap (fun sl =>
    if sl.act.mbox.toNat != mb then [] else
    ((sl.pend.map Pend.popped).getD {}).chans.map (fun e => if e.1 == i then e.2.length else 0)))

/-- Put entries whose header words are given back at the head of sub-queue i, where their bytes still stand. -/
def Bank.putHead (b : Bank) (i : Nat) (hs : List (BitVec 64)) : Bank :=
  { b with
    heads := lput b.heads i ((b.head i + b.depth i - hs.length) % max 1 (b.depth i)),
    counts := lput b.counts i (b.count i + hs.length),
    hdrs := lput b.hdrs i (hs ++ lget [] b.hdrs i) }

/-- What a core's queues, and the channels of the mailbox in a bank, lost between two moments. -/
def Core.lost (before after : Core) (mb : Nat) : Popped :=
  { queues := (List.range 8).filterMap (fun q =>
      let n := (before.queue q).length - (after.queue q).length
      if n == 0 then none else some (q, (before.queue q).take n))
    chans := (List.range 16).filterMap (fun i =>
      let n := (before.bank mb).count i - (after.bank mb).count i
      if n == 0 then none else some (i, (List.range n).map (lget 0 (lget [] (before.bank mb).hdrs i)))) }

/-- Undo what an instruction popped (R20, R42). -/
def Core.unpop (c : Core) (mb : Nat) (u : Popped) : Core :=
  let c1 := u.queues.foldl (fun x e => (x.setQueue e.1 (e.2 ++ x.queue e.1)).shiftBad e.1 (· + e.2.length)) c
  c1.setBank mb (u.chans.foldl (fun b e => b.putHead e.1 e.2) (c1.bank mb))

/-- A slot's instruction in progress ends in a precise fault: what it popped stands again at the heads (R20, R42). -/
def State.unpop (s : State) (c k : Nat) : State :=
  match (s.slot c k).pend with
  | none => s
  | some p =>
    let mb := (s.slot c k).act.mbox.toNat
    (s.modSlot c k (fun x => { x with pend := none })).modCore c (·.unpop mb p.popped)

/-- The home slot of the firing that runs in a slot: itself, or the actor's slot of a migrated firing (R251). -/
def State.homeOf (s : State) (c k : Nat) : Nat × Nat := ((s.slot c k).guest).getD (c, k)

/-- Pop the head entry of channel i of the running actor's mailbox (R190). -/
def popChannel (i : Nat) : M (BitVec 256) := fun s =>
  let c := s.at_.1
  let mb := (s.slot c s.at_.2).act.mbox.toNat
  let b := s.bank c mb
  if s.isGuest then .error (.stall .away)
  else if b.count i == 0 then .error (.stall (.channel i))
  else
    let off := mb * bankBytes + 32 * b.entryIx i 0
    let e := bytesBv 256 (Mem.readN (s.core c).mem off 32)
    if s.poison.any (fun p => p == .bank c (off / 64)) then .error (.trap .machinecheck (BitVec.ofNat 64 (0xFC * 2 ^ 56 + off)))
    else .ok (e, s.modBank c mb (·.dropHead i 1))

/-! ### Device records, events to masters, and the trace funnel (R348, R387, R394, R400) -/

/-- The master that MSG and ERROR events go to: the owner, or host link endpoint 0 (R394). -/
def Port.eventMaster (p : Port) : Nat := (p.own.owner.map Prod.fst).getD 0

def Port.master (p : Port) (m : Nat) : Master := aget {} p.masters m
def Port.modMaster (p : Port) (m : Nat) (f : Master → Master) : Port :=
  { p with masters := aput p.masters m (f (p.master m)) }

/-- The last n elements of a list. -/
def lastN {α : Type} (n : Nat) (l : List α) : List α := l.drop (l.length - n)

/-- Send an event to a master: numbered in its series, kept in its replay ring of 1,024, and put on its link while the
master is connected (R387, R394). -/
def Port.send (p : Port) (m evt : Nat) (cseq : BitVec 32) (status : Nat) (b0 b1 : BitVec 64) (payload : List Byte) : Port :=
  p.modMaster m (fun x =>
    let e : Event := { seq := x.evseq + 1, evt, cseq, status, master := m, b0, b1, payload }
    { x with evseq := x.evseq + 1, ring := lastN 1024 (x.ring ++ [e]),
             link := if x.connected then x.link ++ [e] else x.link })

/-- The 32 bytes of an error record (R400). -/
def ErrRec.bytes (r : ErrRec) : List Byte :=
  bvBytes 8 r.count ++ bvBytes 2 r.unit ++
    [BitVec.ofNat 8 r.kind, BitVec.ofNat 8 r.cls, BitVec.ofNat 8 r.action, 0, 0, 0] ++ bvBytes 8 r.addr ++ bvBytes 8 r.stores

/-- Record an error: kept in the ring of 256 and sent to the owner as an ERROR event (R400). -/
def State.recordError (s : State) (unit : BitVec 16) (kind cls action : Nat) (addr stores : BitVec 64) : State :=
  s.modPort (fun p =>
    let r : ErrRec := { count := p.count, unit, kind, cls, action, addr, stores }
    { p with errors := lastN 256 (p.errors ++ [r]) }.send p.eventMaster 6 0 0 0 0 r.bytes)

/-- The 32 bytes of a trace record (R348). -/
def TraceRec.bytes (r : TraceRec) : List Byte :=
  bvBytes 6 r.seq ++ [0, BitVec.ofNat 8 r.type] ++ bvBytes 6 r.a ++ bvBytes 2 r.unit ++ bvBytes 8 r.cycle ++ bvBytes 8 r.b

/-- Send one event to the trace funnel if its type is enabled (R348, R393 TRACESET): to the trace lanes, or to the next place
of the ring in HBM. One that finds the buffer full is dropped and counted. -/
def State.trace (s : State) (type : Nat) (unit : BitVec 16) (cycle : BitVec 64) (a : BitVec 48) (b : BitVec 64) : State :=
  let f := s.port.funnel
  let r : TraceRec := { type, seq := f.seq, unit, a, cycle, b }
  if !f.enable.getLsbD type then s
  else if f.full then { s with port := { s.port with funnel := { f with dropped := f.dropped + 1 } } }
  else if f.toRing then
    { s with
      hbm := Mem.writeN s.hbm (f.base.toNat + 32 * f.pos % 2 ^ f.logSize) r.bytes
      port := { s.port with funnel := { f with seq := f.seq + 1, pos := f.pos + 1 } } }
  else { s with port := { s.port with funnel := { f with seq := f.seq + 1, recs := f.recs ++ [r] } } }

def State.traceCore (s : State) (c type : Nat) (a : BitVec 48) (b : BitVec 64) : State :=
  s.trace type (BitVec.ofNat 16 c) (s.core c).cyc a b
def State.traceCluster (s : State) (k type : Nat) (a : BitVec 48) (b : BitVec 64) : State :=
  s.trace type (BitVec.ofNat 16 (0x2000 + k)) (s.core (clusterLow k)).cyc a b
def State.traceMeridian (s : State) (type : Nat) (a : BitVec 48) (b : BitVec 64) : State :=
  s.trace type 0x3000 s.port.count a b

/-- The funnel's buffer fills or empties: its size is not stated, so when it does is open (log entry 23). With room again, a DROP
event carries the count of the events dropped (R348, R349); its UNIT and CYCLE are not stated (log entry 8). -/
def State.setFunnel (s : State) (full : Bool) : State :=
  let s1 := s.modPort (fun p => { p with funnel := { p.funnel with full } })
  let n := s1.port.funnel.dropped
  if full || n == 0 || !s1.port.funnel.enable.getLsbD 0x0F then s1
  else
    let (u, s2) := s1.free
    let (y, s3) := s2.free
    (s3.trace 0x0F (u.setWidth 16) y (BitVec.ofNat 48 n) 0).modPort (fun p => { p with funnel := { p.funnel with dropped := 0 } })

/-! ### Taking a trap and returning from one (R26, R327-R335) -/

/-- The code of a cause (R27). -/
def Cause.code : Cause → Nat
  | .none => 0 | .illegal => 1 | .boundary => 2 | .align => 3 | .rights => 4 | .page => 5 | .storefault => 6
  | .bankop => 7 | .bankst => 8 | .format => 9 | .rate => 10 | .qstall => 11 | .brk => 12 | .watch => 13
  | .domain => 14 | .machinecheck => 15 | .trap => 16

/-- XCAUSE for a cause: IMPRECISE in bit 8 for STOREFAULT (R26). -/
def Cause.word (c : Cause) : BitVec 9 := BitVec.ofNat 9 (c.code + (if c == .storefault then 256 else 0))

/-- Whether a firing owns the slot. Keeper code that handles a firing's trap still finds the firing there (R26). -/
def Slot.inFiring (sl : Slot) : Bool := sl.firing.isSome

/-- Whether STOREFAULT is pending: the SFRQ holds a record that arrived after the slot last took it (R339). -/
def Slot.sfPending (sl : Slot) : Bool := sl.sfReported < sl.sfrq.length

/-- The registers of R328's TakeTrap. -/
def Slot.trapTo (sl : Slot) (c : Cause) (v pc : BitVec 64) : Slot :=
  { sl with
    regs := { sl.regs with xpc := pc, xcause := c.word, xval := v, prevk := sl.km, infiring := sl.inFiring }
    km := true
    thr := { sl.thr with pc := sl.regs.kvec }
    status := .ready
    pend := none, waited := 0, badPage := none, badLine := none, noMatch := false, draining := false, leaving := false }

/-- Whether a trap raised at pc is a double fault: the instruction at KVEC in K mode (R330). -/
def Slot.doubleFault (sl : Slot) (pc : BitVec 64) : Bool := sl.km && pc == sl.regs.kvec

/-- The ids of what is still owed to a slot. -/
def Slot.owedIds (sl : Slot) : List Nat := sl.owed.map (·.rid) ++ sl.unacked.map (·.id)

/-- The context that leaves with a firing (R251): v registers without their LIVEV bit read zero at the guest. -/
def Slot.context (sl : Slot) (home : Nat × Nat) : Slot :=
  { thr := sl.thr
    v := Vector.ofFn (fun (i : Fin 32) => if sl.regs.livev.getLsbD i.val then vget 0 sl.v i.val else 0)
    regs := sl.regs, act := sl.act, ident := sl.ident, firing := sl.firing, sent := sl.sent, owed := sl.owed
    poisonX := sl.poisonX, sfrq := sl.sfrq, sfReported := sl.sfReported, ctr := sl.ctr, lasth := sl.lasth
    guest := some home, noMatch := sl.noMatch, status := .ready }

/-- A waypoint for what is still owed to slot k, forwarded to a slot elsewhere (R252). -/
def State.addWaypoint (s : State) (c k : Nat) (dest : Nat × Nat) : State :=
  let ids := (s.slot c k).owedIds
  if ids.isEmpty then s
  else s.modCore c (fun x => { x with waypoints := x.waypoints ++ [{ slot := k, guest := dest, owed := ids }] })

/-- Whether a firing can return to its actor's slot for a trap (R253): a waypoint is free or nothing is owed, and the links of its
route carry traffic (R382). -/
def State.canReturn (s : State) (c k : Nat) : Bool :=
  let sl := s.slot c k
  sl.guest.isNone || ((sl.owedIds.isEmpty || (s.core c).waypoints.length < 8) && s.homeJoined c k)

/-- A store that is still in the queue when its firing moves to a core: whether it is remote is judged from there (R23). -/
def StoreReq.fromCore (r : StoreReq) (dev core : Nat) : StoreReq :=
  { r with
    waiting := false, failed := false
    counted := match r.chk with
      | .ok t kind => !(t.dev == dev && t.core == core) && (kind != .uo || r.leg.isSome)
      | _ => r.counted }

/-- The actor's slot, on a core of a device, takes its firing's context back from a guest slot. Stores that wait in the
guest's queue and buffer come with it (DESIGN CHOICE, log entry 21); those already sent are marked. -/
def Slot.comeHome (home g : Slot) (dev core : Nat) : Slot :=
  { home with
    thr := g.thr, v := (g.context (0, 0)).v, regs := g.regs, firing := g.firing, sent := g.sent, owed := g.owed
    sq := g.sq.map (·.fromCore dev core), comb := g.comb
    unacked := g.unacked.map (fun u => { u with far := true })
    poisonX := g.poisonX, sfrq := g.sfrq, sfReported := g.sfReported, ctr := g.ctr, lasth := g.lasth
    noMatch := g.noMatch, status := .ready, pend := none, awayAt := none }

/-- The firing in guest slot k of core c returns to its actor's slot (R253); the guest slot is IDLE. -/
def State.returnHome (s : State) (c k : Nat) : State :=
  let g := s.slot c k
  match g.guest with
  | none => s
  | some h =>
    let fills := g.sq.filterMap (fun r => if r.chk == .pending then some (r.addr / 2 ^ 16 * 2 ^ 16, r.dom) else none)
    (((s.addWaypoint c k h).setSlot c k {}).modSlot h.1 h.2 (·.comeHome g s.ownDev h.1)).modCore h.1 (fun x =>
      { x with fills := fills.foldl (fun fs f => if fs.contains f then fs else fs ++ [f]) x.fills })

/-- A slot is asked to halt (R365): the operations in its core's matrix queue complete first. -/
def Slot.askHalt (sl : Slot) (ops : Nat) : Slot := if sl.haltReq then sl else { sl with haltReq := true, haltOps := ops }

/-- Whether a request names slot k of core c: by the actor it holds, or by its core. -/
def State.inScope (s : State) (p : Preempt) (c k : Nat) : Bool :=
  let sl := s.slot c k
  sl.ident.isSome &&
    (match p.scope with
      | 0 => sl.ident.map (·.team) == some p.arg
      | 1 => c == p.arg
      | 2 => s.domainOf c k == p.arg
      | _ => true)

def State.haltSlots (s : State) (l : List (Nat × Nat)) : State :=
  l.foldl (fun s x => s.modSlot x.1 x.2 (·.askHalt (s.core x.1).mu.queue.length)) s

/-- An actor placed while a pre-emption request names its slot halts at its boundary (R364). -/
def State.underRequest (s : State) (c k : Nat) : State :=
  if s.port.preempts.any (fun p => s.inScope p c k) then s.haltSlots [(c, k)] else s

/-- `takeTrap` for a firing that is in its actor's slot. -/
def State.trapHere (s : State) (c k : Nat) (cause : Cause) (v pc : BitVec 64) : State :=
  if (s.slot c k).doubleFault pc then
    (s.modSlot c k (fun x => { x.askHalt (s.core c).mu.queue.length with killed := true, dying := true, pend := none })).recordError
      (BitVec.ofNat 16 c) 2 2 0 (BitVec.ofNat 64 (s.domainOf c k + 4096 * k)) 0
  else s.modSlot c k (·.trapTo cause v pc)

/-- Take a trap of cause c with value v at the boundary of the instruction at pc (R328, R330). A double fault takes no
trap: the slot halts, a KEEPER record is made, and SLOT_HALT retires the actor. A firing that has migrated first returns
to its actor's slot (R253); until it can, its slot waits. -/
def State.takeTrap (s : State) (c k : Nat) (cause : Cause) (v pc : BitVec 64) : State :=
  match (s.slot c k).guest with
  | none => s.trapHere c k cause v pc
  | some h =>
    if s.canReturn c k then (s.returnHome c k).trapHere h.1 h.2 cause v pc
    else s.modSlot c k (fun x => { x with status := .stalled .away })

/-- STOREFAULT at the boundary of the instruction at pc: XVAL is the address of the oldest unreported record, and every
record now held has been reported (R331, R339). -/
def State.takeStorefault (s : State) (c k : Nat) (pc : BitVec 64) : State :=
  let sl := s.slot c k
  if !s.canReturn c k then s.modSlot c k (fun x => { x with status := .stalled .away })
  else match sl.sfrq[sl.sfReported]? with
    | none => s
    | some r =>
      let h := s.homeOf c k
      ((s.modSlot c k (fun x => { x with sfReported := x.sfrq.length })).takeTrap c k .storefault r.addr pc).traceCore h.1 0x08
        (BitVec.ofNat 48 (h.2 + 16 * r.reason)) r.addr

/-- KRET's return (R335): the mode and the counter that XSTAT and XPC hold; nothing else is restored. `nb` exempts the
target once from comparators. -/
def Slot.kret (sl : Slot) (nb : Bool) : Slot :=
  { sl with km := sl.regs.prevk, thr := { sl.thr with pc := sl.regs.xpc }, noMatch := nb }

/-! ### GATHERs in flight (R297) -/

/-- Whether a lane of a GATHER of the slot's actor is not yet performed, in its actor's core. -/
def State.gathering (s : State) (c k : Nat) (p : Gather → Target → Kind → Bool) : Bool :=
  let h := s.homeOf c k
  (s.core h.1).gathers.any (fun g => g.slot == h.2 && g.lanes.any (fun l => p g l.2.2.1 l.2.2.2))

/-! ### How an attempt is answered -/

def State.setPc (s : State) (pc : BitVec 64) : State := s.modThread (fun t => { t with pc := pc })

/-- A store whose check has not completed, or whose denial is not yet recorded, counts the instructions issued (R337). -/
def StoreReq.skid (r : StoreReq) : StoreReq :=
  match r.chk with | .ok _ _ => r | _ => { r with since := r.since + 1 }

/-- A later instruction of its SVC has issued since a SCANROW did (R311, R314). -/
def RowAccess.passedBy (r : RowAccess) : RowAccess := { r with scan := r.scan.map (fun x => { x with past := true }) }

/-- Note that the agent issued: the core's one issue of the cycle and the counts of R17, R214 and R337. -/
def State.noteIssue (s : State) : State :=
  match s.cur with
  | .slot c k =>
    (s.modCore c (fun x => { x with last := k, issued := some k })).modSlot c k (fun x =>
      { x with readyFor := 0, waited := 0, noMatch := false, badPage := none, badLine := none, draining := false,
               leaving := false, sq := x.sq.map (·.skid) })
  | .svc n => s.modSvc n (fun v => { v with rows := v.rows.map (·.passedBy) })

/-- The slot stalls on w, with nothing else changed (R16); an SVC simply tries again. -/
def State.stallCur (s : State) (w : Wait) : State :=
  match s.cur with
  | .slot c k => s.modSlot c k (fun x => { x with status := .stalled w })
  | .svc _ => s

/-- The agent's instruction has issued and holds its slot until the reply that p names (R127, R277). -/
def State.holdFor (s : State) (w : Wait) (p : Pend) : State :=
  match s.cur with
  | .slot c k => s.noteIssue.modSlot c k (fun x => { x with status := .stalled w, pend := some p })
  | .svc _ => s

/-- A precise fault of the issuing agent: a trap of a slot; on an SVC the kernel's fault (R317). -/
def State.trapCur (s : State) (cause : Cause) (v : BitVec 64) : State :=
  match s.cur with
  | .slot c k =>
    (if cause == .machinecheck && !(s.core c).qbad.isEmpty then s.noteIssue.modCore c (·.dropBad v) else s.noteIssue).takeTrap
      c k cause v s.thread.pc
  | .svc n => s.modSvc n (fun x => { x with status := .faulted cause x.thr.pc v })

/-- A control transfer: an SVC fetches its next block again (R308). -/
def State.refetch (s : State) : State :=
  match s.cur with
  | .svc n => if (s.svc n).code.isSome then s.modSvc n (fun v => { v with code := none }) else s
  | .slot _ _ => s

/-- Move past an instruction of the given length, transfer, or leave the agent as its body left it. -/
def State.advance (s : State) (len : Len) : Flow → State
  | .next => s.setPc (s.thread.pc + BitVec.ofNat 64 (lenBytes len))
  | .jump t => s.refetch.setPc t
  | .ended => s

end Sys2Proof.Machine
end

