-- ==== Sys2Proof/Machine/BankOps.lean ====
section
/-! DEFINITION. Bank personalities (R128-R154): the structures in a bank's bytes and its controller, spans, the operations
of R131, and changes of personality. Every operation here is one atomic step at its bank (R134). -/

namespace Sys2Proof.Machine

/-! ### BANKCTL (R128, R129) -/

def Bank.pers (b : Bank) : Nat := b.ctl.toNat % 8
def Bank.spix (b : Bank) : Nat := b.ctl.toNat / 2 ^ 5 % 16
def Bank.isMaster (b : Bank) : Bool := b.ctl.getLsbD 9
def Bank.isMember (b : Bank) : Bool := b.ctl.getLsbD 10
def Bank.spanned (b : Bank) : Bool := b.isMaster || b.isMember
def Bank.kind (b : Bank) : Kind := match b.ctl.toNat / 2 ^ 11 % 4 with | 0 => .so | 1 => .rc | _ => .uo
def Bank.trapst (b : Bank) : Bool := b.ctl.getLsbD 13
def ctlSubq (c : Nat) : Nat := c / 2 ^ 28 % 16
def ctlEsz (c : Nat) : Nat := if c / 2 ^ 27 % 2 == 1 then 32 else 8
def ctlCap (c : Nat) : Nat := 2 ^ (c / 2 ^ 14 % 16)
def ctlShift (c : Nat) : Nat := c / 2 ^ 26 % 64
def ctlMask (c : Nat) : Nat := c / 2 ^ 15 % 2048
def ctlEdge (c : Nat) : Nat := c / 2 ^ 14 % 2
def Bank.esz (b : Bank) : Nat := ctlEsz b.ctl.toNat
def Bank.subq (b : Bank) : Nat := ctlSubq b.ctl.toNat
def Bank.cap (b : Bank) : Nat := ctlCap b.ctl.toNat
def Bank.units (b : Bank) : Nat := bankBytes / b.esz
def setBits (v : BitVec 64) (hi lo x : Nat) : BitVec 64 :=
  BitVec.ofNat 64 (v.toNat - v.toNat / 2 ^ lo % 2 ^ (hi + 1 - lo) * 2 ^ lo + x % 2 ^ (hi + 1 - lo) * 2 ^ lo)

/-- Whether a bank is the mailbox of a slot of its core that holds an actor (R184). -/
def State.isMailbox (s : State) (c b : Nat) : Bool :=
  (List.range 4).any (fun k => let sl := s.slot c k; sl.ident.isSome && sl.guest.isNone && sl.act.mbox.toNat == b)

/-! ### Bytes of a bank -/

def State.bankWord (s : State) (c b off n : Nat) : Nat := Mem.word (s.core c).mem (b * bankBytes + off) n
def State.setBankWord (s : State) (c b off n v : Nat) : State :=
  s.modCore c (fun x => { x with mem := Mem.setWord x.mem (b * bankBytes + off) n v })
def State.wipeBank (s : State) (c b : Nat) : State :=
  s.modCore c (fun x => { x with mem := wipeRange x.mem (b * bankBytes) ((b + 1) * bankBytes) })
/-- Set every legend of a bank to 0x0000 (R61). -/
def State.wipeLegends (s : State) (c b : Nat) : State :=
  s.modCore c (fun x => { x with leg := wipeRange x.leg (b * 128) ((b + 1) * 128) })

/-! ### Members of a span (R152, R233) -/

/-- The team that holds a core. -/
def State.teamOnCore (s : State) (c : Nat) : Option Team :=
  s.teams.find? (fun t => t.st == .resident && (t.memberAt c).isSome)

/-- The (core, bank) of each member of the structure at a bank: the span's in list order, or the bank alone. -/
def State.members (s : State) (c b : Nat) : List (Nat × Nat) :=
  match (s.bank c b).span with
  | none => [(c, b)]
  | some sp =>
    match s.teamOnCore c with
    | none => [(c, b)]
    | some t => sp.members.filterMap (fun m => (t.coreOfMember m.1).map (fun x => (x, m.2)))

/-! ### QUEUE (R135) -/

def State.qCount (s : State) (m : Nat × Nat) (i : Nat) : Nat := (s.bank m.1 m.2).count i
def State.qDepth (s : State) (m : Nat × Nat) (i : Nat) : Nat := (s.bank m.1 m.2).depth i

def State.qPush (s : State) (m : Nat × Nat) (i e : Nat) : Option State :=
  let b := s.bank m.1 m.2
  if b.depth i ≤ b.count i then none
  else some ((s.setBankWord m.1 m.2 (b.esz * b.entryIx i (b.count i)) b.esz e).modBank m.1 m.2
    (fun b => { b with counts := lput b.counts i (b.count i + 1) }))

def State.qHead (s : State) (m : Nat × Nat) (i : Nat) : Option Nat :=
  let b := s.bank m.1 m.2
  if b.count i == 0 then none else some (s.bankWord m.1 m.2 (b.esz * b.entryIx i 0) b.esz)

def State.qPop (s : State) (m : Nat × Nat) (i : Nat) : Option (Nat × State) :=
  (s.qHead m i).map (fun e => (e, s.modBank m.1 m.2 (·.dropHead i 1)))

def State.spanAt (s : State) (c b : Nat) : SpanCtl := ((s.bank c b).span).getD { members := [] }
def State.setSpan (s : State) (c b : Nat) (f : SpanCtl → SpanCtl) : State :=
  s.modBank c b (fun x => { x with span := x.span.map f })

/-- A put into a QUEUE, spanned or not (R135, R153). -/
def State.queuePut (s : State) (c b i e : Nat) : Option State :=
  let ms := s.members c b
  match ms with
  | [m] => s.qPush m i e
  | _ =>
    let sp := s.spanAt c b
    match s.qPush (lget (c, b) ms sp.tail) 0 e with
    | some s' => some s'
    | none =>
      let u := (sp.tail + 1) % ms.length
      let mu := lget (c, b) ms u
      if s.qCount mu 0 == 0 then (s.qPush mu 0 e).map (fun s' => s'.setSpan c b (fun x => { x with tail := u }))
      else none

/-- A take from a QUEUE (R135, R153). -/
def State.queueTake (s : State) (c b i : Nat) : Option (Nat × State) :=
  let ms := s.members c b
  match ms with
  | [m] => s.qPop m i
  | _ =>
    let sp := s.spanAt c b
    let mh := lget (c, b) ms sp.head
    match s.qPop mh 0 with
    | none => none
    | some (e, s') =>
      if s'.qCount mh 0 == 0 && sp.head != sp.tail then
        some (e, s'.setSpan c b (fun x => { x with head := (sp.head + 1) % ms.length }))
      else some (e, s')

def State.queuePeek (s : State) (c b i : Nat) : Option Nat :=
  let ms := s.members c b
  match ms with
  | [m] => s.qHead m i
  | _ => s.qHead (lget (c, b) ms (s.spanAt c b).head) 0

/-! ### STACK (R136) -/

def State.top (s : State) (m : Nat × Nat) : Nat := (s.bank m.1 m.2).top

/-- The member that a take uses: the highest that is not empty. -/
def State.stackTop (s : State) (ms : List (Nat × Nat)) : Option (Nat × Nat) :=
  ms.reverse.find? (fun m => s.top m != 0)

/-- The member that a put uses: the first with room at or above the highest that is not empty (R153). -/
def State.stackRoom (s : State) (ms : List (Nat × Nat)) : Option (Nat × Nat) :=
  let used := ms.findIdx? (fun m => some m == s.stackTop ms)
  (ms.drop (used.getD 0)).find? (fun m => s.top m < (s.bank m.1 m.2).units)

def State.stackPut (s : State) (c b e : Nat) : Option State :=
  match s.stackRoom (s.members c b) with
  | none => none
  | some m =>
    let x := s.bank m.1 m.2
    some ((s.setBankWord m.1 m.2 (x.esz * x.top) x.esz e).modBank m.1 m.2 (fun x => { x with top := x.top + 1 }))

def State.stackPeek (s : State) (c b : Nat) : Option Nat :=
  (s.stackTop (s.members c b)).map (fun m =>
    let x := s.bank m.1 m.2
    s.bankWord m.1 m.2 (x.esz * (x.top - 1)) x.esz)

def State.stackTake (s : State) (c b : Nat) : Option (Nat × State) :=
  match s.stackTop (s.members c b) with
  | none => none
  | some m =>
    let x := s.bank m.1 m.2
    some (s.bankWord m.1 m.2 (x.esz * (x.top - 1)) x.esz, s.modBank m.1 m.2 (fun x => { x with top := x.top - 1 }))

/-! ### MAP (R137) -/

/-- Hash64 of R153: Hash before the AND. -/
def hash64 (k : Nat) : Nat := k ^^^ (k / 2 ^ 21) ^^^ (k / 2 ^ 42)

def Bank.isUsed (b : Bank) (i : Nat) : Bool := b.used.getLsbD i
def Bank.setUsed (b : Bank) (i : Nat) (v : Bool) : Bank :=
  { b with used := if v then b.used ||| (1 <<< i) else b.used &&& ~~~((1 : BitVec 512) <<< i) }
def Bank.live (b : Bank) : Nat := ((List.range b.cap).filter b.isUsed).length

/-- MapFind: the slot of a key, trying `f` slots from i. -/
def State.mapFindFrom (s : State) (m : Nat × Nat) (k : Nat) : Nat → Nat → Option Nat
  | 0, _ => none
  | f + 1, i =>
    let b := s.bank m.1 m.2
    if !b.isUsed i then none
    else if s.bankWord m.1 m.2 (16 * i) 8 == k then some i
    else s.mapFindFrom m k f ((i + 1) % b.cap)

def State.mapFind (s : State) (m : Nat × Nat) (k : Nat) : Option Nat :=
  let cap := (s.bank m.1 m.2).cap
  s.mapFindFrom m k cap (hash64 k % cap)

/-- The first free slot, trying `f` slots from i. -/
def Bank.freeFrom (b : Bank) : Nat → Nat → Option Nat
  | 0, _ => none
  | f + 1, i => if !b.isUsed i then some i else b.freeFrom f ((i + 1) % b.cap)

def State.mapValue (s : State) (m : Nat × Nat) (i : Nat) : Nat := s.bankWord m.1 m.2 (16 * i + 8) 8

/-- MapInsert: the status, the old value and the bank's state. -/
def State.mapInsert (s : State) (m : Nat × Nat) (k v : Nat) (unique : Bool) : Nat × Nat × State :=
  match s.mapFind m k with
  | some f =>
    let old := s.mapValue m f
    (4, old, if unique then s else s.setBankWord m.1 m.2 (16 * f + 8) 8 v)
  | none =>
    let b := s.bank m.1 m.2
    match b.freeFrom b.cap (hash64 k % b.cap) with
    | none => (1, 0, s)
    | some i =>
      (0, 0, ((s.setBankWord m.1 m.2 (16 * i) 8 k).setBankWord m.1 m.2 (16 * i + 8) 8 v).modBank m.1 m.2 (·.setUsed i true))

/-- The backward shift of MapRemove: the hole is i, the slot looked at last is j, `f` steps are left. -/
def State.mapShift (s : State) (m : Nat × Nat) : Nat → Nat → Nat → State
  | 0, _, _ => s
  | f + 1, i, j =>
    let b := s.bank m.1 m.2
    let cap := b.cap
    let j := (j + 1) % cap
    if !b.isUsed j then s
    else
      let k := s.bankWord m.1 m.2 (16 * j) 8
      let h := hash64 k % cap
      if (j + cap - i) % cap ≤ (j + cap - h) % cap then
        let s1 := (s.setBankWord m.1 m.2 (16 * i) 8 k).setBankWord m.1 m.2 (16 * i + 8) 8 (s.mapValue m j)
        (s1.modBank m.1 m.2 (fun b => (b.setUsed i true).setUsed j false)).mapShift m f j j
      else s.mapShift m f i j

def State.mapRemove (s : State) (m : Nat × Nat) (i : Nat) : State :=
  (s.modBank m.1 m.2 (·.setUsed i false)).mapShift m ((s.bank m.1 m.2).cap - 1) i i

/-- The member of a MAP that holds a key (R153). -/
def State.mapMember (s : State) (c b k : Nat) : Nat × Nat :=
  let ms := s.members c b
  lget (c, b) ms (hash64 k / (s.bank c b).cap % ms.length)

/-! ### HEAP (R138) -/

def State.heapItem (s : State) (c b i : Nat) : Nat × Nat := (s.bankWord c b (16 * i) 8, s.bankWord c b (16 * i + 8) 2)
def heapKey (x : Nat × Nat) : Nat := x.1 % 2 ^ 32 * 2 ^ 16 + x.2
def State.setHeapItem (s : State) (c b i : Nat) (x : Nat × Nat) : State :=
  (s.setBankWord c b (16 * i) 8 x.1).setBankWord c b (16 * i + 8) 2 x.2

def State.heapUp (s : State) (c b : Nat) : Nat → Nat → State
  | 0, _ => s
  | f + 1, i =>
    let p := s.heapItem c b ((i - 1) / 2)
    let x := s.heapItem c b i
    if i == 0 || heapKey p ≤ heapKey x then s
    else ((s.setHeapItem c b i p).setHeapItem c b ((i - 1) / 2) x).heapUp c b f ((i - 1) / 2)

def State.heapInsert (s : State) (c b e : Nat) : Option State :=
  let x := s.bank c b
  if x.cap ≤ x.hcount then none
  else some (((s.setHeapItem c b x.hcount (e, x.hseq.toNat)).modBank c b
    (fun x => { x with hseq := x.hseq + 1, hcount := x.hcount + 1 })).heapUp c b 9 x.hcount)

def State.heapDown (s : State) (c b n : Nat) : Nat → Nat → State
  | 0, _ => s
  | f + 1, i =>
    let l := 2 * i + 1
    if n ≤ l then s
    else
      let j := if l + 1 < n && heapKey (s.heapItem c b (l + 1)) < heapKey (s.heapItem c b l) then l + 1 else l
      let x := s.heapItem c b i
      let y := s.heapItem c b j
      if heapKey x ≤ heapKey y then s
      else ((s.setHeapItem c b i y).setHeapItem c b j x).heapDown c b n f j

/-- HeapPop: the entry taken; a pop that leaves the heap empty sets seq to 0. -/
def State.heapPop (s : State) (c b : Nat) : Option (Nat × State) :=
  let x := s.bank c b
  if x.hcount == 0 then none
  else
    let top := (s.heapItem c b 0).1
    let n := x.hcount - 1
    let s1 := (s.setHeapItem c b 0 (s.heapItem c b n)).modBank c b
      (fun x => { x with hcount := n, hseq := if n == 0 then 0 else x.hseq })
    some (top, s1.heapDown c b n 9 0)

/-! ### HIST (R139) -/

/-- The member and bin of span bin j: bins 0 … n(MASK + 1) - 1, then the edge bin in the last member (R153). -/
def State.binAt (s : State) (c b j : Nat) : (Nat × Nat) × Nat :=
  let ms := s.members c b
  let per := ctlMask (s.bank c b).ctl.toNat + 1
  if j < ms.length * per then (lget (c, b) ms (j / per), j % per)
  else (lget (c, b) ms (ms.length - 1), per)

/-- The number of bins, the edge bin included. -/
def State.binCount (s : State) (c b : Nat) : Nat :=
  (s.members c b).length * (ctlMask (s.bank c b).ctl.toNat + 1) + ctlEdge (s.bank c b).ctl.toNat

/-- The bin of a key, where it is in range. -/
def State.binOf (s : State) (c b k : Nat) : Option Nat :=
  let ctl := (s.bank c b).ctl.toNat
  let base := ofInt 64 (toSigned 32 (ctl / 2 ^ 32))
  let j := (k + 2 ^ 64 - base) % 2 ^ 64 / 2 ^ ctlShift ctl
  let n := (s.members c b).length * (ctlMask ctl + 1)
  if n ≤ j then (if ctlEdge ctl == 0 then none else some n) else some j

def State.binGet (s : State) (c b j : Nat) : Nat :=
  let (m, i) := s.binAt c b j
  s.bankWord m.1 m.2 (4 * i) 4
def State.binSet (s : State) (c b j v : Nat) : State :=
  let (m, i) := s.binAt c b j
  s.setBankWord m.1 m.2 (4 * i) 4 v

/-- Add n to a bin, saturating; whether it saturated. -/
def State.binAdd (s : State) (c b j n : Nat) : Bool × State :=
  let v := s.binGet c b j + n
  if 2 ^ 32 - 1 < v then (true, s.binSet c b j (2 ^ 32 - 1)) else (false, s.binSet c b j v)

/-! ### Whole structures -/

/-- Live entries of one bank alone (R151): entries, pairs or non-zero bins. -/
def State.bankLive (s : State) (c b : Nat) : Nat :=
  let x := s.bank c b
  match x.pers with
  | 1 => sumNat x.counts
  | 2 => x.top
  | 3 => x.live
  | 4 => x.hcount
  | 5 => ((List.range (ctlMask x.ctl.toNat + 1 + ctlEdge x.ctl.toNat)).filter (fun i => s.bankWord c b (4 * i) 4 != 0)).length
  | _ => 0

/-- Live entries of the structure at a bank; of sub-queue i for a QUEUE with sub-queues (R135, R147). -/
def State.liveCount (s : State) (c b i : Nat) : Nat :=
  let x := s.bank c b
  if x.pers == 1 && x.subq != 0 then x.count i
  else if x.pers == 5 then ((List.range (s.binCount c b)).filter (fun j => s.binGet c b j != 0)).length
  else sumNat ((s.members c b).map (fun m => s.bankLive m.1 m.2))

/-- Capacity of the structure (R129, R147). -/
def State.capacity (s : State) (c b i : Nat) : Nat :=
  let x := s.bank c b
  let n := (s.members c b).length
  match x.pers with
  | 1 => if x.subq != 0 then x.depth i else n * x.units
  | 2 => n * x.units
  | 3 => n * x.cap
  | 4 => x.cap
  | 5 => s.binCount c b
  | _ => 0

/-- The live entries of a bank in logical order, with their size in bytes (R151). -/
def State.entries (s : State) (c b : Nat) : Nat × List Nat :=
  let x := s.bank c b
  match x.pers with
  | 1 => (x.esz, (List.range (x.subq + 1)).flatMap (fun i =>
      (List.range (x.count i)).map (fun j => s.bankWord c b (x.esz * x.entryIx i j) x.esz)))
  | 2 => (x.esz, (List.range x.top).map (fun j => s.bankWord c b (x.esz * (x.top - 1 - j)) x.esz))
  | 3 => (16, ((List.range x.cap).filter x.isUsed).map (fun i => s.bankWord c b (16 * i) 16))
  | 4 => (8, (List.range x.hcount).map (fun i => s.bankWord c b (16 * i) 8))
  | 5 => (4, (List.range (ctlMask x.ctl.toNat + 1 + ctlEdge x.ctl.toNat)).map (fun i => s.bankWord c b (4 * i) 4))
  | _ => (1, [])

/-- An empty structure of an image in a bank: bytes zero, legends zero, the controller at rest. -/
def State.freshBank (s : State) (c b : Nat) (ctl : BitVec 64) (depths : List Nat) : State :=
  ((s.wipeBank c b).wipeLegends c b).modBank c b (fun _ =>
    { ctl, depths, heads := depths.map (fun _ => 0), counts := depths.map (fun _ => 0), hdrs := depths.map (fun _ => []) })

/-- The depths of a QUEUE image (R135): the whole bank, or the table's; none where the table breaks R135. -/
def depthsOf (ctl : Nat) (table : Nat) : Option (List Nat) :=
  let subq := ctlSubq ctl
  let units := bankBytes / ctlEsz ctl
  if subq == 0 then some [units]
  else
    let ds := (List.range 16).map (fun i => table / 2 ^ (16 * i) % 2 ^ 16)
    let used := ds.take (subq + 1)
    if used.all (fun d => d != 0) && (ds.drop (subq + 1)).all (fun d => d == 0) && sumNat used ≤ units then some used
    else none

/-- The capacity of an image, against which BPERS checks n (R150). -/
def imageCapacity (ctl : Nat) (depths : List Nat) : Nat :=
  match ctl % 8 with
  | 0 => bankBytes
  | 1 => lget 0 depths 0
  | 2 => bankBytes / ctlEsz ctl
  | 3 => ctlCap ctl
  | 4 => ctlCap ctl
  | _ => ctlMask ctl + 1 + ctlEdge ctl

/-- BPERS's checks of an image (R150), apart from those of its issuer: the depths where it is accepted. `bank` is the bank being
changed as the issuer's own window numbers it, 16 where it lies in another core. An image whose SPM, SPMS or SPIX is not 0 is
refused as the listed cases are (DESIGN CHOICE, log entry 46: R150 says only that they must be 0). -/
def imageOk (ctl n table bank : Nat) : Option (List Nat) :=
  let pers := ctl % 8
  let pcfg := ctl / 2 ^ 14 % 2 ^ 18
  let base := ctl / 2 ^ 32
  let fields :=
    match pers with
    | 0 => pcfg == 0
    | 1 => pcfg % 2 ^ 13 == 0
    | 2 => pcfg % 2 ^ 13 == 0 && pcfg / 2 ^ 14 == 0
    | 3 => pcfg / 2 ^ 4 == 0 && pcfg ≤ 9
    | 4 => pcfg / 2 ^ 4 == 0 && pcfg ≤ 9
    | 5 => !(ctlEdge ctl == 1 && ctlMask ctl == 2047)
    | _ => false
  let kind := ctl / 2 ^ 11 % 4
  let hasTable := pers == 1 && ctlSubq ctl != 0
  let tableOk := base % 32 == 0 && base + 32 ≤ 0x20000 && base / bankBytes != bank
  if ctl / 2 ^ 5 % 2 ^ 6 == 0 && fields && kind != 3 && (kind == 0 || pers == 0) &&
     (pers == 5 || hasTable || base == 0) && (!hasTable || tableOk) then
    let ds := if pers == 1 then depthsOf ctl table else some []
    ds.bind (fun d => if n ≤ imageCapacity ctl d then some d else none)
  else none

/-- The change of one bank to an accepted image (R151): D out and the state. -/
def State.persChange (s : State) (c b : Nat) (ctl : BitVec 64) (depths : List Nat) (n : Nat) : Nat × State :=
  let x := s.bank c b
  let ctl := setBits ctl 4 3 0
  let (esz, es) := s.entries c b
  let live := s.bankLive c b
  let new := ctl.toNat % 8
  let nesz := ctlEsz ctl.toNat
  let s0 := s.freshBank c b ctl depths
  let mem0 := (s.core c).mem
  let unit (i : Nat) : Nat := Mem.word mem0 (b * bankBytes + nesz * i) nesz
  let keep (s : State) : State := s.modCore c (fun y => { y with mem := mem0 })
  match x.pers, new with
  | 0, 0 => (0, keep s0)
  | 0, 1 => (n, ((List.range n).foldl (fun s i => s.setBankWord c b (nesz * i) nesz (unit i)) s0).modBank c b
      (fun y => { y with counts := lput y.counts 0 n, hdrs := lput y.hdrs 0 (List.replicate n 0) }))
  | 0, 2 => (n, ((List.range n).foldl (fun s i => s.setBankWord c b (nesz * (n - 1 - i)) nesz (unit i)) s0).modBank c b
      (fun y => { y with top := n }))
  | 0, _ => (0, s0)
  | _, 0 => (es.length, (es.foldl (fun (a : Nat × State) e => (a.1 + esz, a.2.setBankWord c b a.1 esz e)) (0, s0)).2)
  | p, 5 => if p == 1 || p == 2 then
      es.foldl (fun a e => match a.2.binOf c b (e % 2 ^ 64) with
        | none => (a.1 + 1, a.2) | some j => (a.1, (a.2.binAdd c b j 1).2)) (0, s0)
    else (live, s0)
  | p, 3 => if p == 1 || p == 2 then
      es.foldl (fun a e => let (st, _, s') := a.2.mapInsert (c, b) (e % 2 ^ 64) 0 true
        (if st == 0 then a.1 else a.1 + 1, s')) (0, s0)
    else (live, s0)
  | p, 4 => if p == 1 || p == 2 then
      es.foldl (fun a e => match a.2.heapInsert c b (e % 2 ^ 64) with
        | none => (a.1 + 1, a.2) | some s' => (a.1, s')) (0, s0)
    else (live, s0)
  | _, _ => (live, s0)

/-! ### Data with errors that an operation reads (R332) -/

/-- Bytes of a bank whose blocks hold an uncorrectable error. -/
def State.bankBad (s : State) (m : Nat × Nat) (off n : Nat) : Bool :=
  !s.poison.isEmpty && (List.range n).any (fun j => s.poison.contains (.bank m.1 ((m.2 * bankBytes + off + j) / 64)))

/-- The slots of a MAP that a search for a key reads: from its hash to the first that is free. -/
def Bank.probed (b : Bank) (h : Nat) : List Nat :=
  let run := (List.range b.cap).map (fun i => (h + i) % b.cap)
  run.take ((run.findIdx? (fun i => !b.isUsed i)).getD b.cap)

/-- Whether the first `count` entries that a take or peek reads hold an error: of a QUEUE or STACK those entries, of a HEAP every
live entry, which its comparisons may read (DESIGN CHOICE, log entry 12). -/
def State.takeBad (s : State) (c b i count : Nat) : Bool :=
  let x := s.bank c b
  let ms := s.members c b
  match x.pers with
  | 1 =>
    let m := match ms with | [m] => m | _ => lget (c, b) ms (s.spanAt c b).head
    let y := s.bank m.1 m.2
    (List.range (min count (y.count i))).any (fun j => s.bankBad m (y.esz * y.entryIx i j) y.esz)
  | 2 => (s.stackTop ms).any (fun m =>
      let y := s.bank m.1 m.2
      (List.range (min count y.top)).any (fun j => s.bankBad m (y.esz * (y.top - 1 - j)) y.esz))
  | 4 => s.bankBad (c, b) 0 (16 * x.hcount)
  | _ => false

/-- Whether a bin holds an error. -/
def State.binBad (s : State) (c b j : Nat) : Bool :=
  let (m, i) := s.binAt c b j
  s.bankBad m (4 * i) 4

/-- Whether the values that a plain store puts into a bank meet an error there: the bins that it adds to, a HEAP's entries. -/
def State.putBad (s : State) (c b n : Nat) (vs : List Nat) : Bool :=
  match (s.bank c b).pers with
  | 4 => s.takeBad c b 0 1
  | 5 => vs.any (fun v => (s.binOf c b (v % 2 ^ (8 * n))).any (s.binBad c b))
  | _ => false

/-! ### Bank operations (R131, R147) -/

/-- A bank operation as it reaches its bank. -/
structure BankReq where
  core : Nat
  bank : Nat
  off : Nat           -- within the bank
  code : Nat
  addr : BitVec 64
  din : BitVec 64 := 0
  bv : BitVec 64 := 0
  wide : Bool := false      -- .v
  vdata : Nat := 0          -- the 32 bytes of .v, or BPERS's depth table
  detach : Bool := false
  km : Bool := false        -- issued by the keeper
  own : Bool := true        -- issued by an actor of the bank's core
  deriving DecidableEq, Repr

/-- Its result: status, D out (or D unchanged), the 32 bytes of .v, a saturation, and BLATCH's latches. -/
structure BankRes where
  status : Nat := 0
  d : BitVec 64 := 0
  keepD : Bool := false
  v : Nat := 0
  sat : Bool := false
  latch : List (BitVec 64) := []
  deriving DecidableEq, Repr

/-- The sub-queue that an operation addresses (R135), whatever SUBQ (DEDUCED, log entry 15). -/
def subOf (x : Bank) (off : Nat) : Nat := if x.pers == 1 then off / 0x200 else 0

/-- Put one entry into a QUEUE, STACK or HEAP. -/
def State.put (s : State) (c b i e : Nat) : Option State :=
  match (s.bank c b).pers with
  | 1 => s.queuePut c b i e
  | 2 => s.stackPut c b e
  | 4 => s.heapInsert c b e
  | _ => none

/-- Take one entry from a QUEUE, STACK or HEAP. -/
def State.take (s : State) (c b i : Nat) : Option (Nat × State) :=
  match (s.bank c b).pers with
  | 1 => s.queueTake c b i
  | 2 => s.stackTake c b
  | 4 => s.heapPop c b
  | _ => none

def State.peek (s : State) (c b i : Nat) : Option Nat :=
  match (s.bank c b).pers with
  | 1 => s.queuePeek c b i
  | 2 => s.stackPeek c b
  | 4 => if (s.bank c b).hcount == 0 then none else some (s.heapItem c b 0).1
  | _ => none

/-- Empty every member of the structure; its count of entries discarded. BCLR on HIST zeroes the bins (R147). -/
def State.clearAll (s : State) (c b i : Nat) : Nat × State :=
  let x := s.bank c b
  let live := s.liveCount c b i
  if x.pers == 1 && x.subq != 0 then
    (live, s.modBank c b (fun y => y.dropHead i (y.count i)))
  else if x.pers == 5 then (live, (List.range (s.binCount c b)).foldl (fun s j => s.binSet c b j 0) s)
  else
    let s1 := (s.members c b).foldl (fun s m =>
      s.modBank m.1 m.2 (fun y =>
        { y with heads := y.heads.map (fun _ => 0), counts := y.counts.map (fun _ => 0), hdrs := y.hdrs.map (fun _ => []),
                 top := 0, used := 0, hcount := 0, hseq := 0 })) s
    (live, s1.setSpan c b (fun x => { x with head := 0, tail := 0 }))

/-- The BSTAT word (R148). -/
def State.bstatWord (s : State) (c b i : Nat) : BitVec 64 :=
  let x := s.bank c b
  let past := x.pers == 1 && x.subq < i
  let one := x.isMember
  let capacity := if x.pers == 1 && x.subq != 0 then x.units
    else if one then (match x.pers with
      | 0 => 0 | 1 => x.units | 2 => x.units | 5 => ctlMask x.ctl.toNat + 1 + ctlEdge x.ctl.toNat | _ => x.cap)
    else s.capacity c b i
  let count := if past then 0 else if one then s.bankLive c b else s.liveCount c b i
  let aux := match x.pers with
    | 1 => if past then 0 else if x.subq != 0 then x.depth i else capacity
    | 4 => x.hseq.toNat
    | _ => 0
  BitVec.ofNat 64 (capacity % 2 ^ 16 * 2 ^ 48 + count % 2 ^ 16 * 2 ^ 32 + aux % 2 ^ 16 * 2 ^ 16 +
    x.ctl.toNat / 2 ^ 4 % 2 ^ 10 * 2 ^ 3 + x.pers)

/-- BLATCH (R149): COUNT and OFFS of eight bins from j, with base d. -/
def State.latches (s : State) (c b j d : Nat) : List (BitVec 64) × Nat × Bool :=
  let n := s.binCount c b
  let r := (List.range 8).foldl (fun (a : List (BitVec 64) × Nat × Bool) k =>
    let v := if j + k < n then s.binGet c b (j + k) else 0
    let past := 2 ^ 32 - 1 < a.2.1
    (a.1 ++ [BitVec.ofNat 64 ((if past then 2 ^ 32 - 1 else a.2.1) * 2 ^ 32 + v)], a.2.1 + v, a.2.2 || past)) ([], d, false)
  r

/-- Put each member's list position in its SPIX, and keep the master's list; a list of one is no span (R154). -/
def State.respan (s : State) (c b : Nat) (list : List (Nat × Nat)) (cores : List (Nat × Nat)) : State :=
  match cores with
  | [_] => s.modBank c b (fun x => { x with span := none, ctl := setBits (setBits x.ctl 10 9 0) 8 5 0 })
  | _ =>
    let s1 := (cores.zipIdx).foldl (fun s e => s.modBank e.1.1 e.1.2 (fun x => { x with ctl := setBits x.ctl 8 5 e.2 })) s
    s1.setSpan c b (fun x => { x with members := list })

/-- The master of a spanned member: its core and bank. -/
def State.masterOf (s : State) (c b : Nat) : Option (Nat × Nat) :=
  match (s.bank c b).master, s.teamOnCore c with
  | some m, some t => (t.coreOfMember m.1).map (fun x => (x, m.2))
  | _, _ => none

/-- BPERS with .detach on a member of a QUEUE or STACK span (R154). -/
def State.detach (s : State) (q : BankReq) (depths : List Nat) : Option (Nat × State) :=
  match s.masterOf q.core q.bank with
  | none => none
  | some (mc, mb) =>
    let sp := s.spanAt mc mb
    let ms := s.members mc mb
    match ms.findIdx? (fun m => m == (q.core, q.bank)) with
    | none => none
    | some ix =>
      let n := ms.length - 1
      let next := if n == 0 then 0 else ix % n
      let prev := if n == 0 then 0 else (ix + n - 1) % n
      let shift (j : Nat) : Nat := if ix < j then j - 1 else j
      let head := if sp.head == ix then next else shift sp.head
      let tail := if sp.tail == ix then (if sp.head == ix then next else prev) else shift sp.tail
      let s1 := s.modBank q.core q.bank (fun x => { x with ctl := setBits (setBits x.ctl 10 9 0) 8 5 0, master := none })
      let (d, s2) := s1.persChange q.core q.bank q.bv depths q.din.toNat
      let s3 := s2.setSpan mc mb (fun x => { x with head, tail })
      some (d, s3.respan mc mb (ldel sp.members ix) (ldel ms ix))

/-- BPERS (R150-R154). Dissolving a span also sets the legends of the members that become empty ARRAY banks to 0x0000 (DESIGN
CHOICE, log entry 46: R61 names BPERS's own bank, R154 an empty bank). -/
def State.bpers (s : State) (q : BankReq) : Except (Cause × BitVec 64) (BankRes × State) :=
  let x := s.bank q.core q.bank
  let mbx := s.isMailbox q.core q.bank
  let ctl := q.bv.toNat
  let pers := x.pers
  match imageOk ctl q.din.toNat q.vdata (if q.own then q.bank else 16) with
  | none => .error (.bankop, q.addr)
  | some depths =>
    let mboxOk := ctl % 8 == 1 && ctlEsz ctl == 32 && ctlSubq ctl == 15
    if (!q.km && !q.own) || (mbx && (!q.km || !mboxOk)) || (q.detach != x.isMember) ||
       (q.detach && pers != 1 && pers != 2) then .error (.bankop, q.addr)
    else if q.detach then
      match s.detach q depths with
      | none => .error (.bankop, q.addr)
      | some (d, s') => .ok ({ d := BitVec.ofNat 64 d }, s')
    else
      let others := (s.members q.core q.bank).filter (fun m => m != (q.core, q.bank))
      let lost := sumNat (others.map (fun m => s.bankLive m.1 m.2))
      let s1 := others.foldl (fun s m => s.freshBank m.1 m.2 0 []) s
      let (d, s2) := s1.persChange q.core q.bank q.bv depths q.din.toNat
      let s3 := if mbx then (List.range 4).foldl (fun s k =>
          let sl := s.slot q.core k
          if sl.ident.isSome && sl.act.mbox.toNat == q.bank then s.modSlot q.core k (fun x => { x with refused := [], ovf := 0 })
          else s) s2 else s2
      .ok ({ d := BitVec.ofNat 64 (d + lost) }, s3)

/-- The cells of R131 that are not blank, for the instructions that act on a personality's entries. -/
def bankCell (code pers : Nat) : Bool :=
  match code, pers with
  | 0xB2, p => p == 1 || p == 2 || p == 3 || p == 4
  | 0xB3, p => p == 3
  | 0xB4, p => p == 1 || p == 2 || p == 4
  | 0xB5, p => p == 1 || p == 2 || p == 4 || p == 5
  | 0xB6, p => p == 3 || p == 4
  | 0xB7, p => p == 3
  | 0xB8, p => p == 5
  | 0xB9, p => p != 0
  | 0xBA, p => p != 0
  | 0xBB, p => p == 5
  | _, _ => true

/-- One bank operation, BSPAN apart (R131-R149). A BLATCH addressed directly to a spanned member writes 0 to D and leaves the
latches as they are (DESIGN CHOICE, log entry 46: R154 speaks of destinations, R149 of latches). -/
def State.bankOp (s : State) (q : BankReq) : Except (Cause × BitVec 64) (BankRes × State) :=
  let c := q.core
  let b := q.bank
  let x := s.bank c b
  let i := subOf x q.off
  let refuse : Except (Cause × BitVec 64) (BankRes × State) := .error (.bankop, q.addr)
  let res (r : BankRes) (s' : State) : Except (Cause × BitVec 64) (BankRes × State) := .ok (r, s')
  let st (n : Nat) : Except (Cause × BitVec 64) (BankRes × State) := .ok ({ status := n }, s)
  let key := q.bv.toNat
  if q.code == 0xBC then res { d := s.bstatWord c b i } s
  else if q.code == 0xB0 then s.bpers q
  else if x.isMember then st 3
  else if s.isMailbox c b || !bankCell q.code x.pers then refuse
  else
    let seq := x.pers == 1 || x.pers == 2
    let wideBank := seq && x.esz == 32
    let valueOp := q.code == 0xB2 || q.code == 0xB4 || q.code == 0xB5
    if valueOp && (q.wide != wideBank) then refuse
    else if x.pers == 1 && x.subq < i then st 3
    else
    match q.code, x.pers with
    | 0xB2, 3 =>
      let (r, old, s') := s.mapInsert (s.mapMember c b key) key q.din.toNat false
      res { status := r, d := BitVec.ofNat 64 old } s'
    | 0xB3, 3 =>
      let (r, old, s') := s.mapInsert (s.mapMember c b key) key q.din.toNat true
      res { status := r, d := BitVec.ofNat 64 old } s'
    | 0xB2, p =>
      if p == 1 || p == 2 || p == 4 then
        match s.put c b i (if q.wide then q.vdata else key) with
        | none => st 1
        | some s' => res { d := BitVec.ofNat 64 (s'.liveCount c b i) } s'
      else refuse
    | 0xB4, p =>
      if p == 1 || p == 2 || p == 4 then
        match s.take c b i with
        | none => st 2
        | some (e, s') => res { d := BitVec.ofNat 64 e, v := e } s'
      else refuse
    | 0xB5, 5 =>
      match s.binOf c b key with
      | none => st 3
      | some j => res { d := BitVec.ofNat 64 (s.binGet c b j) } s
    | 0xB5, p =>
      if p == 1 || p == 2 || p == 4 then
        match s.peek c b i with
        | none => st 2
        | some e => res { d := BitVec.ofNat 64 e, v := e } s
      else refuse
    | 0xB6, 3 =>
      let m := s.mapMember c b key
      match s.mapFind m key with
      | none => st 3
      | some f => res { d := BitVec.ofNat 64 (s.mapValue m f) } (s.mapRemove m f)
    | 0xB6, 4 =>
      match s.heapPop c b with
      | none => st 2
      | some (e, s') => res { d := BitVec.ofNat 64 e } s'
    | 0xB7, 3 =>
      let m := s.mapMember c b key
      match s.mapFind m key with
      | none => st 3
      | some f => res { d := BitVec.ofNat 64 (s.mapValue m f) } s
    | 0xB8, 5 =>
      match s.binOf c b key with
      | none => st 3
      | some j =>
        let (sat, s') := s.binAdd c b j q.din.toNat
        res { d := BitVec.ofNat 64 (s'.binGet c b j), sat } s'
    | 0xB9, 5 =>
      let total := sumNat ((List.range (s.binCount c b)).map (fun j => s.binGet c b j))
      res { status := if total == 0 then 2 else 0, d := BitVec.ofNat 64 total } s
    | 0xB9, 0 => refuse
    | 0xB9, _ =>
      let n := s.liveCount c b i
      res { status := if n == 0 then 2 else if n == s.capacity c b i then 1 else 0, d := BitVec.ofNat 64 n } s
    | 0xBA, 0 => refuse
    | 0xBA, _ =>
      let (n, s') := s.clearAll c b i
      res { d := BitVec.ofNat 64 n } s'
    | 0xBB, 5 =>
      if s.binCount c b ≤ key then
        res { status := 3, keepD := true, latch := List.replicate 8 0 } s
      else
        let (l, sum, sat) := s.latches c b key q.din.toNat
        res { d := BitVec.ofNat 64 sum, latch := l, sat } s
    | _, _ => refuse

/-- Whether an entry or unit that a BPERS carries into the new personality holds an error (R151). -/
def State.carriedBad (s : State) (q : BankReq) : Bool :=
  let x := s.bank q.core q.bank
  let new := q.bv.toNat % 8
  let bad := s.bankBad (q.core, q.bank)
  let re := new == 0 || 3 ≤ new
  match x.pers with
  | 0 => (new == 1 || new == 2) && bad 0 (min bankBytes (ctlEsz q.bv.toNat * q.din.toNat))
  | 1 => re && (List.range (x.subq + 1)).any (fun i => (List.range (x.count i)).any (fun j => bad (x.esz * x.entryIx i j) x.esz))
  | 2 => re && bad 0 (x.esz * x.top)
  | 3 => new == 0 && ((List.range x.cap).filter x.isUsed).any (fun i => bad (16 * i) 16)
  | 4 => new == 0 && bad 0 (16 * x.hcount)
  | _ => new == 0 && bad 0 (4 * (ctlMask x.ctl.toNat + 1 + ctlEdge x.ctl.toNat))

/-- Whether an operation reads data with an uncorrectable error: the entries that it takes, compares, searches or counts, or that a
BPERS carries over (DESIGN CHOICE, log entry 12: R332 speaks of data that the instruction consumes). -/
def State.bankReadsBad (s : State) (q : BankReq) : Bool :=
  let c := q.core
  let b := q.bank
  let x := s.bank c b
  let bins (js : List Nat) : Bool := js.any (s.binBad c b)
  if s.poison.isEmpty || (x.isMember && q.code != 0xB0) then false
  else match q.code, x.pers with
  | 0xB0, _ => s.carriedBad q
  | 0xB2, 4 => s.takeBad c b 0 1
  | 0xB9, 5 => bins (List.range (s.binCount c b))
  | 0xBB, 5 => bins ((List.range 8).map (q.bv.toNat + ·) |>.filter (· < s.binCount c b))
  | 0xB9, _ => false
  | 0xBA, _ => false
  | 0xB2, 1 => false
  | 0xB2, 2 => false
  | _, 3 =>
    let m := s.mapMember c b q.bv.toNat
    let y := s.bank m.1 m.2
    (y.probed (hash64 q.bv.toNat % y.cap)).any (fun i => s.bankBad m (16 * i) 16)
  | _, 5 => (s.binOf c b q.bv.toNat).any (s.binBad c b)
  | _, _ => s.takeBad c b (subOf x q.off) 1

/-- A bank operation: one that reads data with an uncorrectable error has no effect, and its instruction raises MACHINECHECK (R332). -/
def State.bankPerform (s : State) (q : BankReq) : Except (Cause × BitVec 64) (BankRes × State) :=
  match s.bankOp q with
  | .ok r => if s.bankReadsBad q then .error (.machinecheck, q.addr) else .ok r
  | .error e => .error e

/-! ### Plain accesses to personality banks (R140, R141) -/

/-- A plain load of an n-byte item, or of two (LDP): the values, BST, and the state. `n` is 32 for VLD. -/
def State.plainTake (s : State) (c b off n count : Nat) (addr : BitVec 64) :
    Except (Cause × BitVec 64) (List Nat × Nat × State) :=
  let x := s.bank c b
  let i := subOf x off
  let zero := List.replicate count 0
  if x.isMember then .ok (zero, 3, s)
  else if s.isMailbox c b || x.pers == 0 || x.pers == 3 || x.pers == 5 || 5 < x.pers then .error (.bankop, addr)
  else if n == 32 && !((x.pers == 1 || x.pers == 2) && x.esz == 32) then .error (.bankop, addr)
  else if x.pers == 1 && x.subq < i then .ok (zero, 3, s)
  else
    let empty : Except (Cause × BitVec 64) (List Nat × Nat × State) :=
      if x.trapst then .error (.bankst, addr) else .ok (zero, 2, s)
    match s.take c b i with
    | none => empty
    | some (e, s1) =>
      if count == 1 then .ok ([e % 2 ^ (8 * n)], 0, s1)
      else match s1.take c b i with
        | none => empty
        | some (f, s2) => .ok ([e % 2 ^ (8 * n), f % 2 ^ (8 * n)], 0, s2)

/-- A plain store of items: BST, a saturation, and the state. An STP to a HIST bank with one key out of range adds neither and
answers ABSENT (DESIGN CHOICE, log entry 46: R140 states the case of too little room only). -/
def State.plainPut (s : State) (c b off n : Nat) (vs : List Nat) (addr : BitVec 64) :
    Except (Cause × BitVec 64) (Nat × Bool × State) :=
  let x := s.bank c b
  let i := subOf x off
  if x.isMember then .ok (3, false, s)
  else if s.isMailbox c b || x.pers == 0 || x.pers == 3 || 5 < x.pers then .error (.bankop, addr)
  else if n == 32 && !((x.pers == 1 || x.pers == 2) && x.esz == 32) then .error (.bankop, addr)
  else if x.pers == 1 && x.subq < i then .ok (3, false, s)
  else if x.pers == 5 then
    let js := vs.map (fun v => s.binOf c b (v % 2 ^ (8 * n)))
    if js.any Option.isNone then .ok (3, false, s)
    else .ok (js.foldl (fun a j => match j with
      | none => a
      | some j => let (sat, s') := a.2.2.binAdd c b j 1; (0, a.2.1 || sat, s')) (0, false, s))
  else
    match vs.foldl (fun (a : Option State) v => a.bind (fun s => s.put c b i (v % 2 ^ (8 * n)))) (some s) with
    | some s' => .ok (0, false, s')
    | none => if x.trapst then .error (.bankst, addr) else .ok (1, false, s)

end Sys2Proof.Machine
end

