-- ==== Sys2Proof/Machine/Flags.lean ====
section
/-! DEFINITION. FPCTL (R21): its word, the flags instructions OR into it (R64, R76), and the rounding mode. -/

namespace Sys2Proof.Machine

/-- FPCTL as a word. -/
def Thread.fpctl (t : Thread) : BitVec 64 := BitVec.ofNat 64 (t.rm.toNat + 16 * t.flags.toNat)

/-- A write of FPCTL (R21): none when RM would be 5, 6 or 7; reserved bits are ignored. -/
def Thread.setFpctl (t : Thread) (v : BitVec 64) : Option Thread :=
  if 5 ≤ v.toNat % 8 then none
  else some { t with rm := BitVec.ofNat 3 v.toNat, flags := BitVec.ofNat 7 (v.toNat / 16) }

/-- Instructions only ever set flags (R21). -/
def Thread.orFlags (t : Thread) (f : Flags) : Thread := { t with flags := t.flags ||| f }

/-- OR an instruction's set fl into FPCTL (R76). -/
def setFlags (f : Flags) : M Unit := modS (fun s => s.modThread (·.orFlags f))

/-- The rounding mode at issue (R63). -/
def roundMode : M Nat := fun s => .ok (s.thread.rm.toNat, s)

end Sys2Proof.Machine
end

