-- ==== Sys2Proof/Machine/Operands.lean ====
section
/-! DEFINITION. Every operand form (R20, R40-R43, R101-R103): sources, destinations, immediates, guards and lanes; and
how an instruction with its checks is run. -/

namespace Sys2Proof.Machine

/-- ImmValue (R40) for the classes other than scalar FP. -/
def immValue (o : Op) : BitVec 64 :=
  match o.len with
  | .w64 => signExtend64 18 o.i18.toNat
  | .w96 => signExtend64 32 o.ext.toNat
  | .w128 => o.ext

/-- ImmValue (R40) for scalar FP: raw bits. -/
def immRaw (o : Op) : BitVec 64 := o.ext

/-- The signed byte offset (R39). -/
def byteOffset (o : Op) : BitVec 64 := signExtend64 18 o.i18.toNat

/-- An x source: register, channel, queue, or the immediate (R20, R41). -/
def srcX (imm : BitVec 64) : Opd → M (BitVec 64)
  | .reg n => rdX n.val
  | .chan c => do
    let e ← popChannel c.val
    pure (e.setWidth 64)
  | .queue q => do
    let e ← popQueue q.val
    pure (e.setWidth 64)
  | _ => pure imm

/-- A p source (R84): bytes 0-3 of an entry; bits [31:0] of an immediate. -/
def srcP (imm : BitVec 64) : Opd → M (BitVec 32)
  | .reg n => rdP n.val
  | .chan c => do
    let e ← popChannel c.val
    pure (e.setWidth 32)
  | .queue q => do
    let e ← popQueue q.val
    pure (e.setWidth 32)
  | _ => pure (imm.setWidth 32)

/-- n copies of the low w bits of v, as one number. -/
def repLanes (w v : Nat) : Nat → Nat
  | 0 => 0
  | n + 1 => v % 2 ^ w + 2 ^ w * repLanes w v n

/-- A v source of lane width w (R103): a register, an entry, or the immediate copied into every lane. -/
def srcV (w : Nat) (imm : BitVec 64) : Opd → M Nat
  | .reg n => rdV n.val
  | .chan c => do
    let e ← popChannel c.val
    pure e.toNat
  | .queue q => do
    let e ← popQueue q.val
    pure e.toNat
  | _ => fun s => .ok (repLanes w imm.toNat (vWidth s.prof / w), s)

/-- An x destination: a register, or an entry with bytes 0-7 filled (R20). -/
def dstX (d : Opd) (v : BitVec 64) : M Unit :=
  match d with
  | .reg n => wrX n.val v
  | .queue q => pushQueue q.val (v.setWidth 256)
  | _ => pure ()

/-- An x destination of an instruction whose chapter lists no QSTALL: it waits for room without that limit (DEDUCED, log entry 52:
R179, R231, R236, R323, R351 and R377 list the only faults, and R333 adds no QSTALL to them). -/
def dstRoom (d : Opd) (v : BitVec 64) : M Unit := fun s =>
  match dstX d v s with
  | .error (.stall (.queue q)) => .error (.stall (.room q))
  | r => r

/-- A p destination (R84). -/
def dstP (d : Opd) (v : BitVec 32) : M Unit :=
  match d with
  | .reg n => wrP n.val v
  | .queue q => pushQueue q.val (v.setWidth 256)
  | _ => pure ()

/-- A v destination. -/
def dstV (d : Opd) (v : Nat) : M Unit :=
  match d with
  | .reg n => wrV n.val v
  | .queue q => pushQueue q.val (BitVec.ofNat 256 v)
  | _ => pure ()

/-- The old contents of a v destination, which a masked write keeps; zero for a queue entry (R102). -/
def oldV (d : Opd) : M Nat :=
  match d with
  | .reg n => rdV n.val
  | _ => pure 0

def regNum : Opd → Nat
  | .reg n => n.val
  | _ => 0

/-- A register-only x operand. -/
def rdReg (o : Opd) : M (BitVec 64) := rdX (regNum o)

/-! ### Guards and lanes (R15, R43, R101, R102) -/

/-- Bit 0 of the guard, as a scalar instruction tests it. -/
def Thread.guardBit (t : Thread) (o : Op) : Bool := xor ((t.getP o.p.toNat).getLsbD 0) o.pn

/-- G(i, L). -/
def guardIx (i l : Nat) : Nat := if l ≤ 32 then i else i * 32 / l

/-- The enabled lanes of L. -/
def Thread.laneMask (t : Thread) (o : Op) (l : Nat) : List Bool :=
  let p := t.getP o.p.toNat
  (List.range l).map (fun i => xor (p.getLsbD (guardIx i l)) o.pn)

def laneMaskM (o : Op) (l : Nat) : M (List Bool) := fun s => .ok (s.thread.laneMask o l, s)
def guardM (o : Op) : M Bool := fun s => .ok (s.thread.guardBit o, s)

/-- The n lanes of width w of v, lane 0 first. -/
def lanes (w v : Nat) : Nat → List Nat
  | 0 => []
  | n + 1 => v % 2 ^ w :: lanes w (v / 2 ^ w) n

/-- Lanes put together, lane 0 lowest. -/
def packLanes (w : Nat) : List Nat → Nat
  | [] => 0
  | l :: ls => l % 2 ^ w + 2 ^ w * packLanes w ls

/-- New lanes where enabled, old ones elsewhere. -/
def mergeLanes : List Bool → List Nat → List Nat → List Nat
  | true :: ms, n :: ns, _ :: os => n :: mergeLanes ms ns os
  | false :: ms, _ :: ns, o :: os => o :: mergeLanes ms ns os
  | _, _, _ => []

/-- Write the enabled lanes of a v destination. -/
def dstLanes (d : Opd) (w : Nat) (mask : List Bool) (new : List Nat) : M Unit := do
  if mask.all id then dstV d (packLanes w new)
  else
    let old ← oldV d
    dstV d (packLanes w (mergeLanes mask new (lanes w old mask.length)))

/-! ### Running an instruction (R42, R46) -/

/-- Whether an opcode may run in the agent's profile and mode (R46). -/
def State.allowed (s : State) (r : Row) : Bool :=
  match s.cur with
  | .slot c k => r.core && (!r.kOnly || (s.slot c k).km)
  | .svc _ => r.deep

/-- The answer of an attempt. -/
def State.conclude (s : State) (len : Len) : Except Stop (Flow × State) → State
  | .ok (fl, s') => s'.noteIssue.advance len fl
  | .error (.stall w) => s.stallCur w
  | .error (.ask f) => f s
  | .error (.hold s') => s'
  | .error (.trap c v) => s.trapCur c v

/-- Whether the slot may issue no further instruction until a store's rights check completes (R337). -/
def State.skidFull (s : State) : Bool :=
  match s.cur with
  | .slot c k => (s.slot c k).sq.any (fun r => (match r.chk with | .ok _ _ => false | _ => true) && 65 ≤ r.since)
  | .svc _ => false

/-- Run a vector instruction, whose guard acts per lane: an opcode not allowed here raises ILLEGAL with word 0, and an
error in the guard register MACHINECHECK (R332). -/
def runLanes (code : Nat) (o : Op) (body : M Flow) (s : State) : Host.Outcome State Fault Refusal :=
  match rowOf code with
  | none => .next (s.trapCur .illegal (packWord0 code o))
  | some r =>
    if !s.allowed r then .next (s.trapCur .illegal (packWord0 code o))
    else if s.skidFull then .next (s.stallCur .storeQueue)
    else match s.maskError o.p.toNat with
      | some a => .next (s.trapCur .machinecheck a)
      | none => .next (s.conclude o.len (body s))

/-- Run a scalar instruction: as `runLanes`, and a false guard issues with no effect (R15, R43). -/
def runScalar (code : Nat) (o : Op) (body : M Flow) (s : State) : Host.Outcome State Fault Refusal :=
  runLanes code o (fun t => if t.thread.guardBit o then body t else .ok (.next, t)) s

/-- The target check of a control transfer (R35). -/
def jumpTo (t : BitVec 64) : M Flow :=
  if t.toNat % 4 == 0 then pure (.jump t) else raise .align t

end Sys2Proof.Machine
end

