-- ==== Sys2Proof/Machine/Phys.lean ====
section
/-! DEFINITION. Memory below the registers: physical memory, the tables and their walks, the PLB, homes, the L1s, the
L2 slices and their translations (R243-R258, R352-R358). -/

namespace Sys2Proof.Machine

/-- Whether a device identifier names this device or another of the scale-up domain, which it can only once its own
identifier is set (R383). -/
def State.deviceOk (s : State) (d : Nat) : Bool := d == s.ownDev || (s.port.devid.isSome && Config.devicePresent d)

/-- Whether a device has been declared lost and not reinstated (R385). -/
def State.isLost (s : State) (d : Nat) : Bool := s.port.lostDevs.contains d

/-! ### Bytes of lines -/

def bvByte {w : Nat} (d : BitVec w) (i : Nat) : Byte := (d >>> (8 * i)).setWidth 8
def bvSetByte {w : Nat} (d : BitVec w) (i : Nat) (b : Byte) : BitVec w :=
  (d &&& ~~~((0xFF : BitVec w) <<< (8 * i))) ||| (b.setWidth w <<< (8 * i))
def bvReadN {w : Nat} (d : BitVec w) (i : Nat) : Nat → List Byte
  | 0 => []
  | n + 1 => bvByte d i :: bvReadN d (i + 1) n

/-- Write the bytes that are present from index i; the second result has bit j set for each byte j written. -/
def bvWriteMasked {w m : Nat} (d : BitVec w) (dirty : BitVec m) (i : Nat) : List (Option Byte) → BitVec w × BitVec m
  | [] => (d, dirty)
  | none :: bs => bvWriteMasked d dirty (i + 1) bs
  | some b :: bs => bvWriteMasked (bvSetByte d i b) (dirty ||| (1 <<< i)) (i + 1) bs

def line64 (a : Nat) : Nat := a / 64 * 64
def line256 (a : Nat) : Nat := a / 256 * 256

/-! ### Physical memory as the tables see it (R358) -/

/-- An L2 line with the dirty bytes and legends that L1s hold of it (R255). -/
def State.l1Of (s : State) (va : Nat) : Option (Nat × L1Line) :=
  s.cores.findSome? (fun e => (e.2.l1.find? (fun l => l.line == va)).map (fun l => (e.1, l)))

/-- One byte of physical memory: from a cached line of that frame, else from HBM. -/
def State.physByte (s : State) (pa : Nat) : Byte :=
  match s.l2.find? (fun l => l.pa == line256 pa) with
  | none => Mem.read s.hbm pa
  | some l =>
    let va := l.line + pa % 256 / 64 * 64
    match s.l1Of va with
    | some (_, x) => if x.dirty.getLsbD (pa % 64) then bvByte x.data (pa % 64) else bvByte l.data (pa % 256)
    | none => bvByte l.data (pa % 256)

def State.physWord (s : State) (pa : Nat) : Nat :=
  bytesToNat ((List.range 8).map (fun i => s.physByte (pa + i)))

/-! ### Walks (R353-R358) -/

def bitsOf (v hi lo : Nat) : Nat := v / 2 ^ lo % 2 ^ (hi + 1 - lo)

/-- A table entry at an index: its word, when V is set. -/
def State.tableEntry (s : State) (table ix : Nat) : Option Nat :=
  let w := s.physWord (table + 8 * ix)
  if bitsOf w 63 63 == 1 then some w else none

/-- A pointer entry (R355): the address of a table aligned to `al`. -/
def pointerOf (w al : Nat) : Option Nat :=
  if bitsOf w 62 61 == 0 && bitsOf w 60 39 == 0 && bitsOf w 11 0 == 0 then
    let p := bitsOf w 38 12 * 4096
    if p % al == 0 then some p else none
  else none

/-- The walk of R355 from a level-1 table: the leaf and its level. -/
def State.walk (s : State) (root a : Nat) : Option (Nat × Nat) := do
  let e1 ← s.tableEntry root (bitsOf a 55 46)
  let t2 ← pointerOf e1 8192
  let e2 ← s.tableEntry t2 (bitsOf a 45 36)
  let t3 ← pointerOf e2 16384
  let e3 ← s.tableEntry t3 (bitsOf a 35 25)
  if bitsOf e3 62 61 == 1 then some (e3, 3)
  else
    let t4 ← pointerOf e3 4096
    let e4 ← s.tableEntry t4 (bitsOf a 24 16)
    if bitsOf e4 62 61 == 1 then some (e4, 4) else none

/-- What a page-table walk gives (R356, R358). -/
inductive XlatResult where
  | pa (pa : Nat) (big : Bool)
  | moving
  | fail
  deriving DecidableEq, Repr

def State.walkPage (s : State) (a : Nat) : XlatResult :=
  match s.walk (s.ptroot.toNat * 8192) a with
  | none => .fail
  | some (w, lvl) =>
    if bitsOf w 59 39 != 0 || bitsOf w 15 0 != 0 || (lvl == 3 && bitsOf w 24 16 != 0) then .fail
    else if bitsOf w 60 60 == 1 then .moving
    else if lvl == 3 then .pa (bitsOf w 38 25 * 2 ^ 25 + a % 2 ^ 25) true
    else .pa (bitsOf w 38 16 * 2 ^ 16 + a % 2 ^ 16) false

/-- A domain-table entry (R353): the protection root, KVEC and SENDMAP; none where it is not valid. -/
def State.domEntry (s : State) (d : Nat) : Option (Nat × BitVec 64 × Nat) :=
  let base := s.domtab.toNat * 2 ^ 18 + 64 * d
  let w0 := s.physWord base
  let kv := s.physWord (base + 8)
  let w2 := s.physWord (base + 16)
  let rest := (List.range 5).all (fun i => s.physWord (base + 24 + 8 * i) == 0)
  if bitsOf w0 63 63 == 1 && bitsOf w0 62 39 == 0 && bitsOf w0 12 0 == 0 && kv % 4 == 0 &&
     bitsOf w2 63 39 == 0 && bitsOf w2 8 0 == 0 && rest then
    some (bitsOf w0 38 13 * 8192, BitVec.ofNat 64 kv, bitsOf w2 38 9 * 512)
  else none

/-- Whether domain d may send to domain e (R353). -/
def State.maySend (s : State) (d e : Nat) : Bool :=
  d == e || d == 0 || e == 0 ||
  match s.domEntry d with
  | some (_, _, map) => map != 0 && (s.physByte (map + e / 8)).getLsbD (e % 8)
  | none => false

def kindOf (n : Nat) : Kind := match n with | 0 => .so | 1 => .rc | _ => .uo

/-- The PLB entry that a fill brings for an address and domain (R244, R357, R358); none where an entry is not valid. -/
def State.protWalk (s : State) (dom a : Nat) : Option PlbEntry := do
  let (root, _, _) ← s.domEntry dom
  let (w, lvl) ← s.walk root a
  if bitsOf w 56 55 == 3 || bitsOf w 33 0 != 0 || (bitsOf w 54 54 == 1 && bitsOf w 45 39 != 0) then none
  else
    let small := match s.walkPage a with | .pa _ big => !big | _ => true
    some { page := a / 2 ^ 16, big := lvl == 3 && !small, dom, r := bitsOf w 60 60 == 1, w := bitsOf w 59 59 == 1,
           x := bitsOf w 58 58 == 1, a := bitsOf w 57 57 == 1, kind := kindOf (bitsOf w 56 55),
           hashed := bitsOf w 54 54 == 1, hdev := bitsOf w 53 46,
           hcore := if bitsOf w 54 54 == 1 then bitsOf w 38 34 else bitsOf w 45 34 }

/-- Whether an entry covers an address (R244). -/
def PlbEntry.covers (e : PlbEntry) (dom a : Nat) : Bool :=
  e.dom == dom && (if e.big then e.page / 512 == a / 2 ^ 25 else e.page == a / 2 ^ 16)

def Core.plbFind (c : Core) (dom a : Nat) : Option PlbEntry := c.plb.find? (·.covers dom a)

/-- HomeOf (R246). -/
def PlbEntry.home (e : PlbEntry) (a : Nat) : Nat × Nat :=
  if e.hashed then
    let idx := bitsOf a 12 6 ^^^ bitsOf a 13 13
    let k := e.hcore
    (e.hdev, coreOf (k / 8 % 4) (8 * (k / 2 % 4) + idx / 16 % 8) (16 * (k % 2) + idx % 16))
  else (e.hdev, e.hcore)

/-! ### L2 slices (R254-R256) -/

/-- The exclusive-or of the twelve nibbles of a[55:8] (R254). -/
def foldNibbles (a : Nat) : Nat :=
  (List.range 12).foldl (fun x i => x ^^^ bitsOf a (11 + 4 * i) (8 + 4 * i)) 0

/-- The slice of a line homed on a core (R254). -/
def sliceOf (core a : Nat) : Nat := 16 * clusterOf core + foldNibbles a

def State.l2Find (s : State) (core a : Nat) : Option L2Line :=
  s.l2.find? (fun l => l.line == line256 a && l.slice == sliceOf core a)

def State.lineReady (s : State) (core a : Nat) : Bool := (s.l2Find core a).isSome

/-- The translation of an address that a unit holds. -/
def State.cached (s : State) (u a : Nat) : Option Xlat := s.xlat.find? (fun x => x.unit == u && x.page == a / 2 ^ 16)

/-- Translation by unit u: from its cache, else by a walk, which is cached when valid and not moving (R256, R358). A unit caches
64 KiB at a time, so that the smaller page of R357 governs every translation (log entry 50). -/
def State.translate (s : State) (u a : Nat) : XlatResult × State :=
  match s.cached u a with
  | some x => (.pa (x.pa + a % 2 ^ 16) false, s)
  | none =>
    match s.walkPage a with
    | .pa p big => (.pa p big, { s with xlat := { unit := u, page := a / 2 ^ 16, pa := p - a % 2 ^ 16 } :: s.xlat })
    | r => (r, s)

/-- Bring a line into its slice from a frame (R255), with the errors that the frame holds (R399). -/
def State.fillL2 (s : State) (core a pa : Nat) : State :=
  let base := line256 pa
  let bad := (List.range 4).filter (fun i => s.poison.contains (.frame (base + 64 * i)))
  { s with poison := s.poison.filter (fun p => !bad.any (fun i => p == .frame (base + 64 * i))) ++
             bad.map (fun i => .line (line256 a + 64 * i))
           l2 := { line := line256 a, pa := base, slice := sliceOf core a,
                   data := bytesBv 2048 (Mem.readN s.hbm base 256),
                   leg := Vector.ofFn (fun (i : Fin 4) => LegMap.read s.hbmLeg (base / 64 + i.val)) } :: s.l2 }

def State.modL2 (s : State) (core a : Nat) (f : L2Line → L2Line) : State :=
  { s with l2 := s.l2.map (fun l => if l.line == line256 a && l.slice == sliceOf core a then f l else l) }

/-! ### Class budgets (R262) and channels (R258) -/

/-- The channel of a frame address, in SVC numbering (R258). -/
def channelOf (pa : Nat) : Nat := 32 * bitsOf pa 38 36 + (bitsOf pa 12 8 ^^^ bitsOf pa 17 13)

def Channel.hasTokens (u : Channel) (cls : Nat) : Bool := 0 < vget 0 u.tokens cls

/-- Whether a request of class a goes before one of class b: a class with tokens before one without, then the lower class. -/
def Channel.before (u : Channel) (a b : Nat) : Bool :=
  if u.hasTokens a == u.hasTokens b then decide (a < b) else u.hasTokens a

/-- The place of the request that is served next among waiting classes: arrival order decides within a class. -/
def Channel.serves (u : Channel) (classes : List Nat) : Option Nat :=
  (classes.zipIdx.foldl (fun (best : Option (Nat × Nat)) x =>
    match best with
    | none => some x
    | some b => if u.before x.1 b.1 then some x else some b) none).map Prod.snd

/-- Spend a class's tokens, one for each 64 bytes; a class without tokens spends nothing. -/
def Channel.spend (u : Channel) (cls n : Nat) : Channel := { u with tokens := vput u.tokens cls (vget 0 u.tokens cls - n) }

/-- The requests that a slice has outstanding. -/
def State.misses (s : State) (slice : Nat) : List Walk := s.walks.filter (fun w => w.slice == slice)

/-- The classes of the requests that wait at a slice to be served. -/
def State.waitingAt (s : State) (slice : Nat) : List Nat := ((s.misses slice).filter (fun w => !w.moving && w.pa.isNone)).map (·.cls)

/-- Whether a slice holds back every new request of a class (R261, R262): it has 32 outstanding, or the class has no token and a
request that waits. -/
def State.sliceFull (s : State) (slice cls : Nat) : Bool :=
  32 ≤ sumNat ((s.misses slice).map (fun w => max 1 w.reqs.length)) ||
    (vget 0 (s.slice slice).tokens cls == 0 && (s.waitingAt slice).contains cls)

/-- Whether request `key` for a line is held back: it is not when its miss counts it already. -/
def State.pressed (s : State) (core a cls key : Nat) : Bool :=
  !(s.misses (sliceOf core a)).any (fun w => w.line == line256 a && w.reqs.contains key) && s.sliceFull (sliceOf core a) cls

/-- A request joins the miss of its line: it counts once, and the miss has the class that is served first. -/
def Walk.join (w : Walk) (u : Channel) (cls key : Nat) : Walk :=
  if w.reqs.contains key then w else { w with reqs := w.reqs ++ [key], cls := if u.before cls w.cls then cls else w.cls }

/-- Request `key` asks for the walk of a line (R256), unless the slice holds it back. -/
def State.askWalk (s : State) (core a cls key : Nat) : State :=
  let slice := sliceOf core a
  let same (x : Walk) : Bool := x.line == line256 a && x.slice == slice
  if s.pressed core a cls key then s
  else if s.walks.any same then { s with walks := s.walks.map (fun x => if same x then x.join (s.slice slice) cls key else x) }
  else { s with walks := s.walks ++ [{ line := line256 a, slice, cls, reqs := [key] }] }

/-- Whether the request of a class for a line that its slice holds is served now (R261, R262): nothing where the home's L1 has the
block, and else the slice accepts it and serves it before what waits there. -/
def State.hitServed (s : State) (core a cls : Nat) : Bool :=
  let slice := sliceOf core a
  (s.core core).l1.any (fun l => l.line == line64 a) ||
    (!s.sliceFull slice cls && (s.slice slice).serves (s.waitingAt slice ++ [cls]) == some (s.waitingAt slice).length)

/-! The requests of a slice that wait for a line: of a slot's instruction, of the head of its store queue, of its PREF, and of a part of a
packet's. -/

def slotKey (c k : Nat) : Nat := 4 * c + k
def headKey (c k : Nat) : Nat := 16384 + 4 * c + k
def prefKey (c k : Nat) : Nat := 32768 + 4 * c + k
def packetKey (id part : Nat) : Nat := 65536 + 256 * id + part

/-- TOKEN_REFILL's effect: new budgets come into force, RATE tokens are added up to DEPTH, and RATE.3 = 0 acts as 1. -/
def Channel.refill (u : Channel) : Channel :=
  let rate := u.newRate.getD u.rate
  let depth := u.newDepth.getD u.depth
  { u with
    rate, depth, newRate := none, newDepth := none
    tokens := Vector.ofFn (fun (c : Fin 4) =>
      let r := (vget 0 rate c.val).toNat
      min (vget 0 depth c.val).toNat (vget 0 u.tokens c.val + (if c.val == 3 then max 1 r else r))) }

/-- Whether walk n is the one its slice serves next. -/
def State.walkTurn (s : State) (n : Nat) (w : Walk) : Bool :=
  let mine := s.walks.zipIdx.filter (fun x => x.1.slice == w.slice && !x.1.moving && x.1.pa.isNone)
  match (s.slice w.slice).serves (mine.map (fun x => x.1.cls)) with
  | some i => (mine[i]?).any (fun x => x.2 == n)
  | none => false

def NormalCmd.isRead : NormalCmd → Bool | .read _ _ => true | .write _ => false

/-- Whether a channel would serve a new read of a class next; a write-back that waits, whose class no rule states, holds none up. -/
def State.channelTurn (s : State) (ch cls : Nat) : Bool :=
  let waiting := ((s.channel ch).normal.filter (·.1.isRead)).map Prod.snd
  (s.channel ch).serves (waiting ++ [cls]) == some waiting.length

/-! ### Command slots of a channel (R322) -/

/-- Read a line from its frame into a buffer, with its legends, and with the errors that the line carries. -/
def State.rowIn (s : State) (n line pa off : Nat) : State :=
  let s1 := s.modSvc n (fun v => { v with
    mem := Mem.writeN v.mem off (Mem.readN s.hbm pa 256)
    leg := (List.range 4).foldl (fun l i => LegMap.write l (off / 64 + i) (LegMap.read s.hbmLeg (pa / 64 + i))) v.leg })
  let clean := s1.poison.filter (fun p => match p with | .buffer m b => !(m == n && off / 64 ≤ b && b < off / 64 + 4) | _ => true)
  let bad := ((List.range 4).filter (fun i => s1.poison.contains (.line (line + 64 * i)) || s1.poison.contains (.frame (pa + 64 * i)))).map
    (fun i => Poison.buffer n (off / 64 + i))
  { s1 with poison := clean ++ bad }

def Svc.setHeadScan (v : Svc) (sc : Scan) : Svc :=
  { v with rows := match v.rows with | r :: rest => { r with scan := some sc } :: rest | [] => [] }

/-- Whether the channel has read all that a row access asks of it. -/
def RowAccess.through (r : RowAccess) : Bool := match r.scan with | some sc => decide (sc.lines.length ≤ sc.read) | none => r.served

/-- The deep command that waits at a channel: of the oldest row access of its SVC that is not through, where that is no SCANROW
between waves; with its place. -/
def Svc.command (v : Svc) : Option (Nat × RowAccess) :=
  match v.rows.findIdx? (fun r => !r.through) with
  | none => none
  | some i => (v.rows[i]?).bind (fun r =>
      if r.scan.all (fun sc => i == 0 && decide (sc.read < sc.wave)) then some (i, r) else none)

/-- Serve the next deep command of a channel: a row access of its SVC, or a line of a SCANROW's wave. -/
def State.serveDeep (s : State) (ch : Nat) : State :=
  let s1 := s.modChannel ch (·.spend 2 4)
  match (s.svc ch).command with
  | none => s
  | some (i, r) => match r.scan with
    | none => s1.modSvc ch (fun v => { v with rows := lput v.rows i { r with served := true } })
    | some sc =>
      let l := lget (0, 0) sc.lines sc.read
      (s1.rowIn ch l.1 l.2 (r.off + 256 * sc.read)).modSvc ch (·.setHeadScan { sc with read := sc.read + 1 })

/-- The deficits of a channel as a slot in which both sides have a command finds them. -/
def Channel.weigh (u : Channel) : Channel :=
  if decide (u.dn ≤ 0) && decide (u.dd ≤ 0) then { u with dn := u.dn + u.wn.toNat, dd := u.dd + u.wd.toNat } else u

/-- A read of the normal side that a unit makes at once, a line or an entry of a table, takes the channel's command slot when
the arbitration gives one to its side: the deep commands that go before it are served first. -/
def State.arbRead (s : State) (ch : Nat) : Nat → Option State
  | 0 => none
  | n + 1 =>
    let u := s.channel ch
    if (s.svc ch).command.isNone then some (if u.dd == 0 then s else s.modChannel ch (fun u => { u with dd := 0 }))
    else if u.wn == 0 && u.wd == 0 then some s
    else
      let u1 := u.weigh
      if u1.dn < u1.dd then ((s.modChannel ch (fun _ => { u1 with dd := u1.dd - 1 })).serveDeep ch).arbRead ch n
      else some (s.modChannel ch (fun _ => { u1 with dn := u1.dn - 1 }))

/-- The deep commands that one read may find before it: every line of the row accesses of an SVC, with the slots between. -/
def arbFuel : Nat := 4096

/-- The entries that a walk reads, as far as it goes. -/
def State.walkReads (s : State) (root a : Nat) : List Nat :=
  let next (table ix al : Nat) : Option Nat := (s.tableEntry table ix).bind (fun e => pointerOf e al)
  let (i1, i2, i3, i4) := (bitsOf a 55 46, bitsOf a 45 36, bitsOf a 35 25, bitsOf a 24 16)
  (root + 8 * i1) :: (match next root i1 8192 with
    | none => []
    | some t2 => (t2 + 8 * i2) :: (match next t2 i2 16384 with
      | none => []
      | some t3 => (t3 + 8 * i3) :: (match next t3 i3 4096 with
        | none => []
        | some t4 => [t4 + 8 * i4])))

/-- The class 3 reads of a walk for a unit of a stack (R261, R322, R358): each takes a slot and a token of its entry's channel; none
while a channel serves another request first or a link on the way is down. -/
def State.walkTokens (s : State) (stack : Nat) (pas : List Nat) : Option State :=
  pas.foldlM (fun s p =>
    if s.channelTurn (channelOf p) 3 && s.stacksJoined stack (channelOf p / 64) then
      (s.arbRead (channelOf p) arbFuel).map (·.modChannel (channelOf p) (·.spend 3 1))
    else none) s

/-- The reads of unit u's translation of an address: none where it holds the translation. -/
def State.xlatReads (s : State) (u a : Nat) : List Nat :=
  if (s.cached u a).isSome then [] else s.walkReads (s.ptroot.toNat * 8192) a

/-- The reads of a PLB fill: the domain's entry and its protection table. -/
def State.fillReads (s : State) (dom a : Nat) : List Nat :=
  (s.domtab.toNat * 2 ^ 18 + 64 * dom) :: (match s.domEntry dom with | some (root, _, _) => s.walkReads root a | none => [])

/-! ### L1s (R247, R255) -/

def Core.l1Find (c : Core) (a : Nat) : Option L1Line := c.l1.find? (fun l => l.line == line64 a)

/-- The class of a write-back at its slice or channel (DESIGN CHOICE, log entry 45: the table of R261 names none). -/
def writeBackClass : Nat := 1

/-- Write one L1 line back into its L2 line: dirty bytes under the mask, and a dirty legend (R255, R60); it moves 64 bytes (R262). -/
def State.writeBackL1 (s : State) (core : Nat) (l : L1Line) : State :=
  let sec := l.line % 256 / 64
  let s := if l.dirty == 0 && !l.legDirty then s else s.modSlice (sliceOf core l.line) (·.spend writeBackClass 1)
  s.modL2 core l.line (fun x =>
    let bytes := (List.range 64).map (fun i => if l.dirty.getLsbD i then some (bvByte l.data i) else none)
    let (d, _) := bvWriteMasked x.data (0 : BitVec 1) (64 * sec) bytes
    { x with data := d, dirty := if l.dirty == 0 then x.dirty else x.dirty ||| (1 <<< sec),
             leg := if l.legDirty then vput x.leg sec l.leg else x.leg,
             legDirty := if l.legDirty then x.legDirty ||| (1 <<< sec) else x.legDirty })

def State.dropL1 (s : State) (core a : Nat) : State :=
  s.modCore core (fun c => { c with l1 := c.l1.filter (fun l => l.line != line64 a) })

/-- The set of a line in an L1: 64 sets of 8 ways (DESIGN CHOICE, log entry 49: R2 and R247 give the ways, not the index). -/
def l1Set (a : Nat) : Nat := a / 64 % 64

/-- Bring a 64-byte line into the home's L1 from its L2 line, a request of a class that spends one token (R262); where its set is
full the oldest line of the set is written back and leaves. -/
def State.fillL1 (s : State) (core a : Nat) (cls : Nat := 1) : State :=
  match (s.core core).l1Find a with
  | some _ => s
  | none =>
    match s.l2Find core a with
    | none => s
    | some l =>
      let sec := a % 256 / 64
      let n : L1Line := { line := line64 a, data := (l.data >>> (512 * sec)).setWidth 512, leg := vget 0 l.leg sec }
      let s1 :=
        let mine := (s.core core).l1.filter (fun x => l1Set x.line == l1Set a)
        if mine.length < 8 then s
        else match mine.getLast? with
          | some o => (s.writeBackL1 core o).dropL1 core o.line
          | none => s
      (s1.modSlice (sliceOf core a) (·.spend cls 1)).modCore core (fun c => { c with l1 := n :: c.l1 })

/-- Read n bytes of one line at its home, the line being present in its slice. -/
def State.readHome (s : State) (core a n : Nat) (cls : Nat := 1) : List Byte × State :=
  let s1 := s.fillL1 core a cls
  match (s1.core core).l1Find a with
  | some l => (bvReadN l.data (a % 64) n, s1)
  | none => ([], s1)

/-- Write the bytes that are present into one line at its home. -/
def State.writeHome (s : State) (core a : Nat) (bs : List (Option Byte)) (cls : Nat := 1) : State :=
  let s1 := s.fillL1 core a cls
  s1.modCore core (fun c => { c with l1 := c.l1.map (fun l =>
    if l.line == line64 a then
      let (d, m) := bvWriteMasked l.data l.dirty (a % 64) bs
      { l with data := d, dirty := m }
    else l) })

def State.legHome (s : State) (core a : Nat) (cls : Nat := 1) : Legend × State :=
  let s1 := s.fillL1 core a cls
  (((s1.core core).l1Find a).elim 0 (·.leg), s1)

def State.setLegHome (s : State) (core a : Nat) (v : Legend) (cls : Nat := 1) : State :=
  let s1 := s.fillL1 core a cls
  s1.modCore core (fun c => { c with l1 := c.l1.map (fun l =>
    if l.line == line64 a then { l with leg := v, legDirty := true } else l) })

/-- Write the dirty sectors and legends of an L2 line to HBM (R255). The bytes count as written at once; the command stands at the
channel until its slot (R322). -/
def State.writeBackL2 (s : State) (l : L2Line) : State :=
  let n := ((List.range 4).filter (fun i => l.dirty.getLsbD i || l.legDirty.getLsbD i)).length
  let s := if n == 0 then s else s.modChannel (channelOf l.pa) (fun u => { u with normal := u.normal ++ [(.write n, writeBackClass)] })
  (List.range 4).foldl (fun s i =>
    let s1 := if l.dirty.getLsbD i then
        { s with hbm := Mem.writeN s.hbm (l.pa + 64 * i) (bvReadN l.data (64 * i) 64) } else s
    if l.legDirty.getLsbD i then
      { s1 with hbmLeg := LegMap.write s1.hbmLeg (l.pa / 64 + i) (vget 0 l.leg i) } else s1) s

/-- Whether a line's write-back can reach its channel: the links on the way carry traffic (R382). -/
def State.canWriteBack (s : State) (l : L2Line) : Bool := s.stacksJoined (l.slice / 128) (channelOf l.pa / 64)

/-- Evict an L2 line: every L1 part is written back and invalidated first (R255). -/
def State.evictL2 (s : State) (line slice : Nat) : State :=
  let parts := s.cores.flatMap (fun e =>
    if clusterOf e.1 == slice / 16 then (e.2.l1.filter (fun l => line256 l.line == line)).map (fun l => (e.1, l)) else [])
  let s1 := parts.foldl (fun s p => (s.writeBackL1 p.1 p.2).dropL1 p.1 p.2.line) s
  match s1.l2.find? (fun l => l.line == line && l.slice == slice) with
  | none => s1
  | some l =>
    (fun s => { s with l2 := s.l2.filter (fun x => !(x.line == line && x.slice == slice)) }) (s1.writeBackL2 l)

/-- Whether a packet asks for a line of a slice. -/
def Packet.wants (p : Packet) (line slice : Nat) : Bool :=
  !p.isLocal && match p.body with
    | .load _ _ a .. => line256 a == line && sliceOf p.core a == slice
    | .atomic _ _ a .. => line256 a == line && sliceOf p.core a == slice
    | .store r => line256 r.addr == line && sliceOf p.core r.addr == slice
    | _ => false

/-- Whether a load or atomic on its way needs a line: its rights and its translation were found good with the line there. -/
def State.lineNeeded (s : State) (line slice : Nat) : Bool :=
  s.net.any (fun p => p.wants line slice && !(match p.body with | .store _ => true | _ => false))

/-- The set of a line in its slice: 3 MiB are 1,024 sets of 12 ways (DESIGN CHOICE, log entry 49: R254 gives the ways, not the
index). -/
def l2Set (a : Nat) : Nat := a / 4096 % 1024

/-- Room for a line in its slice (R254): where its set is full, the oldest line of the set that nothing on its way needs is
evicted; none while every line is needed, or its write-back is held on its way. -/
def State.l2Room (s : State) (core a : Nat) : Option State :=
  let slice := sliceOf core a
  let mine := s.l2.filter (fun l => l.slice == slice && l2Set l.line == l2Set a)
  if mine.length < 12 then some s
  else (mine.reverse.find? (fun l => !s.lineNeeded l.line slice && s.canWriteBack l)).map (fun l => s.evictL2 l.line slice)

/-- Why a direct access is not performed now: denied, lost with its device (R385), or held on its way or at its slice; `walk` is
the walk that a MOVING leaf holds (R358). -/
inductive Denied where
  | rights | page | lost | moving (walk : Option Walk) | guard
  deriving DecidableEq, Repr

/-- Whether the access fails, rather than waits. -/
def Denied.fails : Denied → Bool
  | .rights => true | .page => true | .lost => true | _ => false

/-- The trap that a denied access of an instruction raises; none while it waits. -/
def Denied.cause : Denied → Option Cause
  | .rights => some .rights | .page => some .page | .lost => some .machinecheck | _ => none

/-- An access that waits leaves its walk where a MOVING leaf holds it: it goes on once PLBINV has named the page (R358, R363). -/
def State.park (s : State) : Denied → State
  | .moving (some w) => if s.walks.any (fun x => x.line == w.line && x.slice == w.slice) then s else { s with walks := s.walks ++ [w] }
  | _ => s

/-- Bring a line in directly, for an access that is performed with its translation in one step, in a class of service. The
request waits while a walk of its line is under way, while its slice or a channel holds it back or serves another first (R261,
R262, R322), while the link to the channel's stack is down (R382), and while its set has no room. -/
def State.fetchLine (s : State) (core a : Nat) (cls : Nat := 1) : Except Denied State :=
  if !s.hitServed core a cls then .error (.moving none)
  else if s.lineReady core a then .ok s
  else
    let slice := sliceOf core a
    if (s.misses slice).any (fun w => w.line == line256 a) then .error (.moving none)
    else match s.walkTokens (coreStack core) (s.xlatReads slice a) with
      | none => .error (.moving none)
      | some s0 =>
        match s0.translate slice a with
        | (.pa p _, s1) =>
          if !s1.channelTurn (channelOf p) cls || !s1.stacksJoined (coreStack core) (channelOf p / 64) then .error (.moving none)
          else match (s1.l2Room core a).bind (fun s2 => s2.arbRead (channelOf p) arbFuel) with
            | none => .error (.moving none)
            | some s2 => .ok ((s2.modChannel (channelOf p) (·.spend cls 4)).fillL2 core a p)
        | (.moving, _) => .error (.moving (some { line := line256 a, slice, cls, moving := true }))
        | (.fail, _) => .error .page

/-! ### Data with errors that moves without an instruction (R399, log entry 12) -/

/-- A move from one block to another carries an uncorrectable error with it; a whole block that is written without one is good. -/
def State.carryPoison (s : State) (src dst : Poison) (whole : Bool) : State :=
  if s.poison.contains src then (if s.poison.contains dst then s else { s with poison := s.poison ++ [dst] })
  else if whole && s.poison.contains dst then { s with poison := s.poison.filter (· != dst) }
  else s

def State.markPoison (s : State) (p : Poison) : State := if s.poison.contains p then s else { s with poison := s.poison ++ [p] }
def State.clearPoison (s : State) (p : Poison) : State :=
  if s.poison.contains p then { s with poison := s.poison.filter (· != p) } else s

/-! ### Stores to a lost device (R385) -/

/-- A store to a device that has been declared lost is listed in an error record of its own (DESIGN CHOICE, log entry 40). -/
def State.listLost (s : State) (dev : Nat) : State := s.recordError (BitVec.ofNat 16 (0x5000 + dev % 0x1000)) 3 2 0 0 1

/-! ### The deep guard (R321) -/

/-- Whether a region of global memory holds the 64-byte block of an address. -/
def Region.holds (r : Region) (a : Nat) : Bool :=
  !r.isLocal && decide (r.base ≤ line64 a) && decide (line64 a < r.base + 64 * r.blocks)

/-- Whether the deep guard holds an access to a block: any access to a write footprint, a write to a read footprint. -/
def State.guardHeld (s : State) (a : Nat) (write : Bool) : Bool :=
  s.kernels.any (fun k => k.guard && (k.writes.any (·.holds a) || (write && k.reads.any (·.holds a))))

/-- As `guardHeld`, for n bytes. -/
def State.guardedN (s : State) (a n : Nat) (write : Bool) : Bool :=
  s.kernels.any (·.guard) && (s.guardHeld a write || s.guardHeld (a + n - 1) write)

/-! ### Direct coherent accesses (R245, R249)

The accesses of jobs, streams, gathers, hosts and schedulers: a domain's rights are checked by an entry of the unit's PLB, or by
a walk where it holds none (log entry 56), and each byte is read or written at its home, the line being brought in as needed. -/

def plbEntries : Nat := 64

/-- The entry that the port die's PLB needs for an address is filled where it is valid (R244, R388). -/
def State.portFill (s : State) (dom a : Nat) : State :=
  if s.port.plb.any (·.covers dom a) then s
  else match s.protWalk dom a with
    | some e => s.modPort (fun p => { p with plb := (e :: p.plb).take plbEntries })
    | none => s

/-- The PLB that a direct access asks: its core's, or the port die's where no core makes it. -/
def State.plbOf (s : State) : Option Nat → List PlbEntry
  | some c => (s.core c).plb
  | none => s.port.plb

/-- The home core of an address under a domain's rights, by the unit's PLB or a walk; `need` picks the right. -/
def State.authorize (s : State) (dom a : Nat) (need : PlbEntry → Bool) (src : Option Nat := none) : Except Denied (Nat × Nat) :=
  if 2 ^ 56 ≤ a then .error .rights
  else match ((s.plbOf src).find? (·.covers dom a)).orElse (fun _ => s.protWalk dom a) with
    | none => .error .page
    | some e => if need e && s.deviceOk (e.home a).1 then .ok (e.home a) else .error .rights

/-- n bytes the spec leaves open: what another device of the domain holds, which is not this machine (log entry 8). -/
def State.freeBytes (s : State) : Nat → List Byte × State
  | 0 => ([], s)
  | n + 1 =>
    let (w, s1) := s.free
    let (bs, s2) := s1.freeBytes n
    (w.setWidth 8 :: bs, s2)

/-- Bring the line of an authorized address in, for an access from a core (where one makes it) in a class; none for a line homed
on another device. -/
def State.reach (s : State) (dom a : Nat) (write : Bool) (src : Option Nat := none) (cls : Nat := 1) :
    Except Denied (Option Nat × State) :=
  match s.authorize dom a (fun e => if write then e.w else e.r) src with
  | .error d => .error d
  | .ok (dev, h) =>
    if s.isLost dev && !write then .error .lost
    else if dev != s.ownDev then
      if !s.isLost dev && !s.fabricUp dev then .error (.moving none)
      else .ok (none, s)
    else if s.guardHeld a write then .error .guard
    else if src.any (fun c => !s.stacksJoined (coreStack c) (coreStack h)) then .error (.moving none)
    else match s.fetchLine h a cls with
      | .ok s' => .ok (some h, s')
      | .error d => .error d

/-- A direct write that finds its line homed on a lost device is listed (R385). -/
def State.lostStore (s : State) (dom a : Nat) (src : Option Nat) : State :=
  match s.authorize dom a (·.w) src with
  | .ok (dev, _) => if s.isLost dev then s.listLost dev else s
  | .error _ => s

/-- The parts of [a, a + n) cut at multiples of u. -/
def cutAt (u : Nat) : Nat → Nat → Nat → List (Nat × Nat)
  | 0, _, _ => []
  | f + 1, a, n =>
    if n == 0 then []
    else
      let m := min n (u - a % u)
      (a, m) :: cutAt u f (a + m) (n - m)

def parts64 (a n : Nat) : List (Nat × Nat) := cutAt 64 (n / 64 + 2) a n

/-- Read n bytes with a domain's read right, or the first part that is denied. -/
def State.dirRead (s : State) (dom a n : Nat) (src : Option Nat := none) (cls : Nat := 1) : Except (Denied × Nat) (List Byte × State) :=
  (parts64 a n).foldl (fun acc p =>
    match acc with
    | .error e => .error e
    | .ok (bs, s) =>
      match s.reach dom p.1 false src cls with
      | .error d => .error (d, p.1)
      | .ok (some h, s1) => let (x, s2) := s1.readHome h p.1 p.2 cls; .ok (bs ++ x, s2)
      | .ok (none, s1) => let (x, s2) := s1.freeBytes p.2; .ok (bs ++ x, s2)) (.ok ([], s))

/-- Write bytes with a domain's write right: each part in turn, up to the first that is denied, with the state then. -/
def State.dirWrite (s : State) (dom : Nat) (f a : Nat) (bs : List Byte) (src : Option Nat := none) (cls : Nat := 1) :
    Except (Denied × Nat × State) State :=
  go s f a bs
where
  go (s : State) : Nat → Nat → List Byte → Except (Denied × Nat × State) State
  | _, _, [] => .ok s
  | 0, _, _ => .ok s
  | f + 1, a, bs =>
    let m := min bs.length (64 - a % 64)
    match s.reach dom a true src cls with
    | .error d => .error (d, a, s)
    | .ok (some h, s1) => go (s1.writeHome h a ((bs.take m).map some) cls) f (a + m) (bs.drop m)
    | .ok (none, s1) => go (s1.lostStore dom a src) f (a + m) (bs.drop m)

def State.dirWord (s : State) (dom a : Nat) : Except (Denied × Nat) (Nat × State) :=
  match s.dirRead dom a 8 with
  | .ok (bs, s') => .ok (bytesToNat bs, s')
  | .error e => .error e

/-- A whole block with its legend. -/
def State.dirBlock (s : State) (dom a : Nat) (src : Option Nat := none) (cls : Nat := 1) :
    Except (Denied × Nat) (List Byte × Legend × State) :=
  match s.reach dom a false src cls with
  | .error d => .error (d, a)
  | .ok (some h, s1) =>
    let (bs, s2) := s1.readHome h (line64 a) 64 cls
    let (l, s3) := s2.legHome h a cls
    .ok (bs, l, s3)
  | .ok (none, s1) =>
    let (bs, s2) := s1.freeBytes 64
    let (w, s3) := s2.free
    .ok (bs, w.setWidth 16, s3)

/-- Write a whole block, with its legend where one is given. -/
def State.dirSetBlock (s : State) (dom a : Nat) (bs : List Byte) (l : Option Legend) (src : Option Nat := none) (cls : Nat := 1) :
    Except (Denied × Nat) State :=
  match s.reach dom a true src cls with
  | .error d => .error (d, a)
  | .ok (some h, s1) =>
    let s2 := s1.writeHome h (line64 a) (bs.map some) cls
    .ok (match l with | some v => s2.setLegHome h a v cls | none => s2)
  | .ok (none, s1) => .ok (s1.lostStore dom a src)

end Sys2Proof.Machine
end

