-- ==== Sys2Proof/Machine/Access.lean ====
section
/-! DEFINITION. Data accesses of a slot at their issue (R125-R127, R143, R243-R253, R264-R272, R336, R345): windows,
rights, watchpoints, routing and migration, loads, and the store queue. -/

namespace Sys2Proof.Machine

/-! ### Windows (R125, R126, R243) -/

/-- The domain whose rights a slot's accesses use (R352): domain 0 in K mode. -/
def State.checkDom (s : State) (c k : Nat) : Nat := if (s.slot c k).km then 0 else s.domainOf c k

/-- Whether a core holds a slot of a domain (R126). -/
def State.coreHasDomain (s : State) (core dom : Nat) : Bool :=
  dom == 0 || (List.range 4).any (fun k => let sl := s.slot core k; sl.ident.isSome && sl.guest.isNone && s.domainOf core k == dom)

/-- The compute stacks that a packet travels between, where both ends stand on one: a cluster's scheduler stands on its cluster's. -/
def Packet.stacks (p : Packet) : Option (Nat × Nat) :=
  let at_ (c : Nat) : Option Nat :=
    if c < 4096 then some (coreStack c) else if 16384 ≤ p.unit && p.unit < 16416 then some ((p.unit - 16384) / 8) else none
  (at_ p.src.1).bind (fun a => (at_ p.core).map (fun b => (a, b)))

/-- What a reply from another device bears as its source core. -/
def farSource (dev : Nat) : Nat := 65536 + dev

/-- The other device that a packet goes to or comes from (R384). -/
def State.farOf (s : State) (p : Packet) : Option Nat :=
  if p.dev != s.ownDev then some p.dev else if 65536 ≤ p.src.1 then some (p.src.1 - 65536) else none

/-- Packet i, unless a link on its route holds it (R382, R398). -/
def State.packetAt (s : State) (i : Nat) : Option Packet :=
  match s.net[i]? with
  | none => none
  | some p => match s.farOf p with
    | some d => if s.isLost d || s.fabricUp d then some p else none
    | none => if p.stacks.any (fun x => !s.stacksJoined x.1 x.2) then none else some p

/-- Resolve an address of n bytes (R125, R126, R243); none where the access raises RIGHTS. -/
def State.locate (s : State) (c k a n : Nat) : Option Part :=
  let off := a % 2 ^ 17
  let low := bitsOf a 35 17 == 0 && off + n ≤ 0x20000
  match a / 2 ^ 56 with
  | 0 => if a + n ≤ 2 ^ 56 then some (.glob a n) else none
  | 0xFC => if bitsOf a 55 36 == 0 && low then some (.loc s.ownDev (s.homeOf c k).1 off n) else none
  | 0xFE =>
    let dev := bitsOf a 55 48
    let core := bitsOf a 47 36
    let dom := s.checkDom c k
    let holds := if dev == s.ownDev then s.coreHasDomain core dom else dom == 0 || Config.farDomain s.freeCtr dev core dom
    if low && s.deviceOk dev && holds then some (.loc dev core off n) else none
  | 0xFD =>
    match (s.teamOf c k).bind (fun t => t.coreOfMember (bitsOf a 47 36)) with
    | some core => if bitsOf a 55 48 == 0 && low then some (.loc s.ownDev core off n) else none
    | none => none
  | _ => none

/-- The offset that n bytes at an own-window address have: in the own window, or in a coordinate or team window that resolves to the
actor's core (R125); none elsewhere. -/
def State.ownOffset (s : State) (c k a n : Nat) : Option Nat :=
  match s.locate c k a n with
  | some (.loc d core off _) => if d == s.ownDev && core == (s.homeOf c k).1 then some off else none
  | _ => none

/-- The core and offset that an offset of a core's local memory reaches through an ARRAY span (R153). Where spans overlap, the
nearest master at or below the bank decides, and a bank instruction addressed to a bank that a span covers acts on that bank
itself (DESIGN CHOICE, log entry 46: R153 speaks of byte addresses of one span). -/
def State.spanTarget (s : State) (core off : Nat) : Option (Nat × Nat) :=
  let b := off / bankBytes
  ((List.range (b + 1)).reverse.findSome? (fun m =>
    let x := s.bank core m
    if x.isMaster && x.pers == 0 then
      let ms := s.members core m
      let o := off - m * bankBytes
      if o < ms.length * bankBytes then
        some (let t := lget (core, m) ms (o / bankBytes); (t.1, t.2 * bankBytes + o % bankBytes))
      else none
    else none))

/-- How an access meets the banks it touches (R140, R154, R267). -/
inductive BankUse where
  | array
  | absent              -- a spanned member addressed directly
  | personality
  | straddle            -- bytes of two banks, one not ARRAY
  | split               -- bytes of an ARRAY bank, and of a member that an ARRAY span's end reaches
  deriving DecidableEq, Repr

def State.bankUse1 (s : State) (core off : Nat) : BankUse :=
  match s.spanTarget core off with
  | some _ => .array
  | none =>
    let x := s.bank core (off / bankBytes)
    if x.isMember then .absent else if x.pers == 0 then .array else .personality

def State.bankUse (s : State) (core off n : Nat) : BankUse :=
  let u := s.bankUse1 core off
  let v := s.bankUse1 core (off + n - 1)
  let other (o : Nat) (w : BankUse) : Bool := w != .array && (s.bank core (o / bankBytes)).pers != 0
  if off / bankBytes == (off + n - 1) / bankBytes then u
  else if other off u || other (off + n - 1) v then .straddle
  else if u == v then u
  else .split

/-- Read and write ARRAY bytes of a core's local memory, through an ARRAY span where one is reached. -/
def State.localByte (s : State) (core off : Nat) : Byte :=
  let (c, o) := (s.spanTarget core off).getD (core, off)
  Mem.read (s.core c).mem o
def State.localRead (s : State) (core off n : Nat) : List Byte :=
  (List.range n).map (fun i => s.localByte core (off + i))
def State.localWrite (s : State) (core : Nat) : Nat → List (Option Byte) → State
  | _, [] => s
  | off, none :: bs => s.localWrite core (off + 1) bs
  | off, some b :: bs =>
    let (c, o) := (s.spanTarget core off).getD (core, off)
    (s.modCore c (fun x => { x with mem := Mem.write x.mem o b })).localWrite core (off + 1) bs
def State.localLeg (s : State) (core off : Nat) : Legend :=
  let (c, o) := (s.spanTarget core off).getD (core, off)
  LegMap.read (s.core c).leg (o / 64)
def State.setLocalLeg (s : State) (core off : Nat) (l : Legend) : State :=
  let (c, o) := (s.spanTarget core off).getD (core, off)
  s.modCore c (fun x => { x with leg := LegMap.write x.leg (o / 64) l })
def State.localKind (s : State) (core off : Nat) : Kind :=
  let (c, o) := (s.spanTarget core off).getD (core, off)
  (s.bank c (o / bankBytes)).kind

/-! ### The range scoreboard (R162, R259, R260) -/

def Range.overlaps (r : Range) (lo n : Nat) : Bool := decide (lo < r.lo + r.len) && decide (r.lo < lo + n)

/-- Whether a block that local bytes lie in holds an uncorrectable error (R332), through an ARRAY span where one is reached. -/
def State.localPoison (s : State) (core off n : Nat) : Bool :=
  !s.poison.isEmpty && (List.range n).any (fun i =>
    let (c, o) := (s.spanTarget core (off + i)).getD (core, off + i)
    s.poison.contains (.bank c (o / 64)))

/-- Whether an access waits behind a held range; a load waits only behind a write range. -/
def Core.held (c : Core) (lo n : Nat) (anySense : Bool) : Bool :=
  c.ranges.any (fun r => (anySense || r.write) && r.overlaps lo n)

/-- As `held`, for an access that may reach other cores' banks through an ARRAY span. -/
def State.localHeld (s : State) (core off n : Nat) (anySense : Bool) : Bool :=
  let (c, o) := (s.spanTarget core off).getD (core, off)
  (s.core c).held o n anySense

def State.bankHeld (s : State) (core b : Nat) : Bool :=
  (s.members core b).any (fun m => (s.core m.1).held (m.2 * bankBytes) bankBytes true)

/-! ### Watchpoints (R345) -/

/-- The gazetteer entries that a slot's GSLOT names. -/
def SlotRegs.groups (r : SlotRegs) : List Nat :=
  (List.range 4).filterMap (fun g =>
    if r.gslot.getLsbD (32 + g) then some (r.gslot.toNat / 2 ^ (8 * g) % 256) else none)

def Comparator.maskl (x : Comparator) : Nat := x.ctl.toNat / 2 ^ 10 % 64

/-- Whether a comparator matches one of n bytes at an address, in a mode. -/
def Comparator.hits (x : Comparator) (km : Bool) (a n : Nat) : Bool :=
  x.ctl.getLsbD 0 && (!km || x.ctl.getLsbD 1) &&
    decide (a / 2 ^ x.maskl ≤ x.addr.toNat / 2 ^ x.maskl) && decide (x.addr.toNat / 2 ^ x.maskl ≤ (a + n - 1) / 2 ^ x.maskl)

/-- The comparators i and i + 1 of each entry that a slot's GSLOT names, with the entry and the number. -/
def State.comparators (s : State) (c k first : Nat) : List (Nat × Nat × Comparator) :=
  match s.teamOf c k with
  | none => []
  | some t => (s.slot c k).regs.groups.eraseDups.flatMap (fun e =>
      [(e, first, vget {} (lget {} t.gaz e).cmps first), (e, first + 1, vget {} (lget {} t.gaz e).cmps (first + 1))])

/-- The parts of the accesses of an instruction (R267): cut at banks in a local window, at lines of 64 bytes elsewhere. -/
def accessParts (items : List (Nat × Nat)) : List (Nat × Nat) :=
  items.flatMap (fun it => if 0xFC * 2 ^ 56 ≤ it.1 then cutAt bankBytes 2 it.1 it.2 else parts64 it.1 it.2)

/-- Check the accesses an instruction would make against the watchpoints: WATCH with the lowest matching lane or part, or a
trace event for a comparator with ACT = 1. -/
def watch (ld st : Bool) (whole : List (Nat × Nat)) : M Unit := fun s =>
  let items := accessParts whole
  let (c, k) := s.at_
  let sl := s.slot c k
  if sl.noMatch then .ok ((), s)
  else
    let ws := (s.comparators c k 2).filter (fun w => (ld && w.2.2.ctl.getLsbD 2) || (st && w.2.2.ctl.getLsbD 3))
    match items.find? (fun it => ws.any (fun w => !w.2.2.ctl.getLsbD 9 && w.2.2.hits sl.km it.1 it.2)) with
    | some it => .error (.trap .watch (BitVec.ofNat 64 it.1))
    | none =>
      .ok ((), ws.foldl (fun s w =>
        match items.find? (fun it => w.2.2.ctl.getLsbD 9 && w.2.2.hits sl.km it.1 it.2) with
        | some it => s.traceCore c 0x0B (BitVec.ofNat 48 (w.1 + 256 * w.2.1 + 1024 * k)) (BitVec.ofNat 64 it.1)
        | none => s) s)

/-! ### Rights (R244, R245) -/

/-- The PLB entry of an address; a miss asks for a fill and stalls, and an invalid table entry raises PAGE. -/
def plbEntry (a : Nat) (xval : BitVec 64) : M PlbEntry := fun s =>
  let (c, k) := s.at_
  let dom := s.checkDom c k
  match (s.core c).plbFind dom a with
  | some e => .ok (e, s)
  | none =>
    if (s.slot c k).badPage == some (a / 2 ^ 16, dom) then .error (.trap .page xval)
    else
      let f := (a / 2 ^ 16 * 2 ^ 16, dom)
      .error (.ask (fun s =>
        (s.modCore c (fun x => if x.fills.contains f then x else { x with fills := x.fills ++ [f] })).stallCur .plbFill))

def requireRight (ok : Bool) (xval : BitVec 64) : M Unit := if ok then pure () else raise .rights xval

/-! ### Ordering at issue (R265, R266, R269) -/

/-- The first byte that a store covers: LGST covers its whole block (R145). -/
def StoreReq.start (r : StoreReq) (a : Nat) : Nat := match r.op with | .legend => line64 a | _ => a
def StoreReq.len (r : StoreReq) : Nat := match r.op with | .legend => 64 | _ => r.data.length

/-- Whether the deep guard holds a store to global memory, by the line it names (R321). -/
def State.storeGuarded (s : State) (r : StoreReq) : Bool :=
  (match r.chk with | .ok t _ => !t.isLocal && t.dev == s.ownDev | .pending => true | .bad _ => false) &&
    s.guardedN r.addr (if r.leg.isSome then 1 else r.len) true

/-- Whether the deep guard holds what a packet asks of a line (R321). -/
def State.packetGuarded (s : State) (p : Packet) : Bool :=
  !p.isLocal && p.dev == s.ownDev &&
    match p.body with
    | .store r => s.guardedN r.addr (if r.leg.isSome then 1 else r.len) true
    | .load _ _ a n .. => s.guardedN a n false
    | .atomic _ _ a .. => s.guardHeld a true
    | _ => false

/-- The bytes of a store, as a part, once its target is known. -/
def StoreReq.part (r : StoreReq) : Part :=
  match r.chk with
  | .ok t _ => if t.isLocal then .loc t.dev t.core (r.start r.off) r.len else .glob (r.start r.addr) r.len
  | _ => .glob (r.start r.addr) r.len

def Part.overlaps : Part → Part → Bool
  | .glob a n, .glob b m => decide (a < b + m) && decide (b < a + n)
  | .loc d c a n, .loc e f b m => d == e && c == f && decide (a < b + m) && decide (b < a + n)
  | _, _ => false

def CombEntry.part (x : CombEntry) : Part :=
  if x.tgt.isLocal then .loc x.tgt.dev x.tgt.core x.off 64 else .glob x.line 64

/-- Whether a load overlaps a store of the slot that is not yet performed where it could pass it (R265). -/
def Slot.storeOverlap (sl : Slot) (p : Part) : Bool :=
  sl.sq.any (fun r => r.part.overlaps p) || sl.comb.any (fun x => x.part.overlaps p)

/-- Whether an acquire of the slot is not yet performed (R269). -/
def Slot.acquiring (sl : Slot) : Bool := sl.owed.any (·.acq)

/-- The parts of a load that have not replied: their targets and kinds (R249). -/
def Owed.openParts (o : Owed) : List (Target × Kind) :=
  (((o.tgts.zip o.kinds).zip o.got).filter (fun x => x.2.isNone)).map Prod.fst

/-- Whether a part of a load that has not replied is of a kind that a condition picks. -/
def Owed.opens (o : Owed) (p : Kind → Bool) : Bool := o.openParts.any (fun x => p x.2)

/-- Whether an earlier SO access is not yet performed (R266). -/
def Slot.soPending (sl : Slot) : Bool :=
  sl.sq.any (fun r => match r.chk with | .ok _ k => k == .so | _ => true) ||
  sl.unacked.any (fun u => u.kind == .so) || sl.owed.any (·.opens (· == .so))

/-- Whether a store that the firing sent before it returned from a guest core is still on its way to a target (R253): later
accesses to the target wait for it, since they would travel another way (R265). -/
def Slot.farStore (sl : Slot) (t : Target) : Bool := sl.unacked.any (fun u => u.far && u.tgt == t)

/-- Whether a GATHER lane holds an access of a kind to a target: SO lanes of the slot's actor hold its every SO access, RC lanes the RC
accesses to their own target (R266, R297), and lanes of the core to its own banks every access of the core to them (R272). -/
def State.laneHolds (s : State) (c k : Nat) (kind : Kind) (t : Target) : Bool :=
  s.gathering c k (fun _ u kd => (kind == .so && kd == .so) || (kind == .rc && kd == .rc && u == t)) ||
    (t == { dev := s.ownDev, core := c, isLocal := true } && (s.core c).gathers.any (fun g => g.lanes.any (fun l => l.2.2.1 == t)))

/-- What a load of a kind from a target waits for before it is sent: an acquire holds every later access (R269), a UO one too (DEDUCED,
log entry 46: R271 says that `.acq` leaves UO accesses unordered). -/
def loadOrder (kind : Kind) (t : Target) (ps : List Part) : M Unit := do
  let sl ← curSlot
  let s ← getS
  let (c, k) := s.at_
  if sl.acquiring then stallOn .remoteReply
  else if ps.any sl.storeOverlap then stallOn .storeQueue
  else if kind == .so && sl.soPending then stallOn .remoteReply
  else if sl.farStore t || s.laneHolds c k kind t then stallOn .remoteReply
  else pure ()

/-! ### The combining buffer's departure (R271) -/

/-- Put a packet on the network. -/
def State.sendPacket (s : State) (p : Packet) : State := { s with net := s.net ++ [p] }

/-- The lanes of an instruction in progress that its slot's store queue has not yet taken (R266). -/
def Slot.lanesLeft (sl : Slot) : List StoreReq := match sl.pend with | some (.stores rest _) => rest | _ => []

/-- Every store of a slot that has not left it. -/
def Slot.queued (sl : Slot) : List StoreReq := sl.sq ++ sl.lanesLeft

/-- UAS (R23): the remote stores issued and not yet acknowledged. -/
def Slot.uas (sl : Slot) : Nat := sl.unacked.length + (sl.queued.filter (·.counted)).length

/-- The largest count of UAS (R23). -/
def uasCap : Nat := 4095

/-- Send a combining-buffer entry as one store of its masked bytes, counted from now in UAS (R271); it waits for an acknowledgement
while UAS is at its largest (R23). -/
def State.sendComb (s : State) (c k : Nat) (e : CombEntry) : State :=
  let r : StoreReq := { id := e.id, pc := e.pc, addr := e.line, off := e.off, data := e.data, op := .merged, parts := e.parts,
                        dom := s.domainOf c k, doms := e.doms, chk := .ok e.tgt .uo, qos := e.qos }
  if uasCap ≤ (s.slot c k).uas then s
  else (s.modSlot c k (fun x => { x with comb := x.comb.filter (fun y => y.id != e.id)
                                         unacked := x.unacked ++ [{ id := e.id, ord := e.ord, tgt := e.tgt, kind := .uo }] })).sendPacket
    { src := (c, k), unit := 0, dev := e.tgt.dev, core := e.tgt.core, isLocal := e.tgt.isLocal, dom := s.domainOf c k,
      cls := e.qos, body := .store r }

/-- Send every combining-buffer entry that a condition picks. -/
def State.flushComb (s : State) (c k : Nat) (p : CombEntry → Bool) : State :=
  ((s.slot c k).comb.filter p).foldl (fun s e => s.sendComb c k e) s

/-! ### Routing and migration (R248-R253) -/

/-- Whether a slot owns an active stream record (R250). -/
def Core.streamsOf (c : Core) (k : Nat) : Bool := c.streams.toList.any (fun r => r.active && r.owner.toNat == k)

/-- Whether an access that a slot has made waits for the deep guard to lift: the slot is then STALLED (R321). -/
def State.guardStalls (s : State) (c k : Nat) : Bool :=
  s.kernels.any (·.guard) &&
    ((s.slot c k).queued.any s.storeGuarded || s.net.any (fun p => p.unit == 0 && p.src == (c, k) && s.packetGuarded p))

/-- An IDLE slot of a core that no actor, mark or reservation holds (R250). -/
def State.idleSlot (s : State) (core : Nat) : Option Nat :=
  (List.range 4).find? (fun k =>
    let x := s.slot core k
    x.status == .idle && x.ident.isNone && x.away.isNone && x.reserved.isNone && x.guest.isNone)

/-- Conditions 1 to 6 of R250 at the issuing core: a held sequence is an operation that has not completed (R174). A slot that already waits to leave meets condition 2 (R251). -/
def State.canLeave (s : State) (c k : Nat) : Bool :=
  let sl := s.slot c k
  let co := s.core c
  !sl.km && sl.firing.isSome && (sl.uas == 0 || sl.leaving) && !co.streamsOf k &&
  !co.mu.queue.any (fun m => m.slot == k) && !((co.mu.mseq.getLsbD 63 || co.mu.mseq.getLsbD 37) && bitsOf co.mu.mseq.toNat 62 61 == k) &&
  co.waypoints.length < 8 && !sl.haltReq

/-- The firing of (c, k) leaves for slot g, at core h of a device (R251, R252): a waypoint is taken, the context is sent, and the slot
it leaves is STALLED, or IDLE where it was a guest. -/
def State.migrate (s : State) (c k dev h : Nat) (g : Nat × Nat) : State :=
  let sl := s.slot c k
  let home := s.homeOf c k
  let s1 := s.addWaypoint c k g
  let s2 := if sl.guest.isSome then s1.setSlot c k {} else s1.modSlot c k (fun x => { x with owed := [], status := .stalled .away })
  let s3 := s2.modSlot home.1 home.2 (fun x => { x with awayAt := some g, status := .stalled .away })
  let s4 := if dev == s.ownDev then s3.modSlot g.1 g.2 (fun x => { x with reserved := some home }) else s3
  { s4 with net := s4.net ++ [{ src := (c, k), unit := 0, dev, core := h, slot := g.2, body := .context (sl.context home) }] }

/-- The predictor's index of a home (R248). -/
def ctrIndex (dev h : Nat) : Nat := (dev % 64) ^^^ (h / 64) ^^^ (h % 64)

/-- An access to a remote home updates its slot's predictor (R248). -/
def Slot.learn (sl : Slot) (dev h : Nat) : Slot :=
  let i := ctrIndex dev h
  let v := aget 0 sl.ctr i
  { sl with ctr := aput sl.ctr i (if sl.lasth == (dev, h) then min (v + 1) 3 else v - 1), lasth := (dev, h) }

/-- A slot that is to migrate sends its combining buffer and waits until its stores are acknowledged (R251, R339). -/
def State.leaveWait (s : State) (c k : Nat) : State :=
  ((s.flushComb c k (fun _ => true)).modSlot c k (fun x => { x with leaving := true })).stallCur .release

/-- The slot that the home core grants, by its core and number (R250, condition 7): an IDLE slot of a core of this device, unless a
request in force names the core (R364). Whether a core of another device grants one is that device's state, which is open: the
firing is then known by the device's number (R384, log entry 48). -/
def State.grantSlot (s : State) (dev h : Nat) : Option (Nat × Nat) × State :=
  if dev == s.ownDev then
    (if s.port.preempts.any (fun p => p.scope == 1 && p.arg == h) then none else (s.idleSlot h).map (fun g => (h, g)), s)
  else
    let (w, s1) := s.free
    (if w.getLsbD 0 && s.fabricUp dev && !s.isLost dev then some (farSource dev, 0) else none, s1)

/-- Route (R248) for a plain access to a line with a remote home: the predictor is updated, and the firing may migrate
instead of the access being made. A migration waits until the slot's stores are all acknowledged (R251, R339). -/
def route (hint : Nat) (dev h : Nat) : M Unit := fun s =>
  let (c, k) := s.at_
  let sl := s.slot c k
  let want := hint == 2 || (hint == 0 && decide (2 ≤ aget 0 sl.ctr (ctrIndex dev h)))
  let s1 := s.modSlot c k (·.learn dev h)
  if want && s.canLeave c k then
    match s.grantSlot dev h with
    | (some g, s0) =>
      if sl.sq.isEmpty && sl.comb.isEmpty && sl.unacked.isEmpty then
        .error (.ask (fun t => (({ t with freeCtr := s0.freeCtr } : State).modSlot c k (·.learn dev h)).noteIssue.migrate c k dev h g))
      else .error (.ask (fun t => ({ t with freeCtr := s0.freeCtr } : State).leaveWait c k))
    | (none, s0) => .ok ((), s0.modSlot c k (·.learn dev h))
  else .ok ((), s1)

/-! ### Loads (R143, R245, R249, R266) -/

/-- A slot asks for the walk of a line that its slice lacks, and waits; while its slice holds new requests of its class it waits
for that first (R261, R262). -/
def State.askMiss (s : State) (h a cls : Nat) (w : Wait) : State :=
  let key := slotKey s.at_.1 s.at_.2
  if s.pressed h a cls key then s.stallCur .backpressure else (s.askWalk h a cls key).stallCur w

/-- Check one global part of a load: R right; its line in its home's slice, asked for where it is not, in its turn there. A load whose line
fails translation raises PAGE (R256). A fault names the failing part's address (log entry 16). -/
def loadGlobal (a n : Nat) (xval : BitVec 64) : M LoadPart := do
  let e ← plbEntry a xval
  requireRight e.r xval
  let s ← getS
  let (dev, h) := e.home a
  requireRight (s.deviceOk dev) xval
  let (c, k) := s.at_
  let sl := s.slot c k
  if dev == s.ownDev && s.guardedN a n false then stallOn .guard
  else if dev != s.ownDev || s.lineReady h a then
    if dev == s.ownDev && h == c && !s.hitServed h a sl.regs.qos.toNat then stallOn .backpressure
    else pure { part := .glob a n, xa := a, tgt := { dev, core := h, isLocal := false }, kind := e.kind }
  else if sl.badLine == some (line256 a) then raise .page xval
  else if !s.stacksJoined (coreStack c) (coreStack h) then stallOn .remoteReply
  else askFor (fun s => s.askMiss h a sl.regs.qos.toNat (if h == c then .memReply else .remoteReply))

/-- Check the parts of one item of a load. -/
def loadParts (a n : Nat) : M (List LoadPart) := fun s =>
  let (c, k) := s.at_
  let xval := BitVec.ofNat 64 a
  match s.locate c k a n with
  | none => .error (.trap .rights xval)
  | some (.glob b m) =>
    ((parts64 b m).foldlM (fun acc p => do
      let x ← loadGlobal p.1 p.2 (BitVec.ofNat 64 p.1)
      pure (acc ++ [x])) [] : M (List LoadPart)) s
  | some (.loc d core o m) =>
    .ok ((cutAt bankBytes (m / bankBytes + 2) o m).map (fun p =>
      { part := .loc d core p.1 p.2, xa := a, tgt := { dev := d, core, isLocal := true },
        kind := if d == s.ownDev then s.localKind core p.1 else .so }), s)

/-- The 64-byte block of a part: what LGLD covers. -/
def LoadPart.block (p : LoadPart) : Part :=
  match p.part with
  | .glob a _ => .glob (line64 a) 64
  | .loc d c o _ => .loc d c (line64 o) 64

/-- Read a part that is performed in the issuing core: its own bank or a line homed there; of LGLD, the block's legend. A part
that lies in a spanned member reads zero, and BST says so (R154). -/
def readPart (leg : Bool) (p : LoadPart) : M (List Byte × Bool) := fun s =>
  let cls := (s.slot s.at_.1 s.at_.2).regs.qos.toNat
  match p.part with
  | .glob a n =>
    if leg then let (l, s') := s.legHome p.tgt.core a cls; .ok ((bvBytes 2 l, false), s')
    else let (bs, s') := s.readHome p.tgt.core a n cls; .ok ((bs, false), s')
  | .loc _ core o n =>
    if s.bankUse1 core o == .absent then .ok ((List.replicate (if leg then 2 else n) 0, true), s)
    else if s.localHeld core (if leg then line64 o else o) (if leg then 64 else n) false then .error (.stall .range)
    else .ok ((if leg then bvBytes 2 (s.localLeg core o) else s.localRead core o n, false), s)

/-- Whether a block that a part reads holds an uncorrectable error (R332). -/
def State.partPoisoned (s : State) (p : LoadPart) : Bool :=
  match p.part with
  | .glob a _ => s.poison.contains (.line (line64 a))
  | .loc _ core o n => s.localPoison core o n

/-- Write loaded bytes to their destination (R142, R144, R145). -/
def LoadDst.chunks (n : Nat) : List Byte → Nat → List (List Byte)
  | _, 0 => []
  | bs, m + 1 => bs.take n :: LoadDst.chunks n (bs.drop n) m

/-- The lanes of a loaded vector: loaded bytes in enabled lanes, the base elsewhere. -/
def loadLanes (w : Nat) : List Bool → List Byte → Nat → List Nat
  | [], _, _ => []
  | true :: ms, bs, base => bytesToNat (bs.take (w / 8)) :: loadLanes w ms (bs.drop (w / 8)) (base / 2 ^ w)
  | false :: ms, bs, base => base % 2 ^ w :: loadLanes w ms bs (base / 2 ^ w)

/-- Push an entry into a queue of a core, where there is room. -/
def Core.push (c : Core) (q : Nat) (e : BitVec 256) : Option Core :=
  if c.room q == 0 then none else some (c.setQueue q (c.queue q ++ [e]))

def Slot.loadX (sl : Slot) (n : Nat) (bs : List Byte) : Slot :=
  { sl.clearPoison (poisonKeyX n) with thr := sl.thr.setX n (bytesBv 64 bs) }

/-- Push one entry into each named queue, in order; none when one has no room. -/
def Core.pushOpd (c : Core) (d : Opd) (bs : List Byte) : Option Core :=
  match d with
  | .queue q => c.push q.val (bytesBv 256 bs)
  | _ => some c

/-- Deliver a load's bytes to slot k of core c; none while a destination queue is full. -/
def State.deliver (s : State) (c k : Nat) (dst : LoadDst) (bs : List Byte) : Option State :=
  let reg (d : Opd) (bs : List Byte) (s : State) : State :=
    match d with | .reg n => s.modSlot c k (·.loadX n.val bs) | _ => s
  let queued (f : Core → Option Core) : Option State := (f (s.core c)).map (fun x => s.setCore c x)
  match dst with
  | .x n sz => some (s.modSlot c k (·.loadX n (bs.take sz)))
  | .xx n m sz => some ((s.modSlot c k (·.loadX n (bs.take sz))).modSlot c k (·.loadX m (bs.drop sz)))
  | .v n => some (s.modSlot c k (·.setV n (bytesBv 256 bs)))
  | .lanes n w mask base => some (s.modSlot c k (·.setV n (BitVec.ofNat 256 (packLanes w (loadLanes w mask bs base.toNat)))))
  | .q r sz => queued (·.push r (bytesBv 256 (bs.take sz)))
  | .qq d e sz =>
    (queued (fun x => (x.pushOpd d (bs.take sz)).bind (·.pushOpd e (bs.drop sz)))).map
      (fun s => reg e (bs.drop sz) (reg d (bs.take sz) s))
  | .vq q => queued (·.push q (bytesBv 256 bs))
  | .lanesq q w mask => queued (·.push q (BitVec.ofNat 256 (packLanes w (loadLanes w mask bs 0))))
  | .lgx n => some (s.modSlot c k (·.loadX n (bs.take 2)))
  | .lgq q => queued (·.push q (bytesBv 256 (bs.take 2)))

/-- A destination must be free: room in its queues, no load still owed to its registers, its v group powered. -/
def claimDst (d : LoadDst) : M Unit := fun s =>
  let (c, k) := s.at_
  let sl := s.slot c k
  let qs := d.queues
  if s.isGuest && !qs.isEmpty then .error (.stall .away)
  else match qs.find? (fun q => (s.core c).room q < (qs.filter (· == q)).length) with
  | some q => .error (.stall (.queue q))
  | none =>
    if qs.any (s.core c).owesPush || d.regsX.any (fun n => n != 0 && sl.owed.any (fun o => o.dst.coversX n)) then
      .error (.stall .remoteReply)
    else match d with
      | .v n => if sl.regs.gated n then .error (.stall (.vwake (n / 8)))
                else if sl.owed.any (fun o => o.dst.coversV n) then .error (.stall .remoteReply) else .ok ((), s)
      | .lanes n _ _ _ => if sl.regs.gated n then .error (.stall (.vwake (n / 8)))
                else if sl.owed.any (fun o => o.dst.coversV n) then .error (.stall .remoteReply) else .ok ((), s)
      | _ => .ok ((), s)

/-- Mark a load's destinations as holding an uncorrectable error (R332): the load writes nothing. -/
def Slot.poisonDst (sl : Slot) (d : LoadDst) (a : BitVec 64) : Slot :=
  let keys := d.regsX.map poisonKeyX ++ (match d with | .v n => [poisonKeyV n] | .lanes n _ _ _ => [poisonKeyV n] | _ => [])
  { sl with poisonX := keys.map (fun x => (x, a)) ++ sl.poisonX.filter (fun e => !keys.contains e.1) }

/-- Finish a load whose bytes have all come. -/
def State.finishLoad (s : State) (c k : Nat) (o : Owed) : Option State :=
  let bs := o.got.foldl (fun acc g => acc ++ g.getD []) []
  let s1 := match o.bst with
    | some b => s.modSlot c k (fun x => { x with regs := { x.regs with bst := b } })
    | none => s
  if o.poisoned then
    some ((s1.modSlot c k (·.poisonDst o.dst o.addr)).modCore c (fun x => o.dst.queues.foldl (fun x q => x.markBad q o.addr) x))
  else s1.deliver c k o.dst bs

/-- The packet of part i of a load, from slot k of core c. A personality bank is told of the whole item. -/
def State.loadPacket (s : State) (c k : Nat) (o : Owed) (i : Nat) (p : LoadPart) : Packet :=
  let (a, n) := match p.part with | .glob a n => (a, n) | .loc _ _ f n => (f, n)
  { src := (c, k), unit := 0, dev := p.tgt.dev, core := p.tgt.core, isLocal := p.tgt.isLocal, dom := s.domainOf c k
    cls := (s.slot c k).regs.qos.toNat
    body := .load o.rid i a n o.size o.leg (if p.tgt.isLocal then o.pair else 1) (p.kind == .uo) (BitVec.ofNat 64 p.xa) }

/-- The parts of a load at their issue: what is read at once, whether it held an error or was absent, and the parts that wait for an
SO part that goes before them (R266). -/
structure LoadRun where
  got : List (Option (List Byte))
  bad : Bool := false
  absent : Bool := false
  soOpen : Bool := false
  sent : List (Nat × LoadPart) := []
  later : List (Nat × LoadPart) := []
  deriving DecidableEq, Repr

/-- Issue one part, with its place: read where it is performed in the issuing core, else to be sent, or held behind an SO part. -/
def issuePart (leg : Bool) (here : LoadPart → Bool) (run : LoadRun) (x : LoadPart × Nat) : M LoadRun := do
  let (p, i) := x
  if p.kind == .so && run.soOpen then pure { run with later := run.later ++ [(i, p)] }
  else if here p then
    let (bs, gone) ← readPart leg p
    let s ← getS
    pure { run with got := lput run.got i (some bs), bad := run.bad || (!gone && s.partPoisoned p), absent := run.absent || gone }
  else pure { run with sent := run.sent ++ [(i, p)], soOpen := run.soOpen || p.kind == .so }

/-- The parts of one access in the order in which they go (R267, R427): as they lie, or the other way round, which is open. -/
def partsOrder {α : Type} (swap : Bool) (ps : List α) : List α := if swap then ps.reverse else ps

/-- A load of items to an ARRAY bank or global memory: parts in the issuing core are performed now; where others remain
they are sent, and the load is owed. The parts of one access go in an order that is open (R267); one that falls in the issuing core
may be performed after another that is sent. A load of another core's local memory holds its slot until the reply (R127). The lanes of
a VLDS or VGATH that are performed in the issuing core are read in one step, with no other access between them (DESIGN CHOICE,
log entry 46: R123 lets one fall there). -/
def issueLoad (items : List (Nat × Nat)) (size pair : Nat) (leg acq : Bool) (hint : Option Nat) (dst : LoadDst) (len : Nat)
    (undo : Popped := {}) : M Flow := do
  claimDst dst
  let groups ← items.foldlM (fun acc it => do let x ← loadParts it.1 it.2; pure (acc ++ [x])) []
  let ps := groups.flatten
  let s ← getS
  let (c, k) := s.at_
  let own (p : LoadPart) : Bool := p.tgt.dev == s.ownDev && p.tgt.core == c
  ps.foldlM (fun _ p => loadOrder p.kind p.tgt [if leg then p.block else p.part]) ()
  match hint with
  | none => pure ()
  | some h => ps.foldlM (fun _ p =>
      if own p || p.tgt.isLocal then pure () else route h p.tgt.dev p.tgt.core) ()
  let w ← if groups.any (fun g => 1 < g.length && !g.all own) then freeM else pure 0
  let here (p : LoadPart) : Bool := own p && !(w.getLsbD 1 && groups.any (fun g => g.contains p && !g.all own))
  let order := (groups.foldl (fun (acc : List (LoadPart × Nat) × Nat) g =>
    (acc.1 ++ partsOrder (w.getLsbD 0 && !g.all own) (g.zipIdx acc.2), acc.2 + g.length)) ([], 0)).1
  let run ← order.foldlM (issuePart leg here) { got := ps.map (fun _ => none) }
  let s ← getS
  let (rid, s1) := s.fresh
  let o : Owed := { rid, addr := BitVec.ofNat 64 ((items.map Prod.fst).headD 0), acq, dst, tgts := ps.map (·.tgt),
                    kinds := ps.map (·.kind), got := run.got, later := run.later, size, pair, leg,
                    bst := if run.absent then some 3 else none, poisoned := run.bad }
  if run.got.all Option.isSome then
    match s.finishLoad c k o with
    | some s' => modS (fun _ => s')
    | none => stallOn (.queue 0)
    pure .next
  else
    let far := ps.any (fun p => p.tgt.isLocal && !own p)
    let s2 := s1.modSlot c k (fun x => { x with owed := x.owed ++ [o] })
    let s3 := { s2 with net := s2.net ++ run.sent.map (fun x => s2.loadPacket c k o x.1 x.2) }
    if far then holdIn (s3.holdFor .remoteReply (.load rid len undo))
    else
      modS (fun _ => s3)
      pure .next

/-! ### The store queue at issue (R266, R336) -/

def sqCap : Nat := 16

/-- Put stores into the queue in program order: each with its target where it is already known. -/
def enqueue (rs : List StoreReq) : M Unit := do
  let sl ← curSlot
  if sqCap < sl.sq.length + rs.length then stallOn .storeQueue
  else if uasCap < sl.uas + (rs.filter (·.counted)).length then stallOn .storeQueue
  else modCurSlot (fun x => { x with sq := x.sq ++ rs })

/-- Whether a store to a target is remote, and so counts in UAS from its issue (R23): UO stores count when their
combining-buffer entry is sent (R271). -/
def storeCounts (s : State) (c : Nat) (t : Target) (kind : Kind) (leg absent : Bool) : Bool :=
  !(t.dev == s.ownDev && t.core == c) && (kind != .uo || leg || absent)

/-- The check of one global store at its issue: made where the PLB entry is present, else left to the fill (R245). -/
def State.globalCheck (s : State) (c dom a : Nat) : Check :=
  match (s.core c).plbFind dom a with
  | none => .pending
  | some e =>
    if e.w && s.deviceOk (e.home a).1 then .ok { dev := (e.home a).1, core := (e.home a).2, isLocal := false } e.kind else .bad 1

/-- Whether a global store counts in UAS at its issue: where its entry is missing, the table that the fill will read decides. -/
def State.globalCounts (s : State) (c dom a : Nat) (leg : Bool) : Check → Bool
  | .ok t kd => storeCounts s c t kd leg false
  | .bad _ => false
  | .pending => (s.protWalk dom a).any (fun e =>
      storeCounts s c { dev := (e.home a).1, core := (e.home a).2, isLocal := false } e.kind leg false)

/-- Whether a global line is homed on another device while this one has no identifier: refused at issue (R383). -/
def State.unset (s : State) (c dom a : Nat) : Bool :=
  s.port.devid.isNone && ((((s.core c).plbFind dom a).orElse (fun _ => s.protWalk dom a)).any (fun e => (e.home a).1 != s.ownDev))

/-- The parts of one stored item in the order in which they go, which is open where each is found good (R267, R427): their ids rise. -/
def State.anyOrder (s : State) (rs : List StoreReq) : List StoreReq × State :=
  if rs.length < 2 || !rs.all (fun r => match r.chk with | .ok _ _ => true | _ => false) then (rs, s)
  else
    let (w, s1) := s.free
    (((partsOrder (w.getLsbD 0) rs).zip rs).map (fun x => { x.1 with id := x.2.id }), s1)

/-- The entries of one stored item: one a part. A window violation raises RIGHTS precisely (R126, R243); the rights of
global memory are checked here only where the PLB entry is present, else in the queue (R245). A store that the deep guard holds
stalls its slot (R321). -/
def storeEntries (a : Nat) (bytes : List Byte) (leg : Option Legend) (op : StoreOp) (rel : Bool) : M (List StoreReq) := fun s =>
  let (c, k) := s.at_
  let sl := s.slot c k
  let n := if leg.isSome then 1 else bytes.length
  let entry (acc : List StoreReq × List Byte × State) (f : Nat → StoreReq) (m : Nat) : List StoreReq × List Byte × State :=
    let (id, s1) := acc.2.2.fresh
    (acc.1 ++ [{ f id with data := (acc.2.1.take m).map some }], acc.2.1.drop m, s1)
  match s.locate c k a n with
  | none => .error (.trap .rights (BitVec.ofNat 64 a))
  | some (.loc d core o _) =>
    let cut := cutAt bankBytes (n / bankBytes + 2) o n
    let r := cut.foldl (fun acc p =>
      let kind : Kind := if d == s.ownDev then s.localKind core p.1 else .rc
      let t : Target := { dev := d, core, isLocal := true }
      entry acc (fun id =>
        { id, pc := sl.thr.pc, addr := a + (p.1 - o), off := p.1, whole := some (o, n), leg, op, dom := s.domainOf c k
          chk := .ok t kind, rel, qos := sl.regs.qos.toNat
          counted := storeCounts s c t kind (op == .legend) (s.bankUse1 core p.1 != .array) }) p.2) ([], bytes, s)
    .ok (r.2.2.anyOrder r.1)
  | some (.glob b m) =>
    let dom := s.checkDom c k
    let cut := if leg.isSome then [(b, 1)] else parts64 b m
    match cut.find? (fun p => s.unset c dom p.1) with
    | some p => .error (.trap .rights (BitVec.ofNat 64 p.1))
    | none =>
    let r := cut.foldl (fun acc p =>
      let chk := s.globalCheck c dom p.1
      entry acc (fun id =>
        { id, pc := sl.thr.pc, addr := p.1, leg, op, dom, chk, rel, counted := s.globalCounts c dom p.1 leg.isSome chk
          qos := sl.regs.qos.toNat }) p.2) ([], bytes, s)
    if r.1.any s.storeGuarded then .error (.stall .guard) else .ok (r.2.2.anyOrder r.1)

/-- Add the fills that unchecked stores need to those asked for. -/
def addFills (dom : Nat) (fills : List (Nat × Nat)) (rs : List StoreReq) : List (Nat × Nat) :=
  rs.foldl (fun fs r =>
    if r.chk == .pending && !fs.contains (r.addr / 2 ^ 16 * 2 ^ 16, dom) then fs ++ [(r.addr / 2 ^ 16 * 2 ^ 16, dom)] else fs) fills

/-- Ask for the PLB fills that queued stores wait for (R245). -/
def askFills (rs : List StoreReq) : M Unit := modS (fun s =>
  let (c, k) := s.at_
  let dom := s.checkDom c k
  s.modCore c (fun x => { x with fills := addFills dom x.fills rs }))

/-- Routing of a store whose home is known and remote (R248). A store whose PLB entry is missing issues without waiting (R245):
it stays remote, and its predictor is updated when the fill tells its home (DEDUCED, log entry 48). -/
def routeStores (hint : Option Nat) (rs : List StoreReq) : M Unit := do
  let s ← getS
  let (c, _) := s.at_
  match hint with
  | none => pure ()
  | some h => rs.foldlM (fun _ r => match r.chk with
      | .ok t _ =>
        if t.isLocal || (t.dev == s.ownDev && t.core == c) then pure () else route h t.dev t.core
      | _ => pure ()) ()

end Sys2Proof.Machine
end

