-- ==== Sys2Proof/Machine/Net.lean ====
section
/-! DEFINITION. Stores and loads between their issue and their replies: the store queue's drops and departures, the
combining buffer, arrivals at homes and banks, acknowledgements and load replies (R249, R264-R272, R278, R336-R338). -/

namespace Sys2Proof.Machine

/-! ### The store-fault queue (R336-R338) -/

def sfrqCap : Nat := 8

/-- Keep one record, or count it as lost. -/
def Slot.sfrqPush (sl : Slot) (r : SfrqRec) : Slot :=
  if sl.sfrq.length < sfrqCap then { sl with sfrq := sl.sfrq ++ [r] }
  else { sl with regs := { sl.regs with
    sfrqLost := if sl.regs.sfrqLost == 255 then 255 else sl.regs.sfrqLost + 1 } }

/-- Bytes of a store for its record (R338). -/
def StoreReq.size (r : StoreReq) : Nat := match r.op with | .legend => 64 | _ => (r.data.filter Option.isSome).length

/-- Whether a message waits in an NI as a release SEND behind store `id` (R196). -/
def NiEntry.behind (e : NiEntry) (id : Nat) : Bool := e.release && e.st == .release && id < e.upTo

/-- A record with the number that puts it in program order. -/
def SfrqRec.insert (x : Nat × SfrqRec) : List (Nat × SfrqRec) → List (Nat × SfrqRec)
  | [] => [x]
  | y :: r => if x.1 < y.1 then x :: y :: r else y :: SfrqRec.insert x r

/-- The records of what follows a dropped store of an actor, in program order (R338). -/
def State.followers (s : State) (h : Nat × Nat) (id : Nat) (younger : List StoreReq) : List SfrqRec :=
  let stores := younger.map (fun y =>
    (2 * y.id, ({ addr := BitVec.ofNat 64 y.addr, pc := y.pc, kind := 1, reason := 0, size := y.size } : SfrqRec)))
  let sends := ((s.slot h.1 h.2).ni.filter (·.behind id)).map (fun e =>
    (2 * e.upTo - 1, ({ addr := e.addr, pc := e.pc, kind := 2, reason := 0, size := 0 } : SfrqRec)))
  let tasks := ((s.core h.1).deque.filter (fun t => t.slot == h && id < t.upTo)).map (fun t =>
    (2 * t.upTo - 1, ({ addr := t.recAddr, pc := t.pc, kind := 3, reason := 0, size := 0 } : SfrqRec)))
  ((stores ++ sends ++ tasks).foldl (fun l x => SfrqRec.insert x l) []).map Prod.snd

/-- What follows a dropped store in one step (R336): its record, the younger stores squashed, the release messages behind it
discarded, and the tasks pushed behind it removed. `younger` are the stores squashed. -/
def State.dropStore (s : State) (c k : Nat) (r : StoreReq) (reason : Nat) (younger : List StoreReq) : State :=
  let h := s.homeOf c k
  let first : SfrqRec := { addr := BitVec.ofNat 64 r.addr, pc := r.pc, kind := 0, reason, size := r.size }
  let s1 := s.modSlot c k (fun sl => (first :: s.followers h r.id younger).foldl Slot.sfrqPush sl)
  (s1.modSlot h.1 h.2 (fun x => { x with ni := x.ni.filter (fun e => !e.behind r.id) })).modCore h.1
    (fun x => { x with deque := x.deque.filter (fun t => !(t.slot == h && r.id < t.upTo)) })

/-- A slot that held for a reply, or for its store queue, completes its instruction of the given length (R127, R266, R277). -/
def Slot.resume (sl : Slot) (len : Nat) : Slot :=
  { sl with pend := none, status := .ready, thr := { sl.thr with pc := sl.thr.pc + BitVec.ofNat 64 len } }

/-- The store queue is emptied: an instruction whose lanes it was still taking has none left. -/
def Slot.emptyQueue (sl : Slot) : Slot :=
  match sl.pend with
  | some (.stores _ len) => ({ sl with sq := [] } : Slot).resume len
  | _ => { sl with sq := [] }

/-- The store queue takes the next lanes of an instruction in progress; with the last the instruction completes (R266). Their own
instruction, which has issued, counts among those of R337. -/
def Slot.refill (sl : Slot) : Slot :=
  match sl.pend with
  | some (.stores rest len) =>
    let n := sqCap - sl.sq.length
    let x : Slot := { sl with sq := sl.sq ++ (rest.take n).map (·.skid), pend := some (.stores (rest.drop n) len) }
    if rest.length ≤ n then x.resume len else x
  | _ => sl

/-- Whether the actor of a slot is being retired: its denied stores leave no record, and the others are performed (R341). -/
def State.retiring (s : State) (c k : Nat) : Bool :=
  let h := s.homeOf c k
  (s.slot h.1 h.2).dying

/-- A store at the head whose check failed is dropped, and the rest of the queue with it; of an actor that is being retired it
is dropped alone (R341). -/
def State.settle (s : State) (c k : Nat) : State :=
  match (s.slot c k).sq with
  | [] => s
  | r :: _ =>
    match r.chk with
    | .bad reason =>
      if s.retiring c k then s.modSlot c k (fun x => ({ x with sq := x.sq.filter (fun y => y.id != r.id) } : Slot).refill)
      else (s.modSlot c k Slot.emptyQueue).dropStore c k r reason ((s.slot c k).queued.drop 1)
    | _ => s

/-! ### Departure (R266, R269, R271) -/

/-- Whether the head of the queue may be sent to its target now: an acquire before it holds it, whatever its kind (R269;
DEDUCED for UO, log entry 46); further UO stores are ordered only by R265. -/
def Slot.maySend (sl : Slot) (r : StoreReq) (t : Target) (kind : Kind) : Bool :=
  let before (o : Owed) : Bool := o.rid < r.id
  !sl.farStore t && !sl.owed.any (fun o => before o && o.acq) &&
  ((kind == .uo && !r.rel) ||
   ((kind != .so || (!sl.unacked.any (fun u => u.kind == .so) && !sl.owed.any (fun o => before o && o.opens (· == .so)))) &&
    (!r.rel || (!sl.unacked.any (fun u => u.kind != .uo) && !sl.owed.any (fun o => before o && o.opens (· != .uo))))))

/-- Whether an earlier GATHER lane of the slot's actor holds a store (R266, R269, R297). -/
def State.laneBefore (s : State) (c k : Nat) (r : StoreReq) (t : Target) (kind : Kind) : Bool :=
  s.gathering c k (fun g u kd => g.id < r.id &&
    ((kind == .so && kd == .so) || (kind == .rc && kd == .rc && u == t) || (r.rel && kd != .uo)))

/-- Merge bytes of one line into a masked line: the later store's bytes win. -/
def mergeMask : List (Option Byte) → List (Option Byte) → List (Option Byte)
  | _ :: os, some b :: ns => some b :: mergeMask os ns
  | o :: os, none :: ns => o :: mergeMask os ns
  | os, [] => os
  | [], ns => ns

/-- Bytes placed at an offset of a 64-byte line. -/
def inLine (off : Nat) (bs : List (Option Byte)) : List (Option Byte) :=
  List.replicate off none ++ bs ++ List.replicate (64 - off - bs.length) none

/-- The pieces of a UO store, one a line: its address or offset, its bytes, and, where its target is local memory, the store itself,
which the first line's piece holds whole (R127). -/
def StoreReq.pieces (r : StoreReq) (t : Target) : List (Nat × List (Option Byte) × List Merged) :=
  let at_ := if t.isLocal then r.off else r.addr
  (cutAt 64 3 at_ r.data.length).map (fun p =>
    let bs := (r.data.drop (p.1 - at_)).take p.2
    (p.1, bs, if !t.isLocal then []
      else if p.1 == at_ then [{ off := r.off, whole := r.whole, data := r.data, op := r.op }]
      else [{ off := p.1, whole := r.whole, data := bs, op := .merged }]))

/-- Whether a combining-buffer entry is of the line of an address or offset at a target. -/
def CombEntry.sameLine (e : CombEntry) (t : Target) (at_ : Nat) : Bool :=
  e.tgt == t && (if t.isLocal then e.off else e.line) == line64 at_

/-- Whether the combining buffer can take a store now: an entry that must go first waits while UAS is at its largest (R23, R271). -/
def Slot.combRoom (sl : Slot) (t : Target) (ps : List (Nat × List (Option Byte) × List Merged)) : Bool :=
  let more := (ps.filter (fun p => !sl.comb.any (·.sameLine t p.1))).length
  decide (sl.comb.length + more ≤ 4) || decide (sl.uas + (sl.comb.length + more - 4) ≤ uasCap)

/-- Merge one line's piece of a UO store into the combining buffer; a fifth line first sends the oldest entry (R271). -/
def State.combine (s : State) (c k : Nat) (r : StoreReq) (t : Target) (p : Nat × List (Option Byte) × List Merged) : State :=
  let (at_, bs, parts) := p
  let same (e : CombEntry) : Bool := e.sameLine t at_
  if (s.slot c k).comb.any same then
    s.modSlot c k (fun x => { x with comb := x.comb.map (fun e =>
      if same e then { e with data := mergeMask e.data (inLine (at_ % 64) bs), parts := e.parts ++ parts
                              doms := if e.doms.contains r.dom then e.doms else e.doms ++ [r.dom] } else e) })
  else
    let s1 := match (s.slot c k).comb with
      | e :: rest => if 4 ≤ (e :: rest).length then s.sendComb c k e else s
      | [] => s
    let (id, s2) := s1.fresh
    s2.modSlot c k (fun x => { x with comb := x.comb ++
      [{ id, ord := r.id, pc := r.pc, tgt := t, line := line64 (if t.isLocal then r.addr else at_), off := if t.isLocal then line64 at_ else 0
         data := inLine (at_ % 64) bs, doms := [r.dom], parts, qos := r.qos }] })

/-- Write a store's bytes or legend into local memory that is ARRAY. -/
def State.storeLocal (s : State) (core : Nat) (r : StoreReq) : State :=
  match r.op, r.leg with
  | .legend, some l => s.setLocalLeg core r.off l
  | _, _ => s.localWrite core r.off r.data

def State.storeHome (s : State) (core : Nat) (r : StoreReq) : State :=
  match r.op, r.leg with
  | .legend, some l => s.setLegHome core r.addr l r.qos
  | _, _ => s.writeHome core r.addr r.data r.qos

/-- Mark the head of a slot's queue as waiting for its line's walk. -/
def Slot.headWaits (sl : Slot) (failed : Bool) : Slot :=
  match sl.sq with
  | [] => sl
  | r :: rest => { sl with sq := { r with waiting := true, failed } :: rest }

/-- How a store meets the banks of its access (R140, R154): as a whole, then the part itself. -/
def State.storeUse (s : State) (core : Nat) (r : StoreReq) : BankUse :=
  match r.whole with
  | some (o, n) => if s.bankUse core o n == .straddle then .straddle else s.bankUse1 core r.off
  | none => s.bankUse core r.off (if r.leg.isSome then 1 else r.len)

/-- A store that fails translation at its slice is dropped with reason PAGEL2, with the younger ones still in the queue
(R336); of an actor that is being retired it is dropped alone (R341). -/
def State.pageDrop (s : State) (c k : Nat) (r : StoreReq) : State :=
  if s.retiring c k then s.modSlot c k (fun x => ({ x with sq := x.sq.filter (fun y => y.id != r.id) } : Slot).refill)
  else (s.modSlot c k Slot.emptyQueue).dropStore c k r 3 ((s.slot c k).queued.filter (fun y => y.id != r.id))

/-- The head of a slot's store queue leaves it (R266): performed where its target is the issuing core, merged for a UO
target elsewhere, else sent. Nothing happens while its check, its order, a held range or its line holds it, or its slot is halted. -/
def State.storeLeaves (s : State) (c k : Nat) : State :=
  let sl := s.slot c k
  match sl.sq with
  | [] => s
  | r :: rest =>
    match r.chk with
    | .pending => s
    | .bad _ => s.settle c k
    | .ok t kind =>
      if sl.halted || !sl.maySend r t kind || s.laneBefore c k r t kind then s
      else
        let pop := s.modSlot c k (fun x => ({ x with sq := rest } : Slot).refill)
        if t.dev == s.ownDev && t.core == c then
          if t.isLocal then
            if s.localHeld c (r.start r.off) r.len true then s
            else if s.storeUse c r == .array then pop.storeLocal c r
            else pop
          else if r.failed then s.pageDrop c k r
          else if s.guardedN r.addr (if r.leg.isSome then 1 else r.len) true then s
          else if s.lineReady c r.addr then (if s.hitServed c r.addr r.qos then pop.storeHome c r else s)
          else (s.askWalk c r.addr r.qos (headKey c k)).modSlot c k (·.headWaits false)
        else if kind == .uo && r.op != .legend && !r.counted then
          if sl.combRoom t (r.pieces t) then (r.pieces t).foldl (fun x p => x.combine c k r t p) pop else s
        else
          (pop.modSlot c k (fun x => { x with unacked := x.unacked ++ [{ id := r.id, ord := r.id, tgt := t, kind }] })).sendPacket
            { src := (c, k), unit := 0, dev := t.dev, core := t.core, isLocal := t.isLocal, dom := s.domainOf c k, cls := r.qos,
              body := .store r }

/-! ### Waiting for every earlier store (R195, R211, R270) -/

/-- Whether a store of the slot with an id below `upTo` is not yet acknowledged. -/
def Slot.storesBefore (sl : Slot) (upTo : Nat) : Bool :=
  sl.queued.any (fun r => r.id < upTo) || sl.comb.any (fun e => e.ord < upTo) || sl.unacked.any (fun u => u.ord < upTo)

/-- The same for the firing of an actor's slot, wherever it runs. -/
def State.storesBefore (s : State) (h : Nat × Nat) (upTo : Nat) : Bool :=
  (s.slot h.1 h.2).storesBefore upTo ||
  (match (s.slot h.1 h.2).awayAt with | some g => (s.slot g.1 g.2).storesBefore upTo | none => false)

/-- Send what the combining buffers still hold of those stores. -/
def State.flushBefore (s : State) (h : Nat × Nat) (upTo : Nat) : State :=
  let s1 := s.flushComb h.1 h.2 (fun e => e.ord < upTo)
  match (s1.slot h.1 h.2).awayAt with
  | some g => s1.flushComb g.1 g.2 (fun e => e.ord < upTo)
  | none => s1

/-- The wait of BARA, TEND, JOB, DEEP and SSTART: the combining buffer is sent, then every earlier store is acknowledged. -/
def releaseAll : M Unit := do
  let s ← getS
  let (c, k) := s.at_
  let sl := s.slot c k
  if !sl.comb.isEmpty then askFor (fun s => (s.flushComb c k (fun _ => true)).stallCur .release)
  else if !sl.sq.isEmpty || !sl.unacked.isEmpty then stallOn .release
  else pure ()

/-! ### Order of arrival (R249, R271) -/

/-- Whether a packet is a request that its source's earlier requests to the same home precede. -/
def Packet.isRequest (p : Packet) : Bool :=
  match p.body with
  | .store _ => true | .load .. => true | .lane .. => true | .bank .. => true | .bspan .. => true | .atomic .. => true
  | _ => false

/-- Whether a packet crosses the fabric in the order of its issue: every kind that R384 names. -/
def Packet.crosses (p : Packet) : Bool :=
  p.isRequest || (match p.body with | .msg _ _ => true | .drainBlock .. => true | .context _ => true | _ => false)

def Packet.isUoLoad (p : Packet) : Bool :=
  match p.body with
  | .load _ _ _ _ _ _ _ uo _ => uo
  | .lane _ _ _ _ uo => uo
  | _ => false

/-- A request for UO accesses: a load, or an entry of the combining buffer. -/
def Packet.isUo (p : Packet) : Bool :=
  p.isUoLoad || (match p.body with | .store r => r.op != .legend && (match r.chk with | .ok _ .uo => true | _ => false) | _ => false)

/-- Whether a load reads a byte that a store of its slot writes (R265). -/
def Packet.loadMeets (p q : Packet) : Bool :=
  let meets (a n : Nat) (r : StoreReq) : Bool :=
    p.src == q.src && p.isLocal == q.isLocal &&
      (let b := r.start (if q.isLocal then r.off else r.addr); decide (a < b + r.len) && decide (b < a + n))
  match p.body, q.body with
  | .load _ _ a n _ _ _ _ _, .store r => meets a n r
  | .lane _ _ a n _, .store r => meets a n r
  | _, _ => false

/-- Whether request p of a core may be performed at their target before its earlier request q: UO loads are sent in any order among the
UO accesses of the core that R265 does not hold (R266, R271). -/
def Packet.passes (p q : Packet) : Bool :=
  (p.isUoLoad && q.isUo && !p.loadMeets q) || (p.isUo && q.isUoLoad && !q.loadMeets p)

/-- Whether packet i of the network may be performed now: no earlier request of its source core to its home remains, UO
loads apart (R249); none of its source core to its device, where that is another device (R384). -/
def State.mayArrive (s : State) (i : Nat) (p : Packet) : Bool :=
  (s.net.take i).all (fun q =>
    if p.dev != s.ownDev then !(q.crosses && q.src.1 == p.src.1 && q.dev == p.dev)
    else !(q.isRequest && q.src.1 == p.src.1 && q.dev == p.dev && q.core == p.core) || p.passes q)

def State.dropPacket (s : State) (i : Nat) : State := { s with net := ldel s.net i }
def State.setPacket (s : State) (i : Nat) (p : Packet) : State := { s with net := lput s.net i p }

/-- A reply to the source of a packet; one from another device crosses the fabric. -/
def State.reply (s : State) (p : Packet) (b : Body) : State :=
  s.sendPacket { src := (if p.dev == s.ownDev then p.core else farSource p.dev, 0), unit := 0, dev := s.ownDev, core := p.src.1, slot := p.src.2, body := b }

/-! ### The traverse ring (R278) -/

/-- Record a store that arrives over the network. -/
def State.traverse (s : State) (p : Packet) (addr : Nat) (size : Nat) (atomic : Bool) : State :=
  let t := (s.core p.core).trav
  if !t.en || (p.isLocal && !t.lmem) || p.dom != t.domain.toNat || p.src.1 == p.core then s
  else
    let w := 2 ^ 63 + (if atomic then 2 ^ 31 else 0) + (if p.isLocal then 2 ^ 30 else 0) + s.ownDev * 2 ^ 22 +
      p.src.1 * 2 ^ 10 + p.src.2 * 2 ^ 8 + size % 128
    let r : TravRec := { addr := BitVec.ofNat 64 (if p.isLocal then 0xFC * 2 ^ 56 + addr else addr),
                         cyc := (s.core p.core).cyc, word := BitVec.ofNat 64 w }
    let bump (x : BitVec 32) : BitVec 32 := if x == BitVec.allOnes 32 then x else x + 1
    s.modCore p.core (fun x => { x with trav :=
      if x.trav.ring.length < 256 then { x.trav with ring := x.trav.ring ++ [r] }
      else if x.trav.stop then { x.trav with lost := bump x.trav.lost }
      else { x.trav with ring := x.trav.ring.drop 1 ++ [r], lost := bump x.trav.lost } })

/-! ### Arrivals -/

/-- The default operation of a personality bank for a store as it was issued (R131, R140). Its status is discarded; the first
result says that a HIST bin saturated (R139). -/
def State.putDefault (s : State) (core : Nat) (r : StoreReq) : Bool × State :=
    let bs := r.data.map (fun b => b.getD 0)
    let put (n : Nat) (vs : List Nat) : Bool × State :=
      match s.plainPut core (r.off / bankBytes) (r.off % bankBytes) n vs 0 with
      | .ok (_, sat, s') => (sat, s')
      | .error _ => (false, s)
    match r.op with
    | .plain n => put n [bytesToNat bs]
    | .pair n => put n [bytesToNat (bs.take n), bytesToNat (bs.drop n)]
    | .vec => put 32 [bytesToNat bs]
    | _ => (false, s)

/-- A remote store at local memory (R127): written to an ARRAY bank, performed as the default operation of a personality
bank, else discarded. -/
def State.arriveOne (s : State) (core : Nat) (r : StoreReq) : Bool × State :=
  match s.storeUse core r with
  | .array => (false, s.storeLocal core r)
  | .personality => s.putDefault core r
  | _ => (false, s)

/-- A store at local memory, or each store that a combining-buffer entry holds, in their order: the bytes of the entry's line at an
ARRAY bank, at a personality bank its default operation, once for each store (R127, R131; DEDUCED, log entry 46). -/
def State.arriveLocal (s : State) (core : Nat) (r : StoreReq) : Bool × State :=
  if r.op == .merged && !r.parts.isEmpty then
    r.parts.foldl (fun (a : Bool × State) m =>
      let q : StoreReq := { r with off := m.off, whole := m.whole, data := m.data, op := m.op, parts := [] }
      let (sat, s1) := a.2.arriveOne core
        (if a.2.storeUse core q == .array then { q with data := m.data.take (64 - m.off % 64) } else q)
      (a.1 || sat, s1)) (false, s)
  else s.arriveOne core r

/-- Whether a held range holds an access that arrives at local memory: at a personality bank it is an operation on the bank, which
any range of the bank holds (R134, R260). -/
def State.arrivalHeld (s : State) (core off n : Nat) (anySense : Bool) : Bool :=
  s.localHeld core off n anySense || (s.bankUse1 core off == .personality && s.bankHeld core (off / bankBytes))

/-- The slot where the firing that sent a store now runs: its reply is forwarded there (R252). -/
def State.holderOf (s : State) (id : Nat) : Nat → Nat × Nat → Nat × Nat
  | 0, p => p
  | f + 1, p =>
    match (s.core p.1).waypoints.find? (fun w => w.slot == p.2 && w.owed.contains id) with
    | some w => s.holderOf id f w.guest
    | none => p

/-- Perform the remote store that packet i carries, and acknowledge it (R249). -/
def State.storeArrives (s : State) (i : Nat) (p : Packet) (r : StoreReq) : State :=
  if s.isLost p.dev then ((s.dropPacket i).listLost p.dev).reply p (.ack r.id false)
  else if p.dev != s.ownDev then (s.dropPacket i).reply p (.ack r.id false)
  else if p.isLocal then
    if s.arrivalHeld p.core (r.start r.off) r.len true then s
    else
      let (sat, s1) := (s.dropPacket i).arriveLocal p.core r
      (s1.traverse p r.off r.size false).reply p (.ack r.id sat)
  else if p.failed then
    let h := s.holderOf r.id 8 p.src
    ((s.dropPacket i).pageDrop h.1 h.2 r).reply p (.ack r.id false)
  else if s.guardedN r.addr (if r.leg.isSome then 1 else r.len) true then s
  else if s.lineReady p.core r.addr then
    if s.hitServed p.core r.addr p.cls then (((s.dropPacket i).storeHome p.core r).traverse p r.addr r.size false).reply p (.ack r.id false)
    else s
  else (s.askWalk p.core r.addr p.cls (packetKey r.id 0)).setPacket i { p with waiting := true }

/-- What a remote load finds (R127, R140, R145). -/
def State.loadAt (s : State) (p : Packet) (a n size : Nat) (leg : Bool) (pair : Nat) (xa : BitVec 64) :
    Answer (List Byte) × Option (BitVec 3) × Bool × State :=
  if p.isLocal then
    let part := !leg && n != (if pair == 0 then size else size * pair)
    match s.bankUse1 p.core a with
    | .array =>
      (.ok (if leg then bvBytes 2 (s.localLeg p.core a) else s.localRead p.core a n), none,
       s.localPoison p.core a n, s)
    | .absent =>
      if part && (s.bank p.core (a / bankBytes)).pers != 0 then (.trap .bankop xa, none, false, s)
      else (.ok (List.replicate (if leg then 2 else n) 0), some 3, false, s)
    | _ =>
      if pair == 0 || leg || n != size * pair then (.trap .bankop xa, none, false, s)
      else match s.plainTake p.core (a / bankBytes) (a % bankBytes) size pair xa with
        | .ok (vs, st, s') => (.ok (vs.flatMap (natToBytes size)), some (BitVec.ofNat 3 st),
            s.takeBad p.core (a / bankBytes) (subOf (s.bank p.core (a / bankBytes)) (a % bankBytes)) pair, s')
        | .error (c, v) => (.trap c v, none, false, s)
  else
    let bad := s.poison.contains (.line (line64 a))
    if leg then let (l, s') := s.legHome p.core a p.cls; (.ok (bvBytes 2 l), none, bad, s')
    else let (bs, s') := s.readHome p.core a n p.cls; (.ok bs, none, bad, s')

/-- Perform the remote load that packet i carries, and reply (R249). -/
def State.loadArrives (s : State) (i : Nat) (p : Packet) (rid part a n size : Nat) (leg : Bool) (pair : Nat) (xa : BitVec 64) :
    State :=
  if s.isLost p.dev then (s.dropPacket i).reply p (.loadReply rid part (.ok []) none true)
  else if p.dev != s.ownDev then
    let (bs, s1) := s.freeBytes (if leg then 2 else n)
    (s1.dropPacket i).reply p (.loadReply rid part (.ok bs) none false)
  else if p.isLocal && s.arrivalHeld p.core (if leg then line64 a else a) (if leg then 64 else n) false then s
  else if !p.isLocal && s.guardedN a n false then s
  else if !p.isLocal && !s.lineReady p.core a then s.askWalk p.core a p.cls (packetKey rid part)
  else if !p.isLocal && !s.hitServed p.core a p.cls then s
  else
    let (r, bst, bad, s1) := s.loadAt p a n size leg pair xa
    (s1.dropPacket i).reply p (.loadReply rid part r bst bad)

/-! ### Replies -/

/-- Merge BST of the parts: a later status other than none stands. -/
def orBst (a b : Option (BitVec 3)) : Option (BitVec 3) := match b with | some _ => b | none => a

/-- Every packet of a load leaves the network: one of its parts has trapped, and the others have no effect. -/
def State.dropLoad (s : State) (rid : Nat) : State :=
  { s with net := s.net.filter (fun p => match p.body with
      | .load r .. => r != rid | .loadReply r .. => r != rid | _ => true) }

/-- Send the next part that waited for an earlier SO part of its load, once none that was sent remains (R266). -/
def State.sendLater (s : State) (c k : Nat) (o : Owed) : State × Owed :=
  let out := (o.got.zip o.kinds).zipIdx.any (fun x => x.1.1.isNone && x.1.2 == .so && !o.later.any (fun l => l.1 == x.2))
  match o.later with
  | [] => (s, o)
  | x :: rest => if out then (s, o) else (s.sendPacket (s.loadPacket c k o x.1 x.2), { o with later := rest })

/-- The reply of a load part that slot k of core c is owed (R249). -/
def State.loadReplied (s : State) (i : Nat) (c k rid part : Nat) (r : Answer (List Byte)) (bst : Option (BitVec 3)) (bad : Bool) :
    State :=
  let sl := s.slot c k
  match sl.owed.find? (fun o => o.rid == rid) with
  | none => s
  | some o =>
    let held : Option Nat := match sl.pend with | some (.load r len _) => if r == rid then some len else none | _ => none
    let drop (s : State) : State := s.modSlot c k (fun x => { x with owed := x.owed.filter (fun y => y.rid != rid) })
    match r with
    | .trap cause v =>
      if held.isSome && !s.canReturn c k then s
      else if held.isSome then ((drop (s.dropLoad rid)).unpop c k).takeTrap c k cause v sl.thr.pc
      else (drop (s.dropLoad rid)).modSlot c k (·.poisonDst o.dst o.addr)
    | .ok bs =>
      let o1 := { o with got := lput o.got part (some bs), bst := orBst o.bst bst, poisoned := o.poisoned || bad }
      if o1.got.all Option.isSome then
        match (drop s).finishLoad c k o1 with
        | none => s
        | some s1 => match held with
          | some len => (s1.dropPacket i).modSlot c k (·.resume len)
          | none => s1.dropPacket i
      else
        let (s1, o2) := (s.dropPacket i).sendLater c k o1
        s1.modSlot c k (fun x => { x with owed := x.owed.map (fun y => if y.rid == rid then o2 else y) })

/-- An acknowledgement for a slot: UAS falls by one (R23), and a saturation is told (R139). -/
def State.acked (s : State) (i c k id : Nat) (sat : Bool) : State :=
  if (s.slot c k).unacked.any (fun u => u.id == id) then
    (s.dropPacket i).modSlot c k (fun x =>
      { x with unacked := x.unacked.filter (fun u => u.id != id), thr := if sat then x.thr.orFlags flSATF else x.thr })
  else s

/-- The request or store that a reply answers. -/
def Packet.replyId (p : Packet) : Option Nat :=
  match p.body with
  | .ack id _ => some id
  | .loadReply rid .. => some rid
  | _ => none

/-- A waypoint of the core forwards a late reply or acknowledgement (R252); it is freed with the last. A load's further
parts keep its entry. One for a firing on another device leaves this machine. -/
def State.forward (s : State) (i : Nat) (p : Packet) : State :=
  match p.replyId with
  | none => s
  | some id =>
    match (s.core p.core).waypoints.findIdx? (fun w => w.slot == p.slot && w.owed.contains id) with
    | none => s
    | some n =>
      match (s.core p.core).waypoints[n]? with
      | none => s
      | some w =>
        let more := (ldel s.net i).any (fun q => q.replyId == some id || (match q.body with | .load r .. => r == id | _ => false)) ||
          (s.slot w.guest.1 w.guest.2).owed.any (fun o => o.rid == id && !o.later.isEmpty)
        let w1 := { w with owed := if more then w.owed else w.owed.filter (· != id) }
        (if 4096 ≤ w.guest.1 then s.dropPacket i else s.setPacket i { p with core := w.guest.1, slot := w.guest.2 }).modCore p.core (fun x =>
          { x with waypoints := if w1.owed.isEmpty then ldel x.waypoints n else lput x.waypoints n w1 })

/-! ### Accesses that wait in their slice (R321, R363) -/

/-- Whether what a packet asks waits at its slice for the deep guard to lift or for a page that moves. -/
def State.heldInSlice (s : State) (p : Packet) : Bool :=
  s.packetGuarded p || (p.dev == s.ownDev && s.walks.any (fun w => w.moving && p.wants w.line w.slice))

/-- Whether the head of a slot's store queue waits so. -/
def State.headInSlice (s : State) (c k : Nat) : Bool :=
  match (s.slot c k).sq with
  | [] => false
  | r :: _ => s.storeGuarded r || (match r.chk with
      | .ok t _ => !t.isLocal && t.dev == s.ownDev &&
          s.walks.any (fun w => w.moving && w.line == line256 r.addr && w.slice == sliceOf t.core r.addr)
      | _ => false)

/-- A store that was sent is in its slot's queue again, in its place. -/
def Slot.requeue (sl : Slot) (r : StoreReq) : Slot :=
  match sl.unacked.find? (fun u => u.id == r.id) with
  | none => sl
  | some u =>
    let q : StoreReq := { r with id := u.ord, counted := true, waiting := false, failed := false }
    { sl with
      unacked := sl.unacked.filter (fun x => x.id != r.id)
      sq := sl.sq.takeWhile (fun x => x.id < q.id) ++ q :: sl.sq.dropWhile (fun x => x.id < q.id) }

/-- A part of a load that was sent is to be sent again. -/
def Owed.unsend (o : Owed) (core part a n : Nat) (dev : Nat) (xa : BitVec 64) : Owed :=
  { o with later := o.later ++
      [(part, { part := .glob a n, xa := xa.toNat, tgt := { dev, core, isLocal := false }, kind := lget .so o.kinds part })] }

/-- A pre-emption takes a slot at the boundary before an access that the deep guard or a moving page holds (R321, R363, R365): what
waits at a slice has had no effect, and is taken back. An atomic issues again; a store or load is sent again when the slot resumes. -/
def State.takeBack (s : State) (c k : Nat) : State :=
  let mine (p : Packet) : Bool := p.unit == 0 && p.src == (c, k) && s.heldInSlice p
  (s.net.filter mine).foldl (fun s p => match p.body with
    | .store r => s.modSlot c k (·.requeue r)
    | .load rid part a n _ _ _ _ xa => s.modSlot c k (fun x => { x with
        owed := x.owed.map (fun o => if o.rid == rid then o.unsend p.core part a n p.dev xa else o) })
    | .atomic .. => s.unpop c k
    | _ => s) { s with net := s.net.filter (fun p => !mine p) }

/-- Whether every part that a load still lacks has been taken back. -/
def Owed.allBack (o : Owed) : Bool := o.got.zipIdx.all (fun x => x.1.isSome || o.later.any (fun l => l.1 == x.2))

/-- What was taken back of a slot's loads is sent again, in its turn. -/
def State.sendBack (s : State) (c k : Nat) : State :=
  ((s.slot c k).owed.filter (·.allBack)).foldl (fun s o =>
    let (s1, o1) := s.sendLater c k o
    s1.modSlot c k (fun x => { x with owed := x.owed.map (fun y => if y.rid == o.rid then o1 else y) })) s

end Sys2Proof.Machine
end

