-- ==== Sys2Proof/Machine/Memory.lean ====
section
/-! DEFINITION. The memory instructions LD to LGST, PREF, FENCE and DRAIN, on a core and on an SVC's buffer (R140-R146,
R273, R274, R308, R312). -/

namespace Sys2Proof.Machine

/-! ### An SVC's buffer (R308, R311) -/

def bufferBytes : Nat := 0x40000

/-- The SVC that issues; meaningful for an SVC's agent. -/
def State.svcAt (s : State) : Nat := match s.cur with | .svc n => n | .slot _ _ => 0
def curSvc : M Svc := fun s => .ok (s.svc s.svcAt, s)
def modCurSvc (f : Svc → Svc) : M Unit := modS (fun s => s.modSvc s.svcAt f)
def onSvc : M Bool := fun s => .ok ((match s.cur with | .svc _ => true | .slot _ _ => false), s)

/-- The range check of R308. -/
def bufferRange (e : BitVec 64) (n : Nat) : M Nat :=
  if e.toNat < bufferBytes && e.toNat + n ≤ bufferBytes then pure e.toNat else raise .rights e

/-- The bytes of the buffer that a row access names. -/
def RowAccess.len (r : RowAccess) : Nat := match r.scan with | some sc => 256 * sc.lines.length | none => 256

/-- Whether a buffer access waits on the row scoreboard: a read's destination holds loads and stores, a WRROW's source
holds stores (R311). -/
def Svc.rowHeld (v : Svc) (off n : Nat) (store : Bool) : Bool :=
  v.rows.any (fun r => (store || !r.write) && decide (off < r.off + r.len) && decide (r.off < off + n))

def bufferLoad (e : BitVec 64) (n : Nat) : M (List Byte) := do
  let off ← bufferRange e n
  let v ← curSvc
  let s ← getS
  if v.rowHeld off n false then stallOn .range
  else if (List.range (n / 64 + 2)).any (fun i => 64 * i < off % 64 + n && s.poison.contains (.buffer s.svcAt (off / 64 + i))) then
    raise .machinecheck e
  else pure (Mem.readN v.mem off n)

def bufferStore (e : BitVec 64) (bs : List Byte) : M Unit := do
  let off ← bufferRange e bs.length
  let v ← curSvc
  if v.rowHeld off bs.length true then stallOn .range
  else modCurSvc (fun x => { x with mem := Mem.writeN x.mem off bs })

/-! ### Plain accesses of a core -/

def setBst (v : Nat) : M Unit := modRegs (fun r => { r with bst := BitVec.ofNat 3 v })

/-- Whether an access of a slot on an SO or RC page or bank has yet to be performed. -/
def State.releasing (s : State) (c k : Nat) : Bool :=
  let sl := s.slot c k
  sl.sq.any (fun r => match r.chk with | .ok _ .uo => false | _ => true) ||
    sl.unacked.any (fun u => u.kind != .uo) || sl.owed.any (·.opens (· != .uo)) || s.gathering c k (fun _ _ kd => kd != .uo)

/-- What a `.rel` access waits for before it is sent (R269): every earlier access on an SO or RC page or bank. -/
def releaseWait : M Unit := do
  let s ← getS
  if s.releasing s.at_.1 s.at_.2 then stallOn .release else pure ()

/-- How a plain access meets its memory: its own core's bank, or anything else. -/
inductive Site where
  | own (core off : Nat) (u : BankUse)
  | away
  deriving DecidableEq, Repr

/-- The windows' checks of an access (R126, R243), and whether it is to a bank of the issuing core. -/
def siteOf (e : BitVec 64) (n : Nat) : M Site := fun s =>
  let (c, k) := s.at_
  match s.locate c k e.toNat n with
  | none => .error (.trap .rights e)
  | some (.loc d core o m) =>
    if d == s.ownDev && core == c then .ok (.own core o (s.bankUse core o m), s) else .ok (.away, s)
  | some _ => .ok (.away, s)

/-- Whether M's ordering field holds an acquire or a release. -/
def isAcq (o : Op) : Bool := o.m.toNat % 2 == 1
def isRel (o : Op) : Bool := o.m.toNat / 2 % 2 == 1

/-- Whether an operand is a channel or a queue of the core. -/
def ofCore : Opd → Bool
  | .chan _ => true | .queue _ => true | _ => false

/-- M's placement hint. An instruction with a channel or queue operand issues in its actor's slot (R253), so its access stays
remote whatever the hint (log entry 14). -/
def placement (o : Op) : Nat := if ofCore o.d || ofCore o.b || ofCore o.c then 1 else o.m.toNat / 4

/-- Values delivered at once to a load's destination. -/
def deliverNow (dst : LoadDst) (bs : List Byte) : M Unit := do
  claimDst dst
  let s ← getS
  let (c, k) := s.at_
  match s.deliver c k dst bs with
  | some s' => modS (fun _ => s')
  | none => stallOn (.queue 0)

/-- A load whose data hold an uncorrectable error writes nothing: the next read of its destination raises MACHINECHECK (R332). -/
def deliverBad (dst : LoadDst) (a : BitVec 64) : M Unit := do
  claimDst dst
  modS (fun s => (s.modSlot s.at_.1 s.at_.2 (·.poisonDst dst a)).modCore s.at_.1 (fun x => dst.queues.foldl (fun x q => x.markBad q a) x))

/-- LD, LDP and VLD of `count` items of n bytes (R140, R143, R144). -/
def plainLoad (o : Op) (n count : Nat) (dst : LoadDst) : M Flow := do
  let a ← rdReg o.a
  let e := a + byteOffset o
  let site ← siteOf e (n * count)
  match site with
  | .own core off u =>
    match u with
    | .array =>
      watch true false [(e.toNat, n * count)]
      issueLoad [(e.toNat, n * count)] n count false (isAcq o) none dst (lenBytes o.len)
    | .split =>
      watch true false [(e.toNat, n * count)]
      issueLoad [(e.toNat, n * count)] n count false (isAcq o) none dst (lenBytes o.len)
    | .absent =>
      watch true false [(e.toNat, n * count)]
      deliverNow dst (List.replicate (n * count) 0)
      setBst 3
      pure .next
    | .straddle => raise .bankop e
    | .personality =>
      let s ← getS
      match s.plainTake core (off / bankBytes) (off % bankBytes) n count e with
      | .error (c, v) => raise c v
      | .ok _ =>
        watch true false [(e.toNat, n * count)]
        loadOrder .rc { dev := s.ownDev, core, isLocal := true } []
        let s ← getS
        if s.bankHeld core (off / bankBytes) then stallOn .range
        else match s.plainTake core (off / bankBytes) (off % bankBytes) n count e with
          | .error (c, v) => raise c v
          | .ok (vs, st, s') =>
            let bad := s.takeBad core (off / bankBytes) (subOf (s.bank core (off / bankBytes)) (off % bankBytes)) count
            modS (fun _ => s')
            if bad then deliverBad dst e else deliverNow dst (vs.flatMap (natToBytes n))
            setBst st
            pure .next
  | .away =>
    watch true false [(e.toNat, n * count)]
    issueLoad [(e.toNat, n * count)] n count false (isAcq o) (some (placement o)) dst (lenBytes o.len)

/-- Whether a store to another core's local memory is a put into a personality bank, which is a load too where it is watched (R345). -/
def State.awayPut (s : State) (c k a n : Nat) : Bool :=
  match s.locate c k a n with
  | some (.loc d core off m) => d == s.ownDev && core != c && s.bankUse core off m == .personality
  | _ => false

/-- ST, STP and VST of items of n bytes (R140, R143, R144). A store with `.rel` issues once what it releases has been performed (R269):
a record that arrives first ends the wait in its STOREFAULT (R339). -/
def plainStore (o : Op) (n : Nat) (vs : List Nat) (op : StoreOp) : M Flow := do
  let a ← rdReg o.a
  let e := a + byteOffset o
  let total := n * vs.length
  let site ← siteOf e total
  let queued (hint : Option Nat) : M Flow := do
    let s ← getS
    watch (s.awayPut s.at_.1 s.at_.2 e.toNat total) true [(e.toNat, total)]
    if isRel o then releaseWait else pure ()
    let rs ← storeEntries e.toNat (vs.flatMap (natToBytes n)) none op (isRel o)
    routeStores hint rs
    enqueue rs
    askFills rs
    modS (fun s => s.settle s.at_.1 s.at_.2)
    pure .next
  match site with
  | .away => queued (some (placement o))
  | .own core off u =>
    match u with
    | .array => queued none
    | .split => do
      setBst 3
      queued none
    | .straddle => raise .bankop e
    | .absent =>
      watch false true [(e.toNat, total)]
      setBst 3
      pure .next
    | .personality =>
      let s ← getS
      match s.plainPut core (off / bankBytes) (off % bankBytes) n vs e with
      | .error (c, v) => raise c v
      | .ok _ =>
        watch true true [(e.toNat, total)]
        loadOrder .rc { dev := s.ownDev, core, isLocal := true } []
        if isRel o then releaseWait else pure ()
        let s ← getS
        if s.bankHeld core (off / bankBytes) then stallOn .range
        else match s.plainPut core (off / bankBytes) (off % bankBytes) n vs e with
          | .error (c, v) => raise c v
          | .ok (st, sat, s') =>
            if s.putBad core (off / bankBytes) n vs then raise .machinecheck e else pure ()
            modS (fun _ => s')
            if sat then setFlags flSATF else pure ()
            setBst st
            pure .next

/-- The load destination that a D operand names. -/
def dstOfX (d : Opd) (sz : Nat) : LoadDst := match d with | .queue q => .q q.val sz | o => .x (regNum o) sz

/-- Bytes of the integer type T (R143). -/
def typeBytes (o : Op) : Nat := intWidth o.t.toNat / 8

/-! ### LD, ST, LDP, STP, VLD, VST -/

/-- LD (R142, R143, R308). -/
def execLd (o : Op) (s : State) : Host.Outcome State Fault Refusal :=
  runScalar 0x60 o (do
    let n := typeBytes o
    if ← onSvc then
      let a ← rdReg o.a
      let bs ← bufferLoad (a + byteOffset o) n
      dstX o.d (bytesBv 64 bs)
      pure .next
    else plainLoad o n 1 (dstOfX o.d n)) s

/-- ST (R142, R143, R308). -/
def execSt (o : Op) (s : State) : Host.Outcome State Fault Refusal :=
  runScalar 0x61 o (do
    let n := typeBytes o
    let b ← srcX 0 o.b
    if ← onSvc then
      let a ← rdReg o.a
      bufferStore (a + byteOffset o) (natToBytes n b.toNat)
      pure .next
    else plainStore o n [b.toNat] (.plain n)) s

/-- LDP (R142, R143). -/
def execLdp (o : Op) (s : State) : Host.Outcome State Fault Refusal :=
  runScalar 0x62 o (do
    let n := typeBytes o
    if ← onSvc then
      let a ← rdReg o.a
      let bs ← bufferLoad (a + byteOffset o) (2 * n)
      dstX o.d (bytesBv 64 (bs.take n))
      dstX o.c (bytesBv 64 (bs.drop n))
      pure .next
    else
      plainLoad o n 2 (match o.d, o.c with
        | .reg d, .reg c => .xx d.val c.val n
        | d, c => .qq d c n)) s

/-- STP (R142, R143). -/
def execStp (o : Op) (s : State) : Host.Outcome State Fault Refusal :=
  runScalar 0x63 o (do
    let n := typeBytes o
    let b ← srcX 0 o.b
    let c ← srcX 0 o.c
    if ← onSvc then
      let a ← rdReg o.a
      bufferStore (a + byteOffset o) (natToBytes n b.toNat ++ natToBytes n c.toNat)
      pure .next
    else plainStore o n [b.toNat, c.toNat] (.pair n)) s

/-- VLD (R144, R308). -/
def execVld (o : Op) (s : State) : Host.Outcome State Fault Refusal :=
  runScalar 0x64 o (do
    if ← onSvc then
      let a ← rdReg o.a
      let bs ← bufferLoad (a + byteOffset o) 128
      dstV o.d (bytesToNat bs)
      pure .next
    else plainLoad o 32 1 (match o.d with | .queue q => .vq q.val | d => .v (regNum d))) s

/-- VST (R144, R308). -/
def execVst (o : Op) (s : State) : Host.Outcome State Fault Refusal :=
  runScalar 0x65 o (do
    let b ← srcV 8 0 o.b
    if ← onSvc then
      let a ← rdReg o.a
      bufferStore (a + byteOffset o) (natToBytes 128 b)
      pure .next
    else plainStore o 32 [b] .vec) s

/-! ### VLDS and VSTS -/

/-- The enabled lanes' addresses of a strided access (R144). -/
def strideItems (mask : List Bool) (e b : BitVec 64) (n : Nat) : List (Nat × Nat) :=
  (mask.zipIdx.filter Prod.fst).map (fun x => ((e + b * BitVec.ofNat 64 x.2).toNat, n))

/-- Every enabled lane's checks of R126, R133 and R140 before any lane is accessed; the lanes that reach memory. -/
def laneSites (items : List (Nat × Nat)) : M (List Site) :=
  items.foldlM (fun acc it => do
    let e := BitVec.ofNat 64 it.1
    let x ← siteOf e it.2
    match x with
    | .own _ _ .personality => raise .bankop e
    | .own _ _ .straddle => raise .bankop e
    | x => pure (acc ++ [x])) []

/-- VLDS (R144). -/
def execVlds (o : Op) (s : State) : Host.Outcome State Fault Refusal :=
  runLanes 0x66 o (do
    let w := laneWidth o.t.toNat
    let s ← getS
    let mask ← laneMaskM o (lanesOf s.prof o.t.toNat)
    let a ← rdReg o.a
    let b ← rdReg o.b
    let items := strideItems mask (a + byteOffset o) b (w / 8)
    if ← onSvc then
      let _ ← items.foldlM (fun _ it => do let _ ← bufferRange (BitVec.ofNat 64 it.1) it.2; pure ()) ()
      let bs ← items.foldlM (fun acc it => do let x ← bufferLoad (BitVec.ofNat 64 it.1) it.2; pure (acc ++ x)) []
      dstLanes o.d w mask (loadLanes w mask bs 0)
      pure .next
    else
      let _ ← laneSites items
      watch true false items
      let base ← if mask.all id then pure 0 else oldV o.d
      issueLoad items (w / 8) 0 false (isAcq o) none
        (match o.d with
         | .queue q => .lanesq q.val w mask
         | d => .lanes (regNum d) w mask (BitVec.ofNat 256 base)) (lenBytes o.len)) s

/-- Put the lanes of an instruction of `len` bytes into the store queue, in order. Where it has not room for all, the instruction
issues with those it takes and holds its slot until the queue has taken the rest (R266). -/
def enqueueLanes (rs : List StoreReq) (len : Nat) : M Flow := do
  let sl ← curSlot
  let n := sqCap - sl.sq.length
  if uasCap < sl.uas + (rs.filter (·.counted)).length then stallOn .storeQueue
  else if n == 0 && !rs.isEmpty then stallOn .storeQueue
  else
    modCurSlot (fun x => { x with sq := x.sq ++ rs.take n })
    askFills rs
    if rs.length ≤ n then
      modS (fun s => s.settle s.at_.1 s.at_.2)
      pure .next
    else
      let s ← getS
      let (c, k) := s.at_
      holdIn ((s.holdFor .storeQueue (.stores (rs.drop n) len)).settle c k)

/-- The stores of enabled lanes, in ascending lane order; a lane at a spanned member changes nothing but BST (R154). A lane that
overlaps a held range of the issuing core's memory stalls the instruction where `wait` says so (R122). -/
def storeLanes (op : StoreOp) (items : List (Nat × Nat)) (vals : List Nat) (rel wait : Bool) (len : Nat) : M Flow := do
  let sites ← laneSites items
  watch false true items
  let s ← getS
  let held (x : (Nat × Nat) × Site) : Bool :=
    match x.2 with | .own core off _ => s.localHeld core off x.1.2 true | .away => false
  if wait && (items.zip sites).any held then stallOn .range
  else
    if rel then releaseWait else pure ()
    let rs ← ((items.zip vals).zip sites).foldlM (fun acc x => do
      match x.2 with
      | .own _ _ .absent => pure acc
      | _ =>
        let es ← storeEntries x.1.1.1 (natToBytes x.1.1.2 x.1.2) none op rel
        pure (acc ++ es)) ([] : List StoreReq)
    let gone (x : Site) : Bool := match x with | .own _ _ .absent => true | .own _ _ .split => true | _ => false
    if sites.any gone then setBst 3 else pure ()
    enqueueLanes rs len

/-- VSTS (R144). -/
def execVsts (o : Op) (s : State) : Host.Outcome State Fault Refusal :=
  runLanes 0x67 o (do
    let w := laneWidth o.t.toNat
    let s ← getS
    let n := lanesOf s.prof o.t.toNat
    let mask ← laneMaskM o n
    let a ← rdReg o.a
    let b ← rdReg o.b
    let v ← srcV w 0 o.c
    let items := strideItems mask (a + byteOffset o) b (w / 8)
    let vals := ((mask.zip (lanes w v n)).filter Prod.fst).map Prod.snd
    if ← onSvc then
      let _ ← items.foldlM (fun _ it => do let _ ← bufferRange (BitVec.ofNat 64 it.1) it.2; pure ()) ()
      let _ ← (items.zip vals).foldlM (fun _ x => bufferStore (BitVec.ofNat 64 x.1.1) (natToBytes (w / 8) x.2)) ()
      pure .next
    else
      storeLanes .lane items vals (isRel o) false (lenBytes o.len)) s

/-! ### Legends and PREF (R145, R146) -/

/-- LGLD (R145, R308). -/
def execLgld (o : Op) (s : State) : Host.Outcome State Fault Refusal :=
  runScalar 0x68 o (do
    let a ← rdReg o.a
    let e := a + byteOffset o
    if ← onSvc then
      let off ← bufferRange e 1
      let v ← curSvc
      if v.rowHeld (line64 off) 64 false then stallOn .range
      else
        dstX o.d ((LegMap.read v.leg (off / 64)).setWidth 64)
        pure .next
    else
      let dst : LoadDst := match o.d with | .queue q => .lgq q.val | d => .lgx (regNum d)
      let site ← siteOf e 1
      match site with
      | .own _ _ .personality => raise .bankop e
      | .own _ _ .absent =>
        watch true false [(e.toNat, 1)]
        deliverNow dst [0, 0]
        setBst 3
        pure .next
      | _ =>
        watch true false [(e.toNat, 1)]
        issueLoad [(e.toNat, 1)] 2 1 true false none dst (lenBytes o.len)) s

/-- LGST (R145, R308). -/
def execLgst (o : Op) (s : State) : Host.Outcome State Fault Refusal :=
  runScalar 0x69 o (do
    let b ← srcX 0 o.b
    let a ← rdReg o.a
    let e := a + byteOffset o
    let l : Legend := b.setWidth 16
    if ← onSvc then
      let off ← bufferRange e 1
      let v ← curSvc
      if v.rowHeld (line64 off) 64 true then stallOn .range
      else
        modCurSvc (fun x => { x with leg := LegMap.write x.leg (off / 64) l })
        pure .next
    else
      let site ← siteOf e 1
      match site with
      | .own _ _ .personality => raise .bankop e
      | .own _ _ .absent =>
        watch false true [(e.toNat, 1)]
        setBst 3
        pure .next
      | _ =>
        watch false true [(e.toNat, 1)]
        let rs ← storeEntries e.toNat [] (some l) .legend false
        enqueue rs
        askFills rs
        modS (fun s => s.settle s.at_.1 s.at_.2)
        pure .next) s

/-- PREF (R146): it asks for the line of an address whose entry is present, and has no other effect. -/
def execPref (o : Op) (s : State) : Host.Outcome State Fault Refusal :=
  runScalar 0x6A o (do
    let a ← rdReg o.a
    let e := (a + byteOffset o).toNat
    modS (fun s =>
      let (c, k) := s.at_
      if 2 ^ 56 ≤ e then s
      else match (s.core c).plbFind (s.checkDom c k) e with
        | none => s
        | some en =>
          let (dev, h) := en.home e
          let cls := (s.slot c k).regs.qos.toNat
          if !en.r || dev != s.ownDev || s.guardHeld e true || !s.stacksJoined (coreStack c) (coreStack h) then s
          else if s.lineReady h e then (if s.hitServed h e cls then s.fillL1 h e cls else s)
          else s.askWalk h e cls (prefKey c k))
    pure .next) s

/-! ### FENCE and DRAIN (R268, R273, R274, R312) -/

/-- Whether a target lies in a FENCE's scope, seen from a core (R268). -/
def inScope (own c scope : Nat) (t : Target) : Bool :=
  match scope with
  | 0 => t.dev == own && t.core == c
  | 1 => t.dev == own && clusterOf t.core == clusterOf c
  | 2 => t.dev == own
  | _ => true

/-- Whether FENCE's set E is not yet performed (R273). `all` takes in UO accesses. A store that has been denied and whose record
has not arrived is waited for: the wait ends in its STOREFAULT (R339). -/
def Slot.fencePending (sl : Slot) (ld st all : Bool) (p : Target → Bool) : Bool :=
  (ld && sl.owed.any (fun o => o.openParts.any (fun x => (all || x.2 != .uo) && p x.1))) ||
  (st && (sl.sq.any (fun r => match r.chk with | .ok t k => (all || k != .uo) && p t | .pending => true | .bad _ => true) ||
          sl.unacked.any (fun u => (all || u.kind != .uo) && p u.tgt)))

/-- FENCE (R273, R312). -/
def execFence (o : Op) (s : State) : Host.Outcome State Fault Refusal :=
  runScalar 0x6B o (do
    if ← onSvc then
      let v ← curSvc
      if v.rows.isEmpty && v.scan.isNone then pure .next else stallOn .fence
    else
      let s ← getS
      let (c, k) := s.at_
      let what := o.m.toNat % 4
      let all := what == 3
      let p := inScope s.ownDev c (o.m.toNat / 4)
      let sl := s.slot c k
      if all && sl.comb.any (fun e => p e.tgt) then
        askFor (fun s => (s.flushComb c k (fun e => p e.tgt)).stallCur .fence)
      else if sl.fencePending (what != 2) (what != 1) all p then stallOn .fence
      else if what != 2 && s.gathering c k (fun _ t kd => (all || kd != .uo) && p t) then stallOn .fence
      else pure .next) s

/-- DRAIN (R274): it waits whatever records arrive, and raises STOREFAULT at its own boundary where one is then pending. -/
def execDrain (o : Op) (s : State) : Host.Outcome State Fault Refusal :=
  runScalar 0x6C o (do
    let s ← getS
    let (c, k) := s.at_
    let s1 := (s.flushComb c k (fun _ => true)).modSlot c k (fun x => { x with draining := true })
    let sl := s1.slot c k
    if !sl.sq.isEmpty || !sl.comb.isEmpty || !sl.unacked.isEmpty || !sl.owed.isEmpty || s.gathering c k (fun _ _ _ => true) then holdIn (s1.stallCur .fence)
    else if sl.sfPending then holdIn (s1.noteIssue.takeStorefault c k sl.thr.pc)
    else
      modS (fun s => s.modSlot c k (fun x => { x with draining := false }))
      pure .next) s

end Sys2Proof.Machine
end

