-- ==== Sys2Proof/Machine/Atomics.lean ====
section
/-! DEFINITION. Atomics (R275-R277): their checks at issue, their performance at the target, and their reply. -/

namespace Sys2Proof.Machine

/-- The new value of an atomic in n bits, its flags, and whether it is written (R276). -/
def atomicNew (code n rm old b c : Nat) : Nat × Flags × Bool :=
  let o := old % 2 ^ n
  let x := b % 2 ^ n
  let pick (first : Bool) : Nat × Flags × Bool := (if first then o else x, 0, true)
  match code with
  | 0x70 => ((o + x) % 2 ^ n, 0, true)
  | 0x71 => (o &&& x, 0, true)
  | 0x72 => (o ||| x, 0, true)
  | 0x73 => (o ^^^ x, 0, true)
  | 0x74 => pick (toSigned n o ≤ toSigned n x)
  | 0x75 => pick (toSigned n x ≤ toSigned n o)
  | 0x76 => pick (o ≤ x)
  | 0x77 => pick (x ≤ o)
  | 0x78 => (x, 0, true)
  | 0x79 => (c % 2 ^ n, 0, o == x)
  | _ => let r := fpAdd (if n == 16 then f16 else f32) rm o x; (r.1, r.2, true)

/-- Where an atomic is performed: this core or another, local memory or a line. -/
structure AtomicSite where
  tgt : Target
  addr : Nat        -- the offset in local memory, or the virtual address
  kind : Kind
  deriving DecidableEq, Repr

/-- Whether local memory at an offset refuses atomics: not ARRAY, or spanned, itself or as the member that an ARRAY span's window
reaches there (R153, R276). -/
def State.noAtomic (s : State) (core off : Nat) : Bool :=
  let x := s.bank core (off / bankBytes)
  x.pers != 0 || x.spanned || (s.spanTarget core off).isSome

/-- The checks of an atomic at its issue (R276, R277, R332); TEND's decrement is not watched (R345). -/
def atomicSite (watched : Bool) (e : BitVec 64) (z : Nat) : M AtomicSite := do
  if e.toNat % z != 0 then raise .align e
  else
    let s ← getS
    let (c, k) := s.at_
    match s.locate c k e.toNat z with
    | none => raise .rights e
    | some (.loc d core off _) =>
      let own := d == s.ownDev && core == c
      if own && s.noAtomic core off then raise .bankop e
      else
        if watched then watch true true [(e.toNat, z)] else pure ()
        pure { tgt := { dev := d, core, isLocal := true }, addr := off, kind := if d == s.ownDev then s.localKind core off else .rc }
    | some (.glob a _) =>
      if watched then watch true true [(e.toNat, z)] else pure ()
      let en ← plbEntry a e
      requireRight en.a e
      let s ← getS
      let (dev, h) := en.home a
      requireRight (s.deviceOk dev) e
      if dev == s.ownDev && s.guardHeld a true then stallOn .guard
      else if dev != s.ownDev || s.lineReady h a then
        if dev == s.ownDev && h == c && !s.hitServed h a (s.slot c k).regs.qos.toNat then stallOn .backpressure
        else pure { tgt := { dev, core := h, isLocal := false }, addr := a, kind := en.kind }
      else if (s.slot c k).badLine == some (line256 a) then raise .page e
      else if !s.stacksJoined (coreStack c) (coreStack h) then stallOn .remoteReply
      else askFor (fun s => s.askMiss h a (s.slot c k).regs.qos.toNat (if h == c then .memReply else .remoteReply))

/-- What an atomic waits for before it is sent: the store queue, earlier acquires, SO order, its own buffered stores, and
for a release every earlier access on an SO or RC page (R265, R266, R269, R277). -/
def atomicOrder (st : AtomicSite) (z : Nat) (rel : Bool) : M Unit := do
  let sl ← curSlot
  let p : Part := if st.tgt.isLocal then .loc st.tgt.dev st.tgt.core st.addr z else .glob st.addr z
  let s ← getS
  let (c, k) := s.at_
  if !sl.sq.isEmpty then stallOn .storeQueue
  else if sl.acquiring then stallOn .remoteReply
  else if sl.storeOverlap p then stallOn .storeQueue
  else if st.kind == .so && sl.soPending then stallOn .remoteReply
  else if sl.farStore st.tgt || s.laneHolds c k st.kind st.tgt then stallOn .remoteReply
  else if rel then releaseWait else pure ()

/-- One atomic read and write at its target, on this device, whose line is present, in a class of service (R261): the old bits, the
flags, the state. -/
def State.atomicAt (s : State) (core : Nat) (isLocal : Bool) (addr code z rm b c cls : Nat) : Nat × Flags × State :=
  let (bs, s1) := if isLocal then (s.localRead core addr z, s) else s.readHome core addr z cls
  let old := bytesToNat bs
  let (v, fl, wr) := atomicNew code (8 * z) rm old b c
  let out := (natToBytes z v).map some
  (old, fl, if !wr then s1 else if isLocal then s1.localWrite core addr out else s1.writeHome core addr out cls)

/-- Room for one push, where D is a queue (R20). -/
def roomFor (d : Opd) : M Unit := claimDst (match d with | .queue q => .q q.val 8 | o => .x (regNum o) 8)

/-- Whether the bytes of an atomic hold an uncorrectable error (R332). -/
def State.bytesPoisoned (s : State) (core : Nat) (isLocal : Bool) (addr : Nat) : Bool :=
  if isLocal then s.poison.contains (.bank core (addr / 64)) else s.poison.contains (.line (line64 addr))

/-- An atomic instruction: checked, then performed at once in its own core, or sent and awaited. -/
def atomicOp (code : Nat) (o : Op) (s : State) : Host.Outcome State Fault Refusal :=
  runScalar code o (do
    let z := if code == 0x7A then (fmtOf o.t.toNat).width / 8 else typeBytes o
    let rm ← roundMode
    let before ← curCore
    let a ← rdReg o.a
    let b ← srcX (immValue o) o.b
    let cv ← if code == 0x79 then srcX (immValue o) o.c else pure 0
    let after ← curCore
    let e := a + byteOffset o
    let st ← atomicSite true e z
    roomFor o.d
    atomicOrder st z (isRel o)
    let s ← getS
    let (c, k) := s.at_
    if st.tgt.dev == s.ownDev && st.tgt.core == c then
      if st.tgt.isLocal && s.localHeld c st.addr z true then stallOn .range
      else if s.bytesPoisoned c st.tgt.isLocal st.addr then raise .machinecheck e
      else
        let (old, fl, s1) := s.atomicAt c st.tgt.isLocal st.addr code z rm b.toNat cv.toNat (s.slot c k).regs.qos.toNat
        modS (fun _ => s1)
        setFlags fl
        dstX o.d (BitVec.ofNat 64 old)
        pure .next
    else
      let (rid, s1) := s.fresh
      let s2 := s1.sendPacket {
        src := (c, k), unit := 0, dev := st.tgt.dev, core := st.tgt.core, isLocal := st.tgt.isLocal,
        dom := s.domainOf c k, cls := (s.slot c k).regs.qos.toNat,
        body := .atomic rid code st.addr z b cv (BitVec.ofNat 3 rm) false e }
      holdIn (s2.holdFor .remoteReply (.atomic rid o.d (lenBytes o.len) (before.lost after (s.slot c k).act.mbox.toNat)))) s

/-- AMADD (R276). -/
def execAmadd (o : Op) (s : State) : Host.Outcome State Fault Refusal := atomicOp 0x70 o s
/-- AMAND (R276). -/
def execAmand (o : Op) (s : State) : Host.Outcome State Fault Refusal := atomicOp 0x71 o s
/-- AMOR (R276). -/
def execAmor (o : Op) (s : State) : Host.Outcome State Fault Refusal := atomicOp 0x72 o s
/-- AMXOR (R276). -/
def execAmxor (o : Op) (s : State) : Host.Outcome State Fault Refusal := atomicOp 0x73 o s
/-- AMMIN (R276). -/
def execAmmin (o : Op) (s : State) : Host.Outcome State Fault Refusal := atomicOp 0x74 o s
/-- AMMAX (R276). -/
def execAmmax (o : Op) (s : State) : Host.Outcome State Fault Refusal := atomicOp 0x75 o s
/-- AMMINN (R276). -/
def execAmminn (o : Op) (s : State) : Host.Outcome State Fault Refusal := atomicOp 0x76 o s
/-- AMMAXN (R276). -/
def execAmmaxn (o : Op) (s : State) : Host.Outcome State Fault Refusal := atomicOp 0x77 o s
/-- AMSWAP (R276). -/
def execAmswap (o : Op) (s : State) : Host.Outcome State Fault Refusal := atomicOp 0x78 o s
/-- AMCAS (R276). -/
def execAmcas (o : Op) (s : State) : Host.Outcome State Fault Refusal := atomicOp 0x79 o s
/-- AMFADD (R276). -/
def execAmfadd (o : Op) (s : State) : Host.Outcome State Fault Refusal := atomicOp 0x7A o s

/-! ### Arrival and reply -/

/-- The reply to an atomic, or to TEND's decrement. -/
def atomicAnswer (rid : Nat) (tend : Bool) (r : Answer (BitVec 64 × BitVec 7)) : Body :=
  if tend then .tendReply rid (match r with | .ok x => .ok x.1 | .trap c v => .trap c v) else .atomicReply rid r

/-- The destination of an instruction that gets no value because its device is lost (R385). -/
def Slot.lostDst (sl : Slot) (d : Opd) (xa : BitVec 64) : Slot :=
  match d with | .reg n => sl.poisonDst (.x n.val 8) xa | _ => sl

/-- The same of a queue destination: a mark stands where the value would (R332, R385). -/
def State.lostPush (s : State) (c : Nat) (d : Opd) (xa : BitVec 64) : State :=
  match d with | .queue q => s.modCore c (·.markBad q.val xa) | _ => s

/-- An atomic at a lost device completes with no value; TEND, which reads the value itself, raises MACHINECHECK (R385). -/
def State.atomicLost (s : State) (i : Nat) (p : Packet) (rid : Nat) (tend : Bool) (xa : BitVec 64) : State :=
  let (c, k) := p.src
  match (s.slot c k).pend with
  | some (.atomic rid' d len _) =>
    if rid' == rid then ((s.dropPacket i).lostPush c d xa).modSlot c k (fun x => (x.lostDst d xa).resume len) else s.dropPacket i
  | _ => (s.dropPacket i).reply p (atomicAnswer rid tend (.trap .machinecheck xa))

/-- Perform the atomic that packet i carries (R277). -/
def State.atomicArrives (s : State) (i : Nat) (p : Packet) (rid code addr z : Nat) (b c : BitVec 64) (rm : BitVec 3)
    (tend : Bool) (xa : BitVec 64) : State :=
  let answer (s : State) (r : Answer (BitVec 64 × BitVec 7)) : State := (s.dropPacket i).reply p (atomicAnswer rid tend r)
  if s.isLost p.dev then s.atomicLost i p rid tend xa
  else if p.dev != s.ownDev then
    let (w, s1) := s.free
    answer s1 (.ok (BitVec.ofNat 64 (w.toNat % 2 ^ (8 * z)), 0))
  else if p.isLocal && s.noAtomic p.core addr then answer s (.trap .bankop xa)
  else if p.isLocal && s.localHeld p.core addr z true then s
  else if !p.isLocal && s.guardHeld addr true then s
  else if !p.isLocal && !s.lineReady p.core addr then s.askWalk p.core addr p.cls (packetKey rid 0)
  else if !p.isLocal && !s.hitServed p.core addr p.cls then s
  else if s.bytesPoisoned p.core p.isLocal addr then answer s (.trap .machinecheck xa)
  else
    let (old, fl, s1) := s.atomicAt p.core p.isLocal addr code z rm.toNat b.toNat c.toNat p.cls
    answer (s1.traverse p addr z true) (.ok (BitVec.ofNat 64 old, fl))

/-- Write an x destination of slot k of core c after its instruction's reply; none while a queue has no room. -/
def State.writeDst (s : State) (c k : Nat) (d : Opd) (v : BitVec 64) : Option State :=
  match d with
  | .queue q => ((s.core c).push q.val (v.setWidth 256)).map (fun x => s.setCore c x)
  | .reg n => some (s.modSlot c k (fun x => { x.clearPoison (poisonKeyX n.val) with thr := x.thr.setX n.val v }))
  | _ => some s

/-- The reply of a slot's atomic: the old value, AMFADD's flags, and the instruction completes; or its precise fault. -/
def State.atomicReplied (s : State) (i c k rid : Nat) (r : Answer (BitVec 64 × BitVec 7)) : State :=
  match (s.slot c k).pend with
  | some (.atomic rid' d len _) =>
    if rid' != rid then s
    else match r with
      | .trap cause v => if !s.canReturn c k then s else ((s.dropPacket i).unpop c k).takeTrap c k cause v (s.slot c k).thr.pc
      | .ok (old, fl) =>
        match (s.modSlot c k (fun x => { x with pend := none })).writeDst c k d old with
        | none => s
        | some s1 => (s1.dropPacket i).modSlot c k (fun x => ({ x with thr := x.thr.orFlags fl } : Slot).resume len)
  | _ => s

end Sys2Proof.Machine
end

