-- ==== Sys2Proof/Machine/BankInstr.lean ====
section
/-! DEFINITION. The bank instructions (R132-R154): at issue, at a bank of the issuing core or of another, and their reply. -/

namespace Sys2Proof.Machine

/-- The local-window address of a bank instruction (R133): BANKOP outside the windows, RIGHTS on a window violation. -/
def bankSite (e : BitVec 64) : M (Nat × Nat × Nat) := fun s =>
  let (c, k) := s.at_
  let top := e.toNat / 2 ^ 56
  if top != 0xFC && top != 0xFD && top != 0xFE then .error (.trap .bankop e)
  else match s.locate c k e.toNat 1 with
    | some (.loc d core off _) => .ok ((d, core, off), s)
    | _ => .error (.trap .rights e)

/-- A register that a reply will write must not be owed to a load (R18). -/
def claimX (n : Nat) : M Unit := claimDst (.x n 8)

/-- Whether a slot of a core has a queued store into one of its own banks: a change of the bank waits for it. -/
def Core.bankBusy (c : Core) (core own b : Nat) : Bool :=
  c.slots.toList.any (fun sl => sl.queued.any (fun r =>
    match r.chk with
    | .ok t _ => t.isLocal && t.dev == own && t.core == core && r.off / bankBytes == b
    | _ => false))

/-- Whether lanes of a VGATH or VSCAT whose checks are done are still to be performed at a bank: on the network, in a packet that
`p` picks, or in a slot of a core that `q` picks: its store queue, its combining buffer, the load lanes that are not yet sent. A BPERS falls wholly before such an instruction or after it (R123). -/
def State.lanesAt (s : State) (core b : Nat) (p : Nat → Packet → Bool) (q : Nat → Bool) : Bool :=
  s.net.zipIdx.any (fun x => p x.2 x.1 && x.1.isLocal && x.1.dev == s.ownDev && x.1.core == core &&
    (match x.1.body with
     | .store r => r.off / bankBytes == b && (r.op == .scat || r.parts.any (·.op == .scat))
     | .load _ _ a _ _ leg pair _ _ => !leg && pair == 0 && a / bankBytes == b
     | _ => false)) ||
  s.cores.any (fun e => q e.1 && e.2.slots.toList.any (fun sl =>
    let here (t : Target) : Bool := t.isLocal && t.dev == s.ownDev && t.core == core
    sl.queued.any (fun r => r.op == .scat && r.off / bankBytes == b && (match r.chk with | .ok t _ => here t | _ => false)) ||
    sl.comb.any (fun x => here x.tgt && x.off / bankBytes == b && x.parts.any (·.op == .scat)) ||
    sl.owed.any (fun o => !o.leg && o.pair == 0 && o.later.any (fun l =>
      match l.2.part with | .loc d c a _ => d == s.ownDev && c == core && a / bankBytes == b | .glob _ _ => false))))

/-- Whether a queued store of the slot goes to a core, or to a place not yet known (R272). -/
def Slot.storesTo (sl : Slot) (dev core : Nat) : Bool :=
  sl.sq.any (fun r => match r.chk with | .ok t _ => t.dev == dev && t.core == core | _ => true)

/-- The offset of the depth table that a BPERS image names in the issuer's own window (R135). -/
def depthsAt (image : Nat) : Option Nat :=
  let base := image / 2 ^ 32
  if image % 8 == 1 && ctlSubq image != 0 && base + 32 ≤ 0x20000 then some base else none

/-- The 32 bytes of the depth table. Where it lies in a personality bank or a spanned member, the bytes that stand there are read
(DESIGN CHOICE, log entry 46: R135 asks only that it lie outside the bank being changed). -/
def State.depthTable (s : State) (image : Nat) : Nat :=
  match depthsAt image with
  | some base => bytesToNat (s.localRead (s.homeOf s.at_.1 s.at_.2).1 base 32)
  | none => 0

/-- What a read of n bytes of the issuer's own window waits for: its own stores to them (R265), and held ranges (R168, R260). -/
def ownWait (lo n : Nat) : M Unit := fun s =>
  let (c, k) := s.at_
  let sl := s.slot c k
  let home := (s.homeOf c k).1
  if sl.storeOverlap (.loc s.ownDev home lo n) ||
     (home != c && sl.unacked.any (fun u => u.tgt == { dev := s.ownDev, core := home, isLocal := true })) then
    .error (.stall .storeQueue)
  else if s.localHeld home lo n false || s.localHeld home (lo + n - 1) 1 false then .error (.stall .range)
  else .ok ((), s)

/-- Bytes of the issuer's own window that an instruction reads hold no uncorrectable error, or it raises MACHINECHECK (R332). -/
def ownGood (lo n : Nat) (a : BitVec 64) : M Unit := fun s =>
  if s.localPoison (s.homeOf s.at_.1 s.at_.2).1 lo n then .error (.trap .machinecheck a) else .ok ((), s)

/-- Write a bank operation's results: D, the latches, a saturation, then C's status (R133, R149). -/
def Slot.bankResult (sl : Slot) (d c : Nat) (wide keepD : Bool) (r : BankRes) : Slot :=
  let s1 : Slot := if keepD then sl else if wide then sl.setV d (BitVec.ofNat 256 r.v)
    else { sl.clearPoison (poisonKeyX d) with thr := sl.thr.setX d r.d }
  let s2 : Slot := { s1 with
    regs := if r.latch.length == 8 then
        { s1.regs with latch := Vector.ofFn (fun (i : Fin 8) => lget 0 r.latch i.val) } else s1.regs
    thr := if r.sat then s1.thr.orFlags flSATF else s1.thr }
  { s2.clearPoison (poisonKeyX c) with thr := s2.thr.setX c (BitVec.ofNat 64 r.status) }

/-- Operand B of a bank instruction: the 64-bit value, and the 32 bytes of .v. The spec states no upper bytes for an
immediate under .v: they are open (log entry 8). -/
def bankB (o : Op) (wide : Bool) : M (BitVec 64 × Nat) :=
  if !wide then do
    let b ← srcX (immValue o) o.b
    pure (b, 0)
  else match o.b with
    | .imm => do
      let w1 ← freeM
      let w2 ← freeM
      let w3 ← freeM
      let b := immValue o
      pure (b, b.toNat + 2 ^ 64 * w1.toNat + 2 ^ 128 * w2.toNat + 2 ^ 192 * w3.toNat)
    | _ => do
      let v ← srcV 64 0 o.b
      pure (BitVec.ofNat 64 v, v)

/-- Whether an instruction reads D at issue (R147). -/
def readsD (code : Nat) : Bool := code == 0xB0 || code == 0xB2 || code == 0xB3 || code == 0xB8 || code == 0xBB

/-- A bank instruction other than BSPAN (R132-R150). -/
def bankInstr (code : Nat) (o : Op) (s : State) : Host.Outcome State Fault Refusal :=
  runScalar code o (do
    if code == 0xBB then homeOnly else pure ()
    let wide := o.m.getLsbD 0
    let wideD := wide && (code == 0xB4 || code == 0xB5)
    let d := regNum o.d
    let c := regNum o.c
    let before ← curCore
    let a ← rdReg o.a
    let (b, vd) ← bankB o (wide && code == 0xB2)
    let after ← curCore
    let din ← if readsD code then rdX d else pure 0
    let e := a + byteOffset o
    let (dev, core, off) ← bankSite e
    if wideD then claimDst (.v d) else claimX d
    claimX c
    let s0 ← getS
    let here := dev == s0.ownDev && core == s0.at_.1
    loadOrder .rc { dev, core, isLocal := true } []
    match depthsAt b.toNat with
    | some base => if code == 0xB0 then do ownWait base 32; ownGood base 32 e else pure ()
    | none => pure ()
    let s ← getS
    let (mc, mk) := s.at_
    let sl := s.slot mc mk
    let q : BankReq := {
      core, bank := off / bankBytes, off := off % bankBytes, code, addr := e, din, bv := b, wide,
      vdata := if code == 0xB0 then s.depthTable b.toNat else vd, detach := o.m.getLsbD 1, km := sl.km
      own := dev == s.ownDev && core == (s.homeOf mc mk).1 }
    if here then
      if s.bankHeld core q.bank then stallOn .range
      else if code == 0xB0 && ((s.core core).bankBusy core s.ownDev q.bank ||
          s.lanesAt core q.bank (fun _ _ => true) (fun _ => true)) then stallOn .bank
      else match s.bankPerform q with
        | .error (cs, v) => raise cs v
        | .ok _ =>
          watch true true [(e.toNat, 1)]
          let s ← getS
          match s.bankPerform q with
          | .error (cs, v) => raise cs v
          | .ok (r, s') =>
            modS (fun _ => s'.modSlot mc mk (·.bankResult d c wideD r.keepD r))
            pure .next
    else
      watch true true [(e.toNat, 1)]
      if sl.storesTo dev core then stallOn .storeQueue
      else if code == 0xB0 && s.lanesAt core q.bank (fun _ _ => false) (· == mc) then stallOn .bank
      else
        let s ← getS
        let (rid, s1) := s.fresh
        let s2 := s1.sendPacket {
          src := (mc, mk), unit := 0, dev, core, isLocal := true, dom := s.domainOf mc mk,
          cls := sl.regs.qos.toNat, body := .bank rid code e din b wide (BitVec.ofNat 256 q.vdata) q.detach sl.km q.own off }
        holdIn (s2.holdFor .bank (.bank rid d c wideD (lenBytes o.len) (before.lost after sl.act.mbox.toNat)))) s

/-- BPERS (R150-R154). -/
def execBpers (o : Op) (s : State) : Host.Outcome State Fault Refusal := bankInstr 0xB0 o s
/-- BPUT (R147). -/
def execBput (o : Op) (s : State) : Host.Outcome State Fault Refusal := bankInstr 0xB2 o s
/-- BPUTU (R147). -/
def execBputu (o : Op) (s : State) : Host.Outcome State Fault Refusal := bankInstr 0xB3 o s
/-- BGET (R147). -/
def execBget (o : Op) (s : State) : Host.Outcome State Fault Refusal := bankInstr 0xB4 o s
/-- BPEEK (R147). -/
def execBpeek (o : Op) (s : State) : Host.Outcome State Fault Refusal := bankInstr 0xB5 o s
/-- BTAKE (R147). -/
def execBtake (o : Op) (s : State) : Host.Outcome State Fault Refusal := bankInstr 0xB6 o s
/-- BFIND (R147). -/
def execBfind (o : Op) (s : State) : Host.Outcome State Fault Refusal := bankInstr 0xB7 o s
/-- BINC (R139, R147). -/
def execBinc (o : Op) (s : State) : Host.Outcome State Fault Refusal := bankInstr 0xB8 o s
/-- BCNT (R147). -/
def execBcnt (o : Op) (s : State) : Host.Outcome State Fault Refusal := bankInstr 0xB9 o s
/-- BCLR (R147). -/
def execBclr (o : Op) (s : State) : Host.Outcome State Fault Refusal := bankInstr 0xBA o s
/-- BLATCH (R149). -/
def execBlatch (o : Op) (s : State) : Host.Outcome State Fault Refusal := bankInstr 0xBB o s
/-- BSTAT (R148). -/
def execBstat (o : Op) (s : State) : Host.Outcome State Fault Refusal := bankInstr 0xBC o s

/-! ### BSPAN (R152) -/

/-- What an entry of a BSPAN list names, as the issuing slot's windows resolve it (R125, R126). -/
def State.spanName (s : State) (c k e : Nat) : SpanName :=
  let top := e / 2 ^ 56
  if top != 0xFC && top != 0xFD && top != 0xFE then .outside (BitVec.ofNat 64 e)
  else match s.locate c k e 1 with
    | some (.loc d core off _) => .bank (BitVec.ofNat 64 e) d core (off / bankBytes)
    | _ => .refused (BitVec.ofNat 64 e)

/-- The checks of a BSPAN's list, entry by entry, and the banks it names (R152, R232): members lie in the issuing slot's team. -/
def State.spanList (s : State) (team : Option Team) (mc mb : Nat) :
    List SpanName → List (Nat × Nat) → Except (Cause × BitVec 64) (List (Nat × Nat))
  | [], acc => .ok acc
  | .outside e :: _, _ => .error (.bankop, e)
  | .refused e :: _, _ => .error (.rights, e)
  | .bank e d core b :: es, acc =>
    let inTeam := (team.bind (fun t => t.memberAt core)).isSome
    if (acc.isEmpty && (core, b) != (mc, mb)) || d != s.ownDev || acc.contains (core, b) || (s.bank core b).spanned ||
       s.isMailbox core b || clusterOf core != clusterOf mc || !inTeam then .error (.bankop, e)
    else s.spanList team mc mb es (acc ++ [(core, b)])

/-- Every check of a BSPAN at its master, from the list on: the members (R152). -/
def State.spanCheck (s : State) (team : Option Team) (mc mb : Nat) (names : List SpanName) (a : BitVec 64) (km own : Bool) :
    Except (Cause × BitVec 64) (List (Nat × Nat)) :=
  match s.spanList team mc mb names [] with
  | .error e => .error e
  | .ok ms =>
    let x := s.bank mc mb
    if x.pers == 4 || (x.pers == 1 && x.subq != 0) || !(km || own) then .error (.bankop, a) else .ok ms

/-- Whether a member of a span to be composed is held, or has stores of its own core's slots on their way. -/
def State.spanHeld (s : State) (ms : List (Nat × Nat)) : Bool :=
  ms.any (fun m => (s.core m.1).held (m.2 * bankBytes) bankBytes true || (s.core m.1).bankBusy m.1 s.ownDev m.2)

/-- Compose a checked span: the other members take the master's image, empty, and the master keeps its contents. -/
def State.compose (s : State) (mc mb : Nat) (ms : List (Nat × Nat)) : Nat × State :=
  let x := s.bank mc mb
  let member (c : Nat) : Nat := (((s.teamOnCore mc).bind (fun t => t.memberAt c))).getD 0
  let rest := (ms.zipIdx).drop 1
  let lost := sumNat (rest.map (fun e => s.bankLive e.1.1 e.1.2))
  let s1 := rest.foldl (fun s e =>
    (s.freshBank e.1.1 e.1.2 (setBits (setBits x.ctl 10 10 1) 8 5 e.2) x.depths).modBank e.1.1 e.1.2
      (fun y => { y with master := some (member mc, mb) })) s
  (lost, s1.modBank mc mb (fun y =>
    { y with ctl := setBits (setBits y.ctl 9 9 1) 8 5 0,
             span := some { members := ms.map (fun m => (member m.1, m.2)) } }))

/-- Whether bank b of a core cannot hold a BSPAN list: not ARRAY, spanned, or reached through an ARRAY span, whose members are
spanned (R152, R153). -/
def State.noList (s : State) (core b : Nat) : Bool :=
  let x := s.bank core b
  x.pers != 0 || x.spanned || (s.spanTarget core (b * bankBytes)).isSome

/-- BSPAN's checks of its list's address and length, in order (R152). -/
def listCheck (home : Nat) (a b : BitVec 64) (n : Nat) : M Unit := fun s =>
  let lo := b.toNat % 2 ^ 17
  if (s.ownOffset s.at_.1 s.at_.2 b.toNat (8 * n)).isNone then .error (.trap .rights b)
  else if lo % 8 != 0 then .error (.trap .align b)
  else if 0 < n && (List.range ((lo + 8 * n - 1) / bankBytes - lo / bankBytes + 1)).any (fun i => s.noList home (lo / bankBytes + i)) then
    .error (.trap .bankop b)
  else if n < 2 || 16 < n then .error (.trap .bankop a)
  else .ok ((), s)

/-- BSPAN (R152): one operation at the master, with every member's change in the same step. The list is read at issue; a master
on another core answers it as any bank instruction (R127). -/
def execBspan (o : Op) (s : State) : Host.Outcome State Fault Refusal :=
  runScalar 0xB1 o (do
    let a0 ← rdReg o.a
    let b ← rdReg o.b
    let d := regNum o.d
    let n ← rdX d
    let a := a0 + byteOffset o
    let (dev, mc, off) ← bankSite a
    let mb := off / bankBytes
    let s ← getS
    let (c, k) := s.at_
    let sl := s.slot c k
    let home := (s.homeOf c k).1
    listCheck home a b n.toNat
    let lo := b.toNat % 2 ^ 17
    ownWait lo (8 * n.toNat)
    ownGood lo (8 * n.toNat) b
    let names := (List.range n.toNat).map (fun i => s.spanName c k (Mem.word (s.core home).mem (lo + 8 * i) 8))
    let own := dev == s.ownDev && mc == home
    let team := s.teamOf c k
    if dev != s.ownDev || mc == c then
      let named := if dev == s.ownDev then mc else 4096   -- no entry names a bank of another device that is in the team (R232)
      match s.spanCheck team named mb names a sl.km own with
      | .error (cause, v) => raise cause v
      | .ok ms =>
        watch true true [(a.toNat, 1)]
        claimX d
        claimX (regNum o.c)
        loadOrder .rc { dev, core := mc, isLocal := true } []
        let s ← getS
        if s.spanHeld ms then stallOn .bank
        else
          let (lost, s1) := s.compose mc mb ms
          modS (fun _ => s1.modSlot c k (·.bankResult d (regNum o.c) false false { d := BitVec.ofNat 64 lost }))
          pure .next
    else
      watch true true [(a.toNat, 1)]
      claimX d
      claimX (regNum o.c)
      loadOrder .rc { dev, core := mc, isLocal := true } []
      if sl.storesTo dev mc then stallOn .storeQueue
      else
        let s ← getS
        let (rid, s1) := s.fresh
        let s2 := s1.sendPacket {
          src := (c, k), unit := 0, dev, core := mc, isLocal := true, dom := s.domainOf c k, cls := sl.regs.qos.toNat
          body := .bspan rid a names sl.km own off }
        holdIn (s2.holdFor .bank (.bank rid d (regNum o.c) false (lenBytes o.len) {}))) s

/-! ### Arrival and reply (R127, R134) -/

/-- A bank operation at a lost device completes with no value in D and C (R385). -/
def State.bankLost (s : State) (i : Nat) (p : Packet) (rid : Nat) (addr : BitVec 64) : State :=
  let (c, k) := p.src
  match (s.slot c k).pend with
  | some (.bank rid' d cc wide len _) =>
    if rid' == rid then
      (s.dropPacket i).modSlot c k (fun x =>
        (((x.poisonDst (if wide then .v d else .x d 8) addr).poisonDst (.x cc 8) addr)).resume len)
    else s.dropPacket i
  | _ => s.dropPacket i

/-- Perform the bank operation that packet i carries. -/
def State.bankArrives (s : State) (i : Nat) (p : Packet) (rid code : Nat) (addr din bv : BitVec 64) (wide : Bool)
    (vdata : BitVec 256) (detach km own : Bool) (off : Nat) : State :=
  let answer (s : State) (r : Answer (BitVec 64 × BitVec 256 × BitVec 3 × Bool × List (BitVec 64))) : State :=
    (s.dropPacket i).reply p (.bankReply rid r)
  if s.isLost p.dev then s.bankLost i p rid addr
  else if p.dev != s.ownDev then
    let (w, s1) := s.free
    let (v, s2) := s1.free
    answer s2 (.ok (w, BitVec.ofNat 256 w.toNat, BitVec.ofNat 3 (v.toNat % 5), false, []))
  else
    let q : BankReq := {
      core := p.core, bank := off / bankBytes, off := off % bankBytes, code, addr, din, bv, wide,
      vdata := vdata.toNat, detach, km, own }
    if s.bankHeld p.core q.bank then s
    else if code == 0xB0 && ((s.core p.core).bankBusy p.core s.ownDev q.bank ||
        s.lanesAt p.core q.bank (fun j x => j < i || x.src.1 != p.src.1) (fun _ => true)) then s
    else match s.bankPerform q with
      | .error (c, v) => answer s (.trap c v)
      | .ok (r, s1) => answer s1 (.ok (if r.keepD then din else r.d, BitVec.ofNat 256 r.v, BitVec.ofNat 3 r.status, r.sat, r.latch))

/-- Perform the BSPAN that packet i carries, at its master (R127, R134, R152). -/
def State.spanArrives (s : State) (i : Nat) (p : Packet) (rid : Nat) (addr : BitVec 64) (names : List SpanName) (km own : Bool)
    (off : Nat) : State :=
  let answer (s : State) (r : Answer (BitVec 64 × BitVec 256 × BitVec 3 × Bool × List (BitVec 64))) : State :=
    (s.dropPacket i).reply p (.bankReply rid r)
  let mb := off / bankBytes
  match s.spanCheck (s.teamOf p.src.1 p.src.2) p.core mb names addr km own with
  | .error (c, v) => answer s (.trap c v)
  | .ok ms =>
    if s.spanHeld ms then s
    else
      let (lost, s1) := s.compose p.core mb ms
      answer s1 (.ok (BitVec.ofNat 64 lost, 0, 0, false, []))

/-- The reply of a slot's bank operation: D, C, flags and latches are written, or its fault is raised (R127). -/
def State.bankReplied (s : State) (i c k rid : Nat)
    (r : Answer (BitVec 64 × BitVec 256 × BitVec 3 × Bool × List (BitVec 64))) : State :=
  match (s.slot c k).pend with
  | some (.bank rid' d cc wide len _) =>
    if rid' != rid then s
    else match r with
      | .trap cause v => if !s.canReturn c k then s else ((s.dropPacket i).unpop c k).takeTrap c k cause v (s.slot c k).thr.pc
      | .ok (dv, v, st, sat, latch) =>
        (s.dropPacket i).modSlot c k (fun x =>
          (x.bankResult d cc wide false { status := st.toNat, d := dv, v := v.toNat, sat, latch }).resume len)
  | _ => s

end Sys2Proof.Machine
end

