-- ==== Sys2Proof/Machine/Scalar.lean ====
section
/-! DEFINITION. Scalar integer, predicate, constant and address instructions (R74-R88). -/

namespace Sys2Proof.Machine

/-- The result of an n-bit computation, zero-extended (R74). -/
def narrow (n v : Nat) : BitVec 64 := BitVec.ofNat 64 (v % 2 ^ n)

/-- A two-source integer instruction (R74, R77): f at width n on the low n bits of the sources, and its flags. -/
def intOp2 (code : Nat) (o : Op) (f : Nat → Nat → Nat → Nat) (s : State) : Host.Outcome State Fault Refusal :=
  runScalar code o (do
    let n := intWidth o.t.toNat
    let a ← srcX (immValue o) o.a
    let b ← srcX (immValue o) o.b
    dstX o.d (narrow n (f n (a.toNat % 2 ^ n) (b.toNat % 2 ^ n)))
    pure .next) s

/-- A division (R78): the result and its flags, which are ORed into FPCTL (R76). -/
def intDiv (code : Nat) (o : Op) (f : Nat → Nat → Nat → Nat × Flags) (s : State) : Host.Outcome State Fault Refusal :=
  runScalar code o (do
    let n := intWidth o.t.toNat
    let a ← srcX (immValue o) o.a
    let b ← srcX (immValue o) o.b
    let r := f n (a.toNat % 2 ^ n) (b.toNat % 2 ^ n)
    setFlags r.2
    dstX o.d (narrow n r.1)
    pure .next) s

/-- A one-source integer instruction (R79). -/
def intOp1 (code : Nat) (o : Op) (f : Nat → Nat → Nat) (s : State) : Host.Outcome State Fault Refusal :=
  runScalar code o (do
    let n := intWidth o.t.toNat
    let a ← srcX (immValue o) o.a
    dstX o.d (narrow n (f n (a.toNat % 2 ^ n)))
    pure .next) s

/-! ### Results (R77-R82) -/

/-- R77. a + b modulo 2^n. -/
def aluAdd (_n a b : Nat) : Nat := a + b
/-- R77. a - b modulo 2^n. -/
def aluSub (n a b : Nat) : Nat := a + (2 ^ n - b)
/-- R77. Low n bits of a × b. -/
def aluMul (_n a b : Nat) : Nat := a * b
/-- R77. High n bits of the signed product. -/
def aluMulh (n a b : Nat) : Nat := ofInt (2 * n) (toSigned n a * toSigned n b) / 2 ^ n
/-- R77. High n bits of the unsigned product. -/
def aluMulhn (n a b : Nat) : Nat := a * b / 2 ^ n
/-- R77. a AND b. -/
def aluAnd (_n a b : Nat) : Nat := a &&& b
/-- R77. a OR b. -/
def aluOr (_n a b : Nat) : Nat := a ||| b
/-- R77. a XOR b. -/
def aluXor (_n a b : Nat) : Nat := a ^^^ b
/-- R77. a AND NOT b. -/
def aluAndn (n a b : Nat) : Nat := a &&& (2 ^ n - 1 - b)
/-- R77. a OR NOT b. -/
def aluOrn (n a b : Nat) : Nat := a ||| (2 ^ n - 1 - b)
/-- R77. a shifted left by b[log2(n)-1:0]. -/
def aluShl (n a b : Nat) : Nat := a * 2 ^ (b % n)
/-- R77. a shifted right by b[log2(n)-1:0], zeros in. -/
def aluShr (n a b : Nat) : Nat := a / 2 ^ (b % n)
/-- R77. a shifted right by b[log2(n)-1:0], sign bits in. -/
def aluSra (n a b : Nat) : Nat := ofInt n (toSigned n a / ((2 ^ (b % n) : Nat) : Int))
/-- R77. a rotated left by b[log2(n)-1:0]. -/
def aluRol (n a b : Nat) : Nat := a * 2 ^ (b % n) + a / 2 ^ (n - b % n)
/-- R77. a rotated right by b[log2(n)-1:0]. -/
def aluRor (n a b : Nat) : Nat := a / 2 ^ (b % n) + a * 2 ^ (n - b % n)
/-- R77. Signed minimum. -/
def aluMin (n a b : Nat) : Nat := if toSigned n b < toSigned n a then b else a
/-- R77. Signed maximum. -/
def aluMax (n a b : Nat) : Nat := if toSigned n a < toSigned n b then b else a
/-- R77. Unsigned minimum. -/
def aluMinn (_n a b : Nat) : Nat := if b < a then b else a
/-- R77. Unsigned maximum. -/
def aluMaxn (_n a b : Nat) : Nat := if a < b then b else a

/-- DIV (R78). -/
def aluDiv (n a b : Nat) : Nat × Flags :=
  let sa := toSigned n a
  let sb := toSigned n b
  if b == 0 then (if 0 ≤ sa then 2 ^ (n - 1) - 1 else 2 ^ (n - 1), flDZ)
  else if sa == -((2 ^ (n - 1) : Nat) : Int) && sb == -1 then (a, 0)
  else (ofInt n (sa.tdiv sb), 0)
/-- DIVN (R78). -/
def aluDivn (n a b : Nat) : Nat × Flags := if b == 0 then (2 ^ n - 1, flDZ) else (a / b, 0)
/-- REM (R78). -/
def aluRem (n a b : Nat) : Nat × Flags :=
  let sa := toSigned n a
  let sb := toSigned n b
  if b == 0 then (a, flDZ)
  else if sa == -((2 ^ (n - 1) : Nat) : Int) && sb == -1 then (0, 0)
  else (ofInt n (sa - sb * sa.tdiv sb), 0)
/-- REMN (R78). -/
def aluRemn (_n a b : Nat) : Nat × Flags := if b == 0 then (a, flDZ) else (a - b * (a / b), 0)

/-- The number of leading zero bits of an n-bit value (R79). -/
def aluClz (n a : Nat) : Nat := if a == 0 then n else n - 1 - Nat.log2 a
/-- The number of trailing zeros among bits i, i + 1, …, of n. -/
def trailing (a : Nat) : Nat → Nat
  | 0 => 0
  | f + 1 => if a % 2 == 1 then 0 else 1 + trailing (a / 2) f
def aluCtz (n a : Nat) : Nat := trailing a n
/-- The number of one bits among the low f bits. -/
def popCount (a : Nat) : Nat → Nat
  | 0 => 0
  | f + 1 => a % 2 + popCount (a / 2) f
def aluPopc (n a : Nat) : Nat := popCount a n
/-- BREV (R79). -/
def bitReverse (a : Nat) : Nat → Nat
  | 0 => 0
  | f + 1 => a % 2 * 2 ^ f + bitReverse (a / 2) f
def aluBrev (n a : Nat) : Nat := bitReverse a n
/-- BSWAP (R79). -/
def byteReverse (a : Nat) : Nat → Nat
  | 0 => 0
  | f + 1 => a % 256 * 2 ^ (8 * f) + byteReverse (a / 256) f
def aluBswap (n a : Nat) : Nat := byteReverse a (n / 8)
/-- The field [pos+len-1:pos] of a, extended to n bits (R81). -/
def extractField (n a pos len : Nat) (sign : Bool) : Nat :=
  let f := a / 2 ^ pos % 2 ^ len
  if sign then ofInt n (toSigned len f) else f
/-- b with bits [pos+len-1:pos] replaced by a[len-1:0] (R81). -/
def insertField (a b pos len : Nat) : Nat :=
  b % 2 ^ pos + a % 2 ^ len * 2 ^ pos + b / 2 ^ (pos + len) * 2 ^ (pos + len)

/-! ### Meanings -/

/-- ADD (R77). -/
def execAdd (o : Op) (s : State) : Host.Outcome State Fault Refusal :=
  intOp2 0x01 o aluAdd s

/-- SUB (R77). -/
def execSub (o : Op) (s : State) : Host.Outcome State Fault Refusal :=
  intOp2 0x02 o aluSub s

/-- MUL (R77). -/
def execMul (o : Op) (s : State) : Host.Outcome State Fault Refusal :=
  intOp2 0x03 o aluMul s

/-- MULH (R77). -/
def execMulh (o : Op) (s : State) : Host.Outcome State Fault Refusal :=
  intOp2 0x04 o aluMulh s

/-- MULHN (R77). -/
def execMulhn (o : Op) (s : State) : Host.Outcome State Fault Refusal :=
  intOp2 0x05 o aluMulhn s

/-- AND (R77). -/
def execAnd (o : Op) (s : State) : Host.Outcome State Fault Refusal :=
  intOp2 0x0A o aluAnd s

/-- OR (R77). -/
def execOr (o : Op) (s : State) : Host.Outcome State Fault Refusal :=
  intOp2 0x0B o aluOr s

/-- XOR (R77). -/
def execXor (o : Op) (s : State) : Host.Outcome State Fault Refusal :=
  intOp2 0x0C o aluXor s

/-- ANDN (R77). -/
def execAndn (o : Op) (s : State) : Host.Outcome State Fault Refusal :=
  intOp2 0x0D o aluAndn s

/-- ORN (R77). -/
def execOrn (o : Op) (s : State) : Host.Outcome State Fault Refusal :=
  intOp2 0x0E o aluOrn s

/-- SHL (R77). -/
def execShl (o : Op) (s : State) : Host.Outcome State Fault Refusal :=
  intOp2 0x0F o aluShl s

/-- SHR (R77). -/
def execShr (o : Op) (s : State) : Host.Outcome State Fault Refusal :=
  intOp2 0x10 o aluShr s

/-- SRA (R77). -/
def execSra (o : Op) (s : State) : Host.Outcome State Fault Refusal :=
  intOp2 0x11 o aluSra s

/-- ROL (R77). -/
def execRol (o : Op) (s : State) : Host.Outcome State Fault Refusal :=
  intOp2 0x12 o aluRol s

/-- ROR (R77). -/
def execRor (o : Op) (s : State) : Host.Outcome State Fault Refusal :=
  intOp2 0x13 o aluRor s

/-- MIN (R77). -/
def execMin (o : Op) (s : State) : Host.Outcome State Fault Refusal :=
  intOp2 0x14 o aluMin s

/-- MAX (R77). -/
def execMax (o : Op) (s : State) : Host.Outcome State Fault Refusal :=
  intOp2 0x15 o aluMax s

/-- MINN (R77). -/
def execMinn (o : Op) (s : State) : Host.Outcome State Fault Refusal :=
  intOp2 0x16 o aluMinn s

/-- MAXN (R77). -/
def execMaxn (o : Op) (s : State) : Host.Outcome State Fault Refusal :=
  intOp2 0x17 o aluMaxn s

/-- DIV (R78). -/
def execDiv (o : Op) (s : State) : Host.Outcome State Fault Refusal :=
  intDiv 0x06 o aluDiv s

/-- DIVN (R78). -/
def execDivn (o : Op) (s : State) : Host.Outcome State Fault Refusal :=
  intDiv 0x07 o aluDivn s

/-- REM (R78). -/
def execRem (o : Op) (s : State) : Host.Outcome State Fault Refusal :=
  intDiv 0x08 o aluRem s

/-- REMN (R78). -/
def execRemn (o : Op) (s : State) : Host.Outcome State Fault Refusal :=
  intDiv 0x09 o aluRemn s

/-- CLZ (R79). -/
def execClz (o : Op) (s : State) : Host.Outcome State Fault Refusal :=
  intOp1 0x18 o aluClz s

/-- CTZ (R79). -/
def execCtz (o : Op) (s : State) : Host.Outcome State Fault Refusal :=
  intOp1 0x19 o aluCtz s

/-- POPC (R79). -/
def execPopc (o : Op) (s : State) : Host.Outcome State Fault Refusal :=
  intOp1 0x1A o aluPopc s

/-- BREV (R79). -/
def execBrev (o : Op) (s : State) : Host.Outcome State Fault Refusal :=
  intOp1 0x1B o aluBrev s

/-- BSWAP (R79). -/
def execBswap (o : Op) (s : State) : Host.Outcome State Fault Refusal :=
  intOp1 0x1C o aluBswap s

/-- BEXT (R81). -/
def execBext (o : Op) (s : State) : Host.Outcome State Fault Refusal :=
  intOp1 0x1D o (fun n a => extractField n a (i18f o 5 0) (i18f o 11 6 + 1) (i18f o 12 12 == 1)) s

/-- BINS (R81). -/
def execBins (o : Op) (s : State) : Host.Outcome State Fault Refusal :=
  intOp2 0x1E o (fun _ a b => insertField a b (i18f o 5 0) (i18f o 11 6 + 1)) s

/-- SEL (R80): both sources are read, whichever is chosen. -/
def execSel (o : Op) (s : State) : Host.Outcome State Fault Refusal :=
  runScalar 0x1F o (do
    let n := intWidth o.t.toNat
    let a ← srcX (immValue o) o.a
    let b ← srcX (immValue o) o.b
    let p ← rdP (regNum o.c)
    dstX o.d (narrow n (if p.getLsbD 0 then a.toNat else b.toNat))
    pure .next) s

/-- SET (R83). -/
def execSetCond (o : Op) (s : State) : Host.Outcome State Fault Refusal :=
  intOp2 0x20 o (fun n a b => if intCond n o.m.toNat a b then 1 else 0) s

/-- PSET (R83): all 32 bits of the predicate. -/
def execPset (o : Op) (s : State) : Host.Outcome State Fault Refusal :=
  runScalar 0x21 o (do
    let a ← srcX (immValue o) o.a
    let b ← srcX (immValue o) o.b
    dstP o.d (if intCond (intWidth o.t.toNat) o.m.toNat a.toNat b.toNat then BitVec.allOnes 32 else 0)
    pure .next) s

/-- A two-source predicate instruction (R84). -/
def predOp2 (code : Nat) (o : Op) (f : BitVec 32 → BitVec 32 → BitVec 32) (s : State) : Host.Outcome State Fault Refusal :=
  runScalar code o (do
    let a ← srcP (immValue o) o.a
    let b ← srcP (immValue o) o.b
    dstP o.d (f a b)
    pure .next) s

/-- PAND (R84). -/
def execPand (o : Op) (s : State) : Host.Outcome State Fault Refusal := predOp2 0x22 o (· &&& ·) s
/-- POR (R84). -/
def execPor (o : Op) (s : State) : Host.Outcome State Fault Refusal := predOp2 0x23 o (· ||| ·) s
/-- PXOR (R84). -/
def execPxor (o : Op) (s : State) : Host.Outcome State Fault Refusal := predOp2 0x24 o (· ^^^ ·) s
/-- PNOT (R84). -/
def execPnot (o : Op) (s : State) : Host.Outcome State Fault Refusal :=
  runScalar 0x25 o (do
    let a ← srcP (immValue o) o.a
    dstP o.d (~~~a)
    pure .next) s

/-- LI (R85). -/
def execLi (o : Op) (s : State) : Host.Outcome State Fault Refusal :=
  runScalar 0x26 o (do
    let a ← srcX (immValue o) o.a
    dstX o.d a
    pure .next) s

/-- LEA (R86). -/
def execLea (o : Op) (s : State) : Host.Outcome State Fault Refusal :=
  runScalar 0x27 o (do
    let a ← srcX (immValue o) o.a
    let b ← srcX (immValue o) o.b
    dstX o.d (a + (b <<< o.m.toNat))
    pure .next) s

/-- The address MKADDR forms (R87). -/
def mkaddr (win a b c : Nat) : Nat :=
  match win with
  | 0 => 0xFC * 2 ^ 56 + a % 2 ^ 36
  | 1 => 0xFE * 2 ^ 56 + c % 2 ^ 8 * 2 ^ 48 + b % 2 ^ 12 * 2 ^ 36 + a % 2 ^ 36
  | _ => 0xFD * 2 ^ 56 + b % 2 ^ 12 * 2 ^ 36 + a % 2 ^ 36

/-- MKADDR (R87). -/
def execMkaddr (o : Op) (s : State) : Host.Outcome State Fault Refusal :=
  runScalar 0x28 o (do
    let a ← srcX 0 o.a
    let b ← srcX 0 o.b
    let c ← srcX 0 o.c
    dstX o.d (BitVec.ofNat 64 (mkaddr (i18n o) a.toNat b.toNat c.toNat))
    pure .next) s

/-- The actor address MKACT forms (R88). -/
def mkact (sys tr slot ch a b : Nat) : Nat :=
  sys * 2 ^ 27 + tr * 2 ^ 26 + b % 2 ^ 8 * 2 ^ 18 + a % 2 ^ 12 * 2 ^ 6 + slot * 2 ^ 4 + ch

/-- MKACT (R88). -/
def execMkact (o : Op) (s : State) : Host.Outcome State Fault Refusal :=
  runScalar 0x29 o (do
    let a ← srcX 0 o.a
    let b ← srcX 0 o.b
    dstX o.d (BitVec.ofNat 64 (mkact (i18f o 7 7) (i18f o 6 6) (i18f o 5 4) (i18f o 3 0) a.toNat b.toNat))
    pure .next) s

/-- EXT (R82). -/
def execExt (o : Op) (s : State) : Host.Outcome State Fault Refusal :=
  intOp1 0x2A o (fun _ a => extractField 64 a 0 (i18f o 5 0 + 1) (i18f o 6 6 == 1)) s

end Sys2Proof.Machine
end

