-- ==== Sys2Proof/Machine/Vector.lean ====
section
/-! DEFINITION. Vector instructions on a core's v registers and an SVC's w registers (R101-R123). -/

namespace Sys2Proof.Machine

/-! ### Lane-wise computation (R101-R105) -/

/-- The lane count of an instruction's type in the issuing profile. -/
def laneCount (o : Op) : M Nat := fun s => .ok (lanesOf s.prof o.t.toNat, s)

/-- The flags of the enabled lanes (R105). -/
def laneFlags (mask : List Bool) (rs : List (Nat × Flags)) : Flags :=
  ((mask.zip rs).filter Prod.fst).foldl (fun f x => f ||| x.2.2) 0

/-- Write the enabled lanes and their flags. -/
def dstLaneResults (o : Op) (mask : List Bool) (rs : List (Nat × Flags)) : M Flow := do
  setFlags (laneFlags mask rs)
  dstLanes o.d (laneWidth o.t.toNat) mask (rs.map Prod.fst)
  pure .next

/-- A one-source lane instruction: f at the lane width and the rounding mode. -/
def laneOp1 (code : Nat) (o : Op) (f : Nat → Nat → Nat → Nat × Flags) (s : State) : Host.Outcome State Fault Refusal :=
  runLanes code o (do
    let w := laneWidth o.t.toNat
    let l ← laneCount o
    let mask ← laneMaskM o l
    let rm ← roundMode
    let a ← srcV w (immValue o) o.a
    dstLaneResults o mask ((lanes w a l).map (f w rm))) s

/-- A two-source lane instruction. -/
def laneOp2 (code : Nat) (o : Op) (f : Nat → Nat → Nat → Nat → Nat × Flags) (s : State) : Host.Outcome State Fault Refusal :=
  runLanes code o (do
    let w := laneWidth o.t.toNat
    let l ← laneCount o
    let mask ← laneMaskM o l
    let rm ← roundMode
    let a ← srcV w (immValue o) o.a
    let b ← srcV w (immValue o) o.b
    dstLaneResults o mask (((lanes w a l).zip (lanes w b l)).map (fun x => f w rm x.1 x.2))) s

/-- A comparison into a mask (R104, R111): enabled lanes' bits are written, all others kept. -/
def laneCmp (code : Nat) (o : Op) (f : Nat → Nat → Nat → Bool × Flags) (s : State) : Host.Outcome State Fault Refusal :=
  runLanes code o (do
    let w := laneWidth o.t.toNat
    let l ← laneCount o
    let mask ← laneMaskM o l
    let a ← srcV w (immValue o) o.a
    let b ← srcV w (immValue o) o.b
    let rs := ((lanes w a l).zip (lanes w b l)).map (fun x => f w x.1 x.2)
    let old ← match o.d with | .reg n => rdP n.val | _ => pure 0
    let bits := (mask.zip rs).zipIdx.foldl (fun (p : BitVec 32) x =>
      if x.1.1 then (if x.1.2.1 then p ||| ((1 : BitVec 32) <<< x.2) else p &&& ~~~((1 : BitVec 32) <<< x.2)) else p) old
    setFlags (laneFlags mask (rs.map (fun r => (0, r.2))))
    dstP o.d bits
    pure .next) s

/-- The enabled lanes of a v source. -/
def enabledLanes (mask : List Bool) (ls : List Nat) : List Nat := ((mask.zip ls).filter Prod.fst).map Prod.snd

/-- What an instruction without an enabled lane leaves in D: a register keeps its value (R104), and a queue takes an entry whatever
the lane mask (R20), with zeros as in a lane that is disabled (R102). -/
def noResult (d : Opd) : M Flow := do
  match d with
  | .queue q => pushQueue q.val 0
  | _ => pure ()
  pure .next

/-- A scalar result of the enabled lanes (R104): D is written only when there is one. -/
def scalarResult (o : Op) (ls : List Nat) (r : Nat × Flags) : M Flow :=
  if ls.isEmpty then noResult o.d else do
    setFlags r.2
    dstX o.d (BitVec.ofNat 64 r.1)
    pure .next

/-- A reduction of the enabled lanes of a (R113). -/
def laneReduce (code : Nat) (o : Op) (f : Nat → List Nat → Nat) (s : State) : Host.Outcome State Fault Refusal :=
  runLanes code o (do
    let w := laneWidth o.t.toNat
    let l ← laneCount o
    let mask ← laneMaskM o l
    let a ← srcV w (immValue o) o.a
    let ls := enabledLanes mask (lanes w a l)
    scalarResult o ls (f w ls, 0)) s

/-! ### Integer lanes (R107, R108) -/

/-- The signed or unsigned reading of a lane. -/
def laneInt (w : Nat) (uns : Bool) (v : Nat) : Int := if uns then ((v % 2 ^ w : Nat) : Int) else toSigned w v

/-- Clamp to the signed or unsigned range of width w, with SATF when clamped. -/
def clampInt (w : Nat) (uns : Bool) (i : Int) : Nat × Flags :=
  let lo : Int := if uns then 0 else -((2 ^ (w - 1) : Nat) : Int)
  let hi : Int := if uns then ((2 ^ w : Nat) : Int) - 1 else ((2 ^ (w - 1) : Nat) : Int) - 1
  if i < lo then (ofInt w lo, flSATF) else if hi < i then (ofInt w hi, flSATF) else (ofInt w i, 0)

/-- VADD and VSUB: M 0 wraps, 1 is .ss, 2 is .su. -/
def laneSum (sub : Bool) (m w a b : Nat) : Nat × Flags :=
  let x := laneInt w (m == 2) a
  let y := laneInt w (m == 2) b
  let r := if sub then x - y else x + y
  if m == 0 then (ofInt w r, 0) else clampInt w (m == 2) r

def laneMulh (m w a b : Nat) : Nat :=
  ofInt (2 * w) (laneInt w (m == 1) a * laneInt w (m == 1) b) / 2 ^ w

def laneMinMax (isMax : Bool) (m w a b : Nat) : Nat :=
  let lt := decide (laneInt w (m == 1) a < laneInt w (m == 1) b)
  if lt == isMax then b else a

/-- VADD (R107, R108). -/
def execVadd (o : Op) (s : State) : Host.Outcome State Fault Refusal :=
  laneOp2 0x80 o (fun w _ a b => laneSum false o.m.toNat w a b) s
/-- VSUB (R107, R108). -/
def execVsub (o : Op) (s : State) : Host.Outcome State Fault Refusal :=
  laneOp2 0x81 o (fun w _ a b => laneSum true o.m.toNat w a b) s
/-- VMUL (R107). -/
def execVmul (o : Op) (s : State) : Host.Outcome State Fault Refusal :=
  laneOp2 0x82 o (fun _ _ a b => (a * b, 0)) s
/-- VMULH (R107). -/
def execVmulh (o : Op) (s : State) : Host.Outcome State Fault Refusal :=
  laneOp2 0x83 o (fun w _ a b => (laneMulh o.m.toNat w a b, 0)) s
/-- VAND (R107). -/
def execVand (o : Op) (s : State) : Host.Outcome State Fault Refusal :=
  laneOp2 0x84 o (fun _ _ a b => (a &&& b, 0)) s
/-- VOR (R107). -/
def execVor (o : Op) (s : State) : Host.Outcome State Fault Refusal :=
  laneOp2 0x85 o (fun _ _ a b => (a ||| b, 0)) s
/-- VXOR (R107). -/
def execVxor (o : Op) (s : State) : Host.Outcome State Fault Refusal :=
  laneOp2 0x86 o (fun _ _ a b => (a ^^^ b, 0)) s
/-- VSHL (R107). -/
def execVshl (o : Op) (s : State) : Host.Outcome State Fault Refusal :=
  laneOp2 0x87 o (fun w _ a b => (a * 2 ^ (b % w), 0)) s
/-- VSHR (R107). -/
def execVshr (o : Op) (s : State) : Host.Outcome State Fault Refusal :=
  laneOp2 0x88 o (fun w _ a b => (a / 2 ^ (b % w), 0)) s
/-- VSRA (R107). -/
def execVsra (o : Op) (s : State) : Host.Outcome State Fault Refusal :=
  laneOp2 0x89 o (fun w _ a b => (ofInt w (toSigned w a / ((2 ^ (b % w) : Nat) : Int)), 0)) s
/-- VMIN (R107). -/
def execVmin (o : Op) (s : State) : Host.Outcome State Fault Refusal :=
  laneOp2 0x8A o (fun w _ a b => (laneMinMax false o.m.toNat w a b, 0)) s
/-- VMAX (R107). -/
def execVmax (o : Op) (s : State) : Host.Outcome State Fault Refusal :=
  laneOp2 0x8B o (fun w _ a b => (laneMinMax true o.m.toNat w a b, 0)) s
/-- VABS (R107): for FP types the sign bit is cleared. -/
def execVabs (o : Op) (s : State) : Host.Outcome State Fault Refusal :=
  laneOp1 0x8C o (fun w _ a => (if 4 ≤ o.t.toNat then a % 2 ^ (w - 1) else (toSigned w a).natAbs, 0)) s

/-! ### Floating-point lanes (R109, R110) -/

/-- VFADD (R109). -/
def execVfadd (o : Op) (s : State) : Host.Outcome State Fault Refusal :=
  laneOp2 0x8D o (fun _ rm a b => fpAdd (fmtOf o.t.toNat) rm a b) s
/-- VFSUB (R109). -/
def execVfsub (o : Op) (s : State) : Host.Outcome State Fault Refusal :=
  laneOp2 0x8E o (fun _ rm a b => fpSub (fmtOf o.t.toNat) rm a b) s
/-- VFMUL (R109). -/
def execVfmul (o : Op) (s : State) : Host.Outcome State Fault Refusal :=
  laneOp2 0x8F o (fun _ rm a b => fpMul (fmtOf o.t.toNat) rm a b) s
/-- VFMA (R109). -/
def execVfma (o : Op) (s : State) : Host.Outcome State Fault Refusal :=
  runLanes 0x90 o (do
    let w := laneWidth o.t.toNat
    let l ← laneCount o
    let mask ← laneMaskM o l
    let rm ← roundMode
    let a ← srcV w (immValue o) o.a
    let b ← srcV w (immValue o) o.b
    let c ← srcV w (immValue o) o.c
    dstLaneResults o mask (((lanes w a l).zip ((lanes w b l).zip (lanes w c l))).map
      (fun x => fpFma (fmtOf o.t.toNat) rm x.1 x.2.1 x.2.2))) s
/-- VFMIN (R109). -/
def execVfmin (o : Op) (s : State) : Host.Outcome State Fault Refusal :=
  laneOp2 0x91 o (fun _ _ a b => fpMinMax (fmtOf o.t.toNat) false a b) s
/-- VFMAX (R109). -/
def execVfmax (o : Op) (s : State) : Host.Outcome State Fault Refusal :=
  laneOp2 0x92 o (fun _ _ a b => fpMinMax (fmtOf o.t.toNat) true a b) s
/-- VFDIV (R109). -/
def execVfdiv (o : Op) (s : State) : Host.Outcome State Fault Refusal :=
  laneOp2 0x93 o (fun _ rm a b => fpDiv (fmtOf o.t.toNat) rm a b) s
/-- VFSQRT (R109). -/
def execVfsqrt (o : Op) (s : State) : Host.Outcome State Fault Refusal :=
  laneOp1 0x94 o (fun _ rm a => fpSqrt (fmtOf o.t.toNat) rm a) s
/-- VEXP2 (R110). -/
def execVexp2 (o : Op) (s : State) : Host.Outcome State Fault Refusal :=
  laneOp1 0x95 o (fun _ _ a => fpExp2 (fmtOf o.t.toNat) a) s
/-- VLOG2 (R110). -/
def execVlog2 (o : Op) (s : State) : Host.Outcome State Fault Refusal :=
  laneOp1 0x96 o (fun _ _ a => fpLog2 (fmtOf o.t.toNat) a) s
/-- VRCP (R110). -/
def execVrcp (o : Op) (s : State) : Host.Outcome State Fault Refusal :=
  laneOp1 0x97 o (fun _ _ a => fpRcp (fmtOf o.t.toNat) a) s
/-- VRSQ (R110). -/
def execVrsq (o : Op) (s : State) : Host.Outcome State Fault Refusal :=
  laneOp1 0x98 o (fun _ _ a => fpRsq (fmtOf o.t.toNat) a) s

/-- VCMP (R111). -/
def execVcmp (o : Op) (s : State) : Host.Outcome State Fault Refusal :=
  laneCmp 0x99 o (fun w a b => (intCond w o.m.toNat a b, 0)) s
/-- VFCMP (R111). -/
def execVfcmp (o : Op) (s : State) : Host.Outcome State Fault Refusal :=
  laneCmp 0x9A o (fun _ a b => fpCond (fmtOf o.t.toNat) o.m.toNat a b) s

/-! ### Moving lanes (R112) -/

/-- Bit G(i, L) of a predicate for each lane. -/
def predLanes (p : BitVec 32) (l : Nat) : List Bool := (List.range l).map (fun i => p.getLsbD (guardIx i l))

/-- An instruction that moves lanes of two v sources, with the selector in pC. -/
def laneMove (code : Nat) (o : Op) (twoSrc : Bool) (f : List Nat → List Nat → List Bool → List Nat) (s : State) :
    Host.Outcome State Fault Refusal :=
  runLanes code o (do
    let w := laneWidth o.t.toNat
    let l ← laneCount o
    let mask ← laneMaskM o l
    let a ← srcV w (immValue o) o.a
    let b ← if twoSrc then srcV w (immValue o) o.b else pure 0
    let pc ← rdP (regNum o.c)
    dstLanes o.d w mask (f (lanes w a l) (lanes w b l) (predLanes pc l))
    pure .next) s

/-- VSEL (R112). -/
def execVsel (o : Op) (s : State) : Host.Outcome State Fault Refusal :=
  laneMove 0x9B o true (fun a b p => mergeLanes p a b) s

/-- VBCAST (R112). -/
def execVbcast (o : Op) (s : State) : Host.Outcome State Fault Refusal :=
  runLanes 0x9C o (do
    let w := laneWidth o.t.toNat
    let l ← laneCount o
    let mask ← laneMaskM o l
    let a ← srcX (immValue o) o.a
    dstLanes o.d w mask (List.replicate l (a.toNat % 2 ^ w))
    pure .next) s

/-- VEXT (R112, R104). -/
def execVext (o : Op) (s : State) : Host.Outcome State Fault Refusal :=
  runLanes 0x9D o (do
    let w := laneWidth o.t.toNat
    let l ← laneCount o
    let mask ← laneMaskM o l
    let a ← srcV w (immValue o) o.a
    let i := i18f o 6 0
    if lget false mask i then do
      dstX o.d (BitVec.ofNat 64 (lget 0 (lanes w a l) i))
      pure .next
    else noResult o.d) s

/-- VINS (R112). -/
def execVins (o : Op) (s : State) : Host.Outcome State Fault Refusal :=
  runLanes 0x9E o (do
    let w := laneWidth o.t.toNat
    let l ← laneCount o
    let mask ← laneMaskM o l
    let a ← srcX (immValue o) o.a
    let i := i18f o 6 0
    dstLanes o.d w ((List.range l).map (fun j => j == i && lget false mask j)) (List.replicate l (a.toNat % 2 ^ w))
    pure .next) s

/-- VPERM (R112). -/
def execVperm (o : Op) (s : State) : Host.Outcome State Fault Refusal :=
  laneMove 0x9F o true (fun a b _ => b.map (fun j => lget 0 a j)) s

/-- VSLIDE (R112): M 0 slides up, M 1 down. -/
def slide (down : Bool) (k : Nat) (a b : List Nat) : List Nat :=
  if down then a.drop k ++ b.take k else b.drop (b.length - k) ++ a.take (a.length - k)

def execVslide (o : Op) (s : State) : Host.Outcome State Fault Refusal :=
  laneMove 0xA0 o true (fun a b _ => slide (o.m == 1) (i18f o 7 0) a b) s

/-! ### Reductions (R113) -/

def sumInt (l : List Int) : Int := l.foldl (· + ·) 0

/-- The largest or smallest of a list of integers. -/
def pickInt (isMax : Bool) : List Int → Int
  | [] => 0
  | x :: xs => xs.foldl (fun m y => if isMax then max m y else min m y) x

/-- VREDADD (R113). -/
def execVredadd (o : Op) (s : State) : Host.Outcome State Fault Refusal :=
  laneReduce 0xA1 o (fun w ls => ofInt 64 (sumInt (ls.map (laneInt w (o.m == 1))))) s
/-- VREDMAX (R113). -/
def execVredmax (o : Op) (s : State) : Host.Outcome State Fault Refusal :=
  laneReduce 0xA2 o (fun w ls => ofInt 64 (pickInt true (ls.map (laneInt w (o.m == 1))))) s
/-- VREDMIN (R113). -/
def execVredmin (o : Op) (s : State) : Host.Outcome State Fault Refusal :=
  laneReduce 0xA3 o (fun w ls => ofInt 64 (pickInt false (ls.map (laneInt w (o.m == 1))))) s

/-- A scalar result from the enabled lanes of a and the x operand b. -/
def laneFold (code : Nat) (o : Op) (f : Nat → BitVec 64 → List Nat → M (Nat × Flags)) (s : State) :
    Host.Outcome State Fault Refusal :=
  runLanes code o (do
    let w := laneWidth o.t.toNat
    let l ← laneCount o
    let mask ← laneMaskM o l
    let rm ← roundMode
    let a ← srcV w (immValue o) o.a
    let b ← srcX (immValue o) o.b
    let ls := enabledLanes mask (lanes w a l)
    let r ← f rm b ls
    scalarResult o ls r) s

/-- VFRED (R113): in ascending lane order from b. -/
def execVfred (o : Op) (s : State) : Host.Outcome State Fault Refusal :=
  laneFold 0xA4 o (fun rm b ls =>
    let f := fmtOf o.t.toNat
    pure (ls.foldl (fun acc a => let r := fpAdd f rm acc.1 a; (r.1, acc.2 ||| r.2)) (b.toNat % 2 ^ f.width, 0))) s

/-! ### Conversions (R114-R118) -/

/-- The lanes of a conversion: for each destination lane, the source lane it takes, if any (R114). -/
def convSource (v ws wd q j : Nat) : Option Nat :=
  let e := v / max ws wd
  if ws ≤ wd then (if j < e then some (q * e + j) else none)
  else if q * e ≤ j && j < q * e + e then some (j - q * e) else none

/-- Convert the elements of part q, from lanes of width ws to those of width wd. -/
def convertLanes (o : Op) (ws wd q : Nat) (f : Nat → Nat × Flags) (a : Nat) : M Flow := do
  let s ← getS
  let v := vWidth s.prof
  let mask ← laneMaskM o (v / wd)
  let src := lanes ws a (v / ws)
  let rs := (List.range (v / wd)).map (fun j => (convSource v ws wd q j).map (fun i => f (lget 0 src i)))
  let live := (mask.zip rs).map (fun x => x.1 && x.2.isSome)
  let vals := rs.map (fun r => r.getD (0, 0))
  setFlags (laneFlags live vals)
  dstLanes o.d wd live (vals.map Prod.fst)
  pure .next

/-- The value of a VCVT source element. -/
def vcvtValue (src fmt : Nat) (uns : Bool) (bits : Nat) : FVal :=
  if src == 7 then decodeB8 bits fmt
  else if src < 4 then FVal.ofInt (laneInt (laneWidth src) uns bits)
  else (fmtOf src).decode bits

/-- R115's table for one element. -/
def vcvtElem (src dst fmt rm : Nat) (uns sat : Bool) (bits : Nat) : Nat × Flags :=
  let wd := laneWidth dst
  if src < 4 && dst < 4 then
    let i := laneInt (laneWidth src) uns bits
    if sat then clampInt wd uns i else (ofInt wd i, 0)
  else
    let x := vcvtValue src fmt uns bits
    if dst == 7 then roundB8 fmt rm sat x
    else if dst < 4 then roundInt wd (!uns) rm x
    else roundIeee (fmtOf dst) rm x

/-- VCVT (R115). An immediate is copied at the lane width that T selects (R40). -/
def execVcvt (o : Op) (s : State) : Host.Outcome State Fault Refusal :=
  runLanes 0xA5 o (do
    let src := o.m.toNat % 8
    let dst := o.t.toNat
    let rm ← roundMode
    let a ← srcV (laneWidth dst) (immValue o) o.a
    convertLanes o (laneWidth src) (laneWidth dst) (i18f o 9 8)
      (vcvtElem src dst (i18f o 7 0) rm (8 ≤ o.m.toNat) (i18f o 10 10 == 1)) a) s

/-- The legend operand of R116, checked whatever lanes are enabled. -/
def legendOperand (b : BitVec 64) : M Legend :=
  if isB8 (b.toNat % 256) then pure (b.setWidth 16) else raise .format b

/-- One element of VQUANT (R116). -/
def vquantElem (l : Legend) (src rm : Nat) (sat : Bool) (bits : Nat) : Nat × Flags :=
  if legScale l == 0x80 then (b8Nan (legFmt l), 0)
  else quantize (legFmt l) rm sat (legScale l) ((fmtOf src).decode bits)

/-- VQUANT (R116). An immediate is copied at the lane width that T = 7 selects (R40). -/
def execVquant (o : Op) (s : State) : Host.Outcome State Fault Refusal :=
  runLanes 0xA8 o (do
    let src := o.m.toNat
    let rm ← roundMode
    let a ← srcV 8 (immValue o) o.a
    let b ← srcX (immValue o) o.b
    let l ← legendOperand b
    convertLanes o (laneWidth src) 8 (i18f o 1 0) (vquantElem l src rm (i18f o 2 2 == 1)) a) s

/-- VDEQ (R116): the IEEE side is the destination. -/
def execVdeq (o : Op) (s : State) : Host.Outcome State Fault Refusal :=
  runLanes 0xA9 o (do
    let dst := o.m.toNat
    let rm ← roundMode
    let a ← srcV 8 (immValue o) o.a
    let b ← srcX (immValue o) o.b
    let l ← legendOperand b
    convertLanes o 8 (laneWidth dst) (i18f o 1 0) (fun c => roundIeee (fmtOf dst) rm (decodeElem c l)) a) s

/-- The value without its sign. -/
def FVal.abs : FVal → FVal
  | .fin _ m e => .fin false m e
  | .inf _ => .inf false
  | v => v

/-- VAMAX with an FP type: b is a running maximum. -/
def vamaxFp (f : Fmt) (b : Nat) (ls : List Nat) : Nat × Flags :=
  let all := (b % 2 ^ f.width) :: ls
  match nanOf f (all.map f.decode) with
  | some r => r
  | none => ((all.map (· % f.signBit)).foldl max 0, 0)

/-- VAMAX with T = 7: b is the lanes' legend. -/
def vamaxB8 (l : Legend) (rm : Nat) (ls : List Nat) : Nat × Flags :=
  let vs := ls.map (fun a => (decodeElem a l).abs)
  if vs.any FVal.isNan then (f32.nanBits, 0)
  else roundIeee f32 rm (vs.foldl (fun acc v => if FVal.cmp acc v == .lt then v else acc) (.fin false 0 0))

/-- VAMAX (R117). -/
def execVamax (o : Op) (s : State) : Host.Outcome State Fault Refusal :=
  laneFold 0xA6 o (fun rm b ls =>
    if o.t == 7 then do
      let l ← legendOperand b
      pure (vamaxB8 l rm ls)
    else pure (vamaxFp (fmtOf o.t.toNat) b.toNat ls)) s

/-- VSCALEQ (R118): guarded by bit 0. -/
def execVscaleq (o : Op) (s : State) : Host.Outcome State Fault Refusal :=
  runScalar 0xA7 o (do
    let a ← srcX (immValue o) o.a
    let f := i18f o 7 0
    let r := chooseScale [(fmtOf o.m.toNat).decode a.toNat] f
    setFlags r.2
    dstX o.d (BitVec.ofNat 64 (256 * r.1 + f))
    pure .next) s

/-! ### Bitmaps, compress and expand (R119, R120) -/

/-- VPOPC (R119). -/
def execVpopc (o : Op) (s : State) : Host.Outcome State Fault Refusal :=
  laneOp1 0xAA o (fun w _ a => (popCount a w, 0)) s

/-- Exclusive prefix sums from b over the enabled lanes. -/
def prefixSums : Nat → List Bool → List Nat → List Nat
  | b, true :: ms, a :: as => b :: prefixSums (b + a) ms as
  | b, false :: ms, _ :: as => b :: prefixSums b ms as
  | _, _, _ => []

/-- VPFX (R119). -/
def execVpfx (o : Op) (s : State) : Host.Outcome State Fault Refusal :=
  runLanes 0xAB o (do
    let w := laneWidth o.t.toNat
    let l ← laneCount o
    let mask ← laneMaskM o l
    let a ← srcV w (immValue o) o.a
    let b ← srcX (immValue o) o.b
    dstLanes o.d w mask (prefixSums (b.toNat % 2 ^ w) mask (lanes w a l))
    pure .next) s

/-- VCOMPR's lanes: the selected lanes in order, then zeros. -/
def compress (a : List Nat) (sel : List Bool) : List Nat :=
  let c := enabledLanes sel a
  c ++ List.replicate (a.length - c.length) 0

/-- VEXPND's lanes: the lanes of a in order at the selected positions, zeros elsewhere. -/
def expand : List Nat → List Bool → List Nat
  | a, true :: ps => a.headD 0 :: expand a.tail ps
  | a, false :: ps => 0 :: expand a ps
  | _, [] => []

/-- VCOMPR (R120). -/
def execVcompr (o : Op) (s : State) : Host.Outcome State Fault Refusal :=
  laneMove 0xAC o false (fun a _ p => compress a p) s
/-- VEXPND (R120). -/
def execVexpnd (o : Op) (s : State) : Host.Outcome State Fault Refusal :=
  laneMove 0xAD o false (fun a _ p => expand a p) s

/-! ### Local gather and scatter (R121-R123) -/

/-- The base of an own-window address. -/
def ownWindow : Nat := 0xFC * 2 ^ 56

/-- The element offsets of the enabled lanes, in local memory or in an SVC's buffer (R121). -/
def gatherOffsets (o : Op) (a : BitVec 64) (mask : List Bool) (ixs : List Nat) (size : Nat) : List Nat :=
  (enabledLanes mask ixs).map (fun b => (a.toNat + b * 2 ^ (o.m.toNat % 4)) % size)

/-- Whether VGATH and VSCAT may not reach an offset: a bank that is not ARRAY, or is spanned, or where a master's window reaches one of
its span's members (R122). -/
def State.gatherBad (s : State) (core off : Nat) : Bool :=
  let b := s.bank core (off / bankBytes)
  b.pers != 0 || b.spanned || (s.spanTarget core off).isSome

/-- The checks of R121 and R122 on a core; the lanes' addresses and their offsets in the actor's core. -/
def gatherItems (a : BitVec 64) (offs : List Nat) (n : Nat) : M (List (Nat × Nat)) := do
  if a.toNat / 2 ^ 17 != ownWindow / 2 ^ 17 then raise .rights a
  else
    match offs.find? (fun x => x % n != 0) with
    | some x => raise .align (BitVec.ofNat 64 (ownWindow + x))
    | none =>
      let s ← getS
      let core := (s.homeOf s.at_.1 s.at_.2).1
      match offs.find? (s.gatherBad core) with
      | some x => raise .bankop (BitVec.ofNat 64 (ownWindow + x))
      | none => pure (offs.map (fun x => (ownWindow + x, n)))

/-- Whether a BPERS from the issuing core is on its way to a bank that the lanes of a migrated firing touch: it goes first, so the
lanes wait until it has been performed (R123). -/
def State.bpersBefore (s : State) (items : List (Nat × Nat)) : Bool :=
  let (c, k) := s.at_
  let home := (s.homeOf c k).1
  s.net.any (fun p => p.src.1 == c && p.isLocal && p.dev == s.ownDev && p.core == home &&
    (match p.body with
     | .bank _ 0xB0 _ _ _ _ _ _ _ _ off => items.any (fun x => x.1 % 0x20000 / bankBytes == off / bankBytes)
     | _ => false))

def waitBpers (items : List (Nat × Nat)) : M Unit := do
  let s ← getS
  if s.bpersBefore items then stallOn .bank else pure ()

/-- The ALIGN check on an SVC. -/
def gatherAlign (offs : List Nat) (n : Nat) : M Unit :=
  match offs.find? (fun x => x % n != 0) with
  | some x => raise .align (BitVec.ofNat 64 x)
  | none => pure ()

/-- VGATH (R121-R123). -/
def execVgath (o : Op) (s : State) : Host.Outcome State Fault Refusal :=
  runLanes 0xAE o (do
    let w := laneWidth o.t.toNat
    let l ← laneCount o
    let mask ← laneMaskM o l
    let a ← rdReg o.a
    let b ← srcV w (immValue o) o.b
    if ← onSvc then
      let offs := gatherOffsets o a mask (lanes w b l) bufferBytes
      gatherAlign offs (w / 8)
      let bs ← offs.foldlM (fun acc x => do let y ← bufferLoad (BitVec.ofNat 64 x) (w / 8); pure (acc ++ y)) []
      dstLanes o.d w mask (loadLanes w mask bs 0)
      pure .next
    else
      let items ← gatherItems a (gatherOffsets o a mask (lanes w b l) 0x20000) (w / 8)
      watch true false items
      waitBpers items
      let base ← if mask.all id then pure 0 else oldV o.d
      issueLoad items (w / 8) 0 false false none
        (match o.d with
         | .queue q => .lanesq q.val w mask
         | d => .lanes (regNum d) w mask (BitVec.ofNat 256 base)) (lenBytes o.len)) s

/-- VSCAT (R121-R123). -/
def execVscat (o : Op) (s : State) : Host.Outcome State Fault Refusal :=
  runLanes 0xAF o (do
    let w := laneWidth o.t.toNat
    let l ← laneCount o
    let mask ← laneMaskM o l
    let a ← rdReg o.a
    let b ← srcV w (immValue o) o.b
    let c ← srcV w (immValue o) o.c
    let vals := enabledLanes mask (lanes w c l)
    if ← onSvc then
      let offs := gatherOffsets o a mask (lanes w b l) bufferBytes
      gatherAlign offs (w / 8)
      let _ ← (offs.zip vals).foldlM (fun _ x => bufferStore (BitVec.ofNat 64 x.1) (natToBytes (w / 8) x.2)) ()
      pure .next
    else
      let items ← gatherItems a (gatherOffsets o a mask (lanes w b l) 0x20000) (w / 8)
      waitBpers items
      storeLanes .scat items vals false true (lenBytes o.len)) s

end Sys2Proof.Machine
end

