-- ==== Sys2Proof/Machine/Sched.lean ====
section
/-! DEFINITION. What a slot does between instructions: fetch and breakpoints (R34, R46, R257, R340, R345), the issue port
(R17), firing starts and ends (R31, R191-R193, R208), QSTALL, vector wakes and PC sampling (R25, R214, R346). -/

namespace Sys2Proof.Machine

/-! ### Fetch (R257, R308, R340) -/

def icacheBlocks : Nat := 1024

/-- Copy a block of code into the instruction cache; the oldest leaves when it is full. -/
def Core.addBlock (c : Core) (b : CodeBlock) : Core := { c with icache := (b :: c.icache).take icacheBlocks }

/-- The rest of the fetch block at pc, for a slot: from its cache under its rights, or filled from the home's slice, in its turn there
and over links that carry traffic (R261, R382). A block is
fetched when an instruction of it is to issue, never ahead (DESIGN CHOICE, log entry 51: R47 lets fetch run ahead of issue). -/
def fetchSlot (c k : Nat) (pc : BitVec 64) : M (List Byte) := do
  let s ← getS
  let dom := s.checkDom c k
  let a := pc.toNat / 32 * 32
  let tail (d : BitVec 256) : List Byte := (bvBytes 32 d).drop (pc.toNat % 32)
  let lost (s : State) : M (List Byte) := holdIn (s.trapCur .machinecheck pc)
  match (s.core c).icache.find? (fun b => b.block == a && b.dom == dom) with
  | some b =>
    if s.poison.contains (Poison.code c a) then
      lost ({ s with poison := s.poison.filter (· != Poison.code c a) }.modCore c (fun x =>
        { x with icache := x.icache.filter (fun y => y.block != a) }))
    else pure (tail b.data)
  | none =>
    if 2 ^ 56 ≤ a then raise .rights pc
    else
      let e ← plbEntry a pc
      requireRight e.x pc
      let s ← getS
      let (dev, h) := e.home a
      requireRight (s.deviceOk dev) pc
      let put (d : BitVec 256) : M Unit := modS (fun s => s.modCore c (·.addBlock { block := a, dom, data := d }))
      if s.isLost dev then raise .machinecheck pc
      else if dev != s.ownDev then
        if !s.fabricUp dev then stallOn .fetch
        else
        let (bs, s1) := s.freeBytes 32
        modS (fun _ => s1)
        put (bytesBv 256 bs)
        pure (tail (bytesBv 256 bs))
      else if s.guardHeld a false then stallOn .guard
      else if !s.stacksJoined (coreStack c) (coreStack h) then stallOn .fetch
      else if !s.lineReady h a then
        if (s.slot c k).badLine == some (line256 a) then raise .page pc
        else askFor (fun s => s.askMiss h a (s.slot c k).regs.qos.toNat .fetch)
      else if !s.hitServed h a (s.slot c k).regs.qos.toNat then stallOn .backpressure
      else if s.poison.contains (.line (line64 a)) then raise .machinecheck pc
      else
        let d : BitVec 256 := bytesBv 256 (s.readHome h a 32).1
        modS (fun s => s.modSlice (sliceOf h a) (·.spend (s.slot c k).regs.qos.toNat 1))
        put d
        pure (tail d)

/-- The rest of the fetch block at pc, for an SVC: the block of its buffer that it fetched last, until a control transfer or
fall-through into another (R308). -/
def fetchSvc (n : Nat) (pc : BitVec 64) : M (List Byte) := do
  let s ← getS
  let v := s.svc n
  let a := pc.toNat / 32 * 32
  match v.code.bind (fun b => if b.1 == a then some b.2 else none) with
  | some bs => pure (bs.drop (pc.toNat % 32))
  | none =>
    if bufferBytes ≤ pc.toNat then raise .rights pc
    else if v.rowHeld a 32 false then stallOn .range
    else if s.poison.contains (.buffer n (a / 64)) then raise .machinecheck pc
    else
      let bs := Mem.readN v.mem a 32
      modS (fun s => s.modSvc n (fun v => { v with code := some (a, bs) }))
      pure (bs.drop (pc.toNat % 32))

def fetchBytes : M (List Byte) := fun s =>
  match s.cur with
  | .slot c k => fetchSlot c k s.thread.pc s
  | .svc n => fetchSvc n s.thread.pc s

/-! ### Breakpoints (R345) -/

/-- The breakpoint comparators that an instruction's pc matches. -/
def State.breakHits (s : State) (c k : Nat) (pc : BitVec 64) : List (Nat × Nat × Comparator) :=
  let sl := s.slot c k
  if sl.noMatch then [] else (s.comparators c k 0).filter (fun w => w.2.2.hits sl.km pc.toNat 1)

/-- The identity of the first that traps: 1 << 63 OR e << 8 OR n. -/
def breakValue (hits : List (Nat × Nat × Comparator)) : Option (BitVec 64) :=
  (hits.find? (fun w => !w.2.2.ctl.getLsbD 9)).map (fun w => BitVec.ofNat 64 (2 ^ 63 + 2 ^ 8 * w.1 + w.2.1))

def State.breakTrace (s : State) (c k : Nat) (pc : BitVec 64) (hits : List (Nat × Nat × Comparator)) : State :=
  hits.foldl (fun s w => s.traceCore c 0x0B (BitVec.ofNat 48 (w.1 + 256 * w.2.1 + 1024 * k)) pc) s

/-! ### Handlers (R182, R190, R191) -/

def htabEntry (h : BitVec 64) : Nat := h.toNat / 2 ^ 32
def htabLimit (h : BitVec 64) : Nat := bitsOf h.toNat 19 16
def htabThresh (h : BitVec 64) : Nat := bitsOf h.toNat 11 8
def htabPrio (h : BitVec 64) : Nat := h.toNat % 8

/-- PEND.c (R190). -/
def State.pendingBit (s : State) (c k ch : Nat) : Bool :=
  let a := (s.slot c k).act
  a.en.getLsbD ch && (htabThresh (vget 0 a.htab ch) ≤ (s.bank c a.mbox.toNat).count ch || a.soft.getLsbD ch)

def State.pendingHandlers (s : State) (c k : Nat) : List Nat := (List.range 16).filter (s.pendingBit c k)

/-- The handler that selection starts (R191): one passed over 16 times, else the highest priority; the lowest channel. -/
def State.selectHandler (s : State) (c k : Nat) : Option Nat :=
  let sl := s.slot c k
  let ps := s.pendingHandlers c k
  match ps.find? (fun ch => 16 ≤ aget 0 sl.passed ch) with
  | some ch => some ch
  | none => ps.foldl (fun best ch =>
      match best with
      | none => some ch
      | some b => if htabPrio (vget 0 sl.act.htab b) < htabPrio (vget 0 sl.act.htab ch) then some ch else some b) none

/-- The count of consecutive selections that passed each pending handler over. -/
def passCounts (pending : List Nat) (chosen : Nat) (old : List (Nat × Nat)) : List (Nat × Nat) :=
  (pending.filter (· != chosen)).map (fun ch => (ch, aget 0 old ch + 1))

/-! ### Firings (R31, R191-R193) -/

/-- A destination of a load that its firing no longer has: nothing is written. Queue destinations remain. -/
def LoadDst.forget (d : LoadDst) : LoadDst :=
  let gone (o : Opd) : Opd := match o with | .queue n => Opd.queue n | _ => Opd.reg 0
  match d with
  | .x _ sz => .x 0 sz
  | .xx _ _ sz => .xx 0 0 sz
  | .v _ => .x 0 8
  | .lanes .. => .x 0 8
  | .lgx _ => .lgx 0
  | .qq a b sz => LoadDst.qq (gone a) (gone b) sz
  | d => d

/-- The registers at a firing's start (R31). -/
def Slot.startRegs (sl : Slot) (f : Firing) (xs : List (Nat × BitVec 64)) (pc : BitVec 64) : Slot :=
  { sl with
    thr := { xs.foldl (fun (t : Thread) x => t.setX x.1 x.2) { ({} : Thread) with rm := sl.thr.rm, flags := sl.thr.flags } with pc }
    v := Vector.replicate 32 0
    regs := { sl.regs with bst := 0, livev := 0, barpend := 0 }
    act := { sl.act with returns := 0 }
    owed := sl.owed.map (fun o => { o with dst := o.dst.forget })
    poisonX := [], firing := some f, sent := 0, status := .ready, km := false, readyFor := 0, waited := 0, noMatch := false
    pend := none, stealWait := 0, roundLeft := none, stealAt := none, taskWait := none, leaving := false }

/-- Start a firing at an entry: a misaligned entry raises ALIGN at once (R193). -/
def State.startFiring (s : State) (c k : Nat) (f : Firing) (xs : List (Nat × BitVec 64)) (pc : BitVec 64) : State :=
  let s1 := s.modSlot c k (fun x => x.startRegs f ((3, x.act.abase) :: xs) pc)
  if pc.toNat % 4 == 0 then s1 else s1.takeTrap c k .align pc pc

/-- The header of the head entry of a channel, 0 when it is empty (R188). -/
def State.headHeader (s : State) (c b ch : Nat) : BitVec 64 := lget 0 (lget [] (s.bank c b).hdrs ch) 0

/-- SOURCE of a header, as an address. -/
def headerSource (h : BitVec 64) : BitVec 64 := BitVec.ofNat 64 (bitsOf h.toNat 55 28)

/-- Start the selected handler of a WAITING slot. -/
def State.fireHandler (s : State) (c k : Nat) : State :=
  let sl := s.slot c k
  if sl.status != .waiting || sl.haltReq || sl.halted || sl.stealAt.isSome then s
  else match s.selectHandler c k with
    | none => s
    | some ch =>
      let src := headerSource (s.headHeader c sl.act.mbox.toNat ch)
      let s1 := s.modSlot c k (fun x => { x with
        passed := passCounts (s.pendingHandlers c k) ch x.passed
        act := { x.act with soft := x.act.soft &&& ~~~((1 : BitVec 16) <<< ch) } })
      s1.startFiring c k (.handler ch) [(4, src), (5, BitVec.ofNat 64 ch)]
        (sl.act.acode + BitVec.ofNat 64 (htabEntry (vget 0 sl.act.htab ch)))

/-- FIRING_START (R191): a WAITING slot with a pending handler starts it. -/
def execFiringStart (core slot : Nat) (s : State) : Host.Outcome State Fault Refusal := .next (s.fireHandler core slot)

/-- End the firing of slot k as DONE does (R208): the slot, or the actor's slot of a guest, becomes WAITING. -/
def Slot.endFiring (sl : Slot) : Slot :=
  { sl with firing := none, km := false, status := .waiting, pend := none, readyFor := 0, waited := 0 }

/-- The end of a firing in its slot, or at a guest (R253). -/
def State.endFiring (s : State) (c k : Nat) : State :=
  match (s.slot c k).guest with
  | none => s.modSlot c k (·.endFiring)
  | some h => (s.returnHome c k).modSlot h.1 h.2 (·.endFiring)

/-! ### The issue port (R17) -/

/-- The issue key of a slot. -/
def Slot.key (sl : Slot) : Nat :=
  if sl.km then 8
  else match sl.firing with
    | some (.handler ch) => htabPrio (vget 0 sl.act.htab ch)
    | _ => 0

/-- Whether a slot may be chosen: READY and not asked to halt. -/
def Slot.pickable (sl : Slot) : Bool := sl.status == .ready && !sl.haltReq && !sl.halted

/-- Whether slot k of a core may be chosen: a held matrix sequence that is due restarts first (R174). -/
def Core.pickable (c : Core) (k : Nat) : Bool := (c.slot k).pickable && !(c.mu.due && bitsOf c.mu.mseq.toNat 62 61 == k)

/-- The cyclic order after a slot. -/
def afterSlot (last : Nat) : List Nat := (List.range 4).map (fun i => (last + 1 + i) % 4)

/-- The slot a core's forced rule chooses, if one has been READY for 60 cycles. -/
def Core.forced (c : Core) : Option Nat :=
  (afterSlot c.last).find? (fun k => c.pickable k && 60 ≤ (c.slot k).readyFor)

/-- The slot that issues (R17). -/
def Core.choose (c : Core) : Option Nat :=
  match c.forced with
  | some k => some k
  | none =>
    ((afterSlot c.last).filter c.pickable).foldl (fun best k =>
      match best with
      | none => some k
      | some b => if (c.slot b).key < (c.slot k).key then some k else some b) none

/-- Grant a core's issue to a slot: the next step issues its instruction. -/
def State.grant (s : State) (c : Nat) (k : Option Nat) : State :=
  match k with
  | none => s
  | some k => if (s.core c).issued.isSome then s else { s with cur := .slot c k, granted := true }

/-- FORCED_ISSUE (R17): a slot READY for 60 cycles is chosen. -/
def execForcedIssue (core : Nat) (s : State) : Host.Outcome State Fault Refusal :=
  .next (s.grant core (s.core core).forced)

/-! ### QSTALL, vector wakes, STOREFAULT -/

/-- The blocking specifier of a stalled slot (R214). -/
def Slot.blockedOn (sl : Slot) : Option Nat :=
  match sl.status with
  | .stalled (.queue q) => some (48 + q)
  | .stalled (.channel ch) => some (32 + ch)
  | _ => none

/-- QSTALL is due: blocked for more than QWAIT.LIMIT of the core's cycles, unless the limit is disabled. A slot that halts stands at
the boundary before its instruction (R365, R366). -/
def Slot.qstallDue (sl : Slot) : Bool :=
  sl.pend.isNone && !sl.haltReq && !sl.halted && sl.regs.qwaitLimit != 0xFFFFFFFF && sl.regs.qwaitLimit.toNat < sl.waited

def State.qstallCheck (s : State) (c k : Nat) : State :=
  let sl := s.slot c k
  match sl.blockedOn with
  | some sp => if sl.qstallDue then s.takeTrap c k .qstall (BitVec.ofNat 64 sp) sl.thr.pc else s
  | none => s

/-- QSTALL (R214). -/
def execQstall (core slot : Nat) (s : State) : Host.Outcome State Fault Refusal := .next (s.qstallCheck core slot)

/-- A gated group wakes: N covers it, and a group that lost its contents reads zero and sets VWAKE (R25). -/
def SlotRegs.wake (r : SlotRegs) (g : Nat) : SlotRegs :=
  if g ≤ r.vuseN.toNat then r
  else
    let woken : BitVec 4 := BitVec.ofNat 4 (2 ^ (g + 1) - 2 ^ (r.vuseN.toNat + 1))
    { r with vuseN := BitVec.ofNat 2 g, vwake := r.vwake || (r.vlost &&& woken) != 0, vlost := r.vlost &&& ~~~woken }

/-- VECTOR_WAKE (R25): the group that a stalled instruction names wakes. -/
def execVectorWake (core slot : Nat) (s : State) : Host.Outcome State Fault Refusal :=
  .next (match (s.slot core slot).status with
    | .stalled (.vwake g) => s.modSlot core slot (fun x => { x with regs := x.regs.wake (g % 4), status := .ready })
    | _ => s)

/-- Whether a slot stands at the boundary of its next instruction, with nothing of an earlier one in progress: a JOB that waits has
no effect yet (R339). -/
def Slot.atBoundary (sl : Slot) : Bool :=
  !sl.killed && !sl.halted && sl.awayAt.isNone &&
  match sl.status with
  | .ready => true
  | .stalled _ => (match sl.pend with | none => true | some (.job _ _) => true | _ => false)
  | _ => false

/-- STOREFAULT (R339): a pending report is taken at the slot's boundary, before a halt that is asked for (R328). -/
def execStorefault (core slot : Nat) (s : State) : Host.Outcome State Fault Refusal :=
  let sl := s.slot core slot
  .next (if sl.sfPending && sl.atBoundary && !sl.draining then s.takeStorefault core slot sl.thr.pc else s)

/-! ### PC sampling (R346, R347) -/

/-- The REASON code of a wait. -/
def Wait.code : Wait → Nat
  | .operand => 2 | .memReply => 3 | .remoteReply => 4 | .plbFill => 5 | .storeQueue => 6 | .fence => 7 | .release => 8
  | .barrier => 9 | .channel _ => 10 | .queue _ => 11 | .room _ => 11 | .bank => 12 | .matrix => 13 | .range => 14 | .vwake _ => 15
  | .backpressure => 16 | .guard => 17 | .away => 18 | .fetch => 19 | .accept => 20

/-- Which of the operands D, A, B and C of an opcode are v registers, where they name a register. -/
def vOperands (code : Nat) : List Bool :=
  if code == 0x64 || code == 0x66 || code == 0x9C || code == 0x9E then [true, false, false, false]
  else if code == 0x65 || code == 0xE1 then [false, false, true, false]
  else if code == 0x67 then [false, false, false, true]
  else if code == 0x99 || code == 0x9A || code == 0xA5 then [code == 0xA5, true, true, false]
  else if code == 0x9D || (0xA1 ≤ code && code ≤ 0xA4) then [false, true, false, false]
  else if code == 0xA6 then [false, true, true, false]
  else if code == 0xA7 then [false, false, false, false]
  else if code == 0xA8 || code == 0xA9 || code == 0xAB then [true, true, false, false]
  else if code == 0xAE then [true, false, true, false]
  else if code == 0xAF then [false, false, true, true]
  else if 0x80 ≤ code && code ≤ 0xAD then [true, true, true, code == 0x90]
  else [false, false, false, false]

/-- The REASON codes of what holds one operand: a register that a load owes, a gated register, an empty channel, a queue that is
empty or full. -/
def State.operandCodes (s : State) (c k : Nat) (dst isV : Bool) (o : Opd) : List Nat :=
  let sl := s.slot c k
  match o with
  | .reg n =>
    if isV then
      (if sl.owed.any (fun x => x.dst.coversV n.val) then [4] else []) ++ (if sl.regs.gated n.val then [15] else [])
    else if n.val != 0 && sl.owed.any (fun x => x.dst.coversX n.val) then [4] else []
  | .chan i => if (s.bank c sl.act.mbox.toNat).count i.val == 0 then [10] else []
  | .queue q => if (if dst then (s.core c).room q.val == 0 else (s.core c).queue q.val == []) then [11] else []
  | _ => []

/-- The bytes that a memory instruction is to access: LD to LGST, the atomics, VGATH and VSCAT. -/
def memoryItems (code : Nat) (o : Op) : M (List (Nat × Nat)) := do
  let a ← rdReg o.a
  let e := a + byteOffset o
  let n := typeBytes o
  if code == 0x60 || code == 0x61 then pure [(e.toNat, n)]
  else if code == 0x62 || code == 0x63 then pure [(e.toNat, 2 * n)]
  else if code == 0x64 || code == 0x65 then pure [(e.toNat, 32)]
  else if code == 0x66 || code == 0x67 then
    let mask ← laneMaskM o (lanesOf .core o.t.toNat)
    let b ← rdReg o.b
    pure (strideItems mask e b (laneWidth o.t.toNat / 8))
  else if code == 0x68 || code == 0x69 then pure [(e.toNat / 64 * 64, 64)]
  else if code == 0xAE || code == 0xAF then
    let w := laneWidth o.t.toNat
    let l ← laneCount o
    let mask ← laneMaskM o l
    let b ← srcV w (immValue o) o.b
    gatherItems a (gatherOffsets o a mask (lanes w b l) 0x20000) (w / 8)
  else if 0x70 ≤ code && code ≤ 0x7A then pure [(e.toNat, if code == 0x7A then (fmtOf o.t.toNat).width / 8 else n)]
  else pure []

/-- The parts of those accesses, with their kinds and targets where these are known. -/
def State.memoryParts (s : State) (c k code : Nat) (o : Op) : List (Part × Option (Target × Kind)) :=
  match memoryItems code o { s with cur := .slot c k } with
  | .error _ => []
  | .ok (its, _) => its.flatMap (fun it => match s.locate c k it.1 it.2 with
      | none => []
      | some (.glob a n) => (parts64 a n).map (fun p => (.glob p.1 p.2, ((s.core c).plbFind (s.checkDom c k) p.1).map (fun e =>
          ({ dev := (e.home p.1).1, core := (e.home p.1).2, isLocal := false }, e.kind))))
      | some (.loc d core a n) => [(.loc d core a n, some ({ dev := d, core, isLocal := true },
          if d == s.ownDev then s.localKind core a else .rc))])

/-- The REASON codes of what holds one part of a load or an atomic: earlier accesses, a PLB fill, its line, a held range. -/
def State.partCodes (s : State) (c k : Nat) (x : Part × Option (Target × Kind)) : List Nat :=
  let sl := s.slot c k
  (if sl.storeOverlap x.1 then [6] else []) ++
  (match x.2 with
    | none => [5]
    | some (t, kd) =>
      (if (kd == .so && sl.soPending) || sl.farStore t || s.laneHolds c k kd t then [4] else []) ++
      (match x.1 with
        | .glob a _ => if t.dev == s.ownDev && !s.lineReady t.core a then [if t.core == c then 3 else 4] else []
        | .loc d core a n => if d == s.ownDev && core == c && s.localHeld core a n false then [14] else []))

/-- The REASON codes of what holds a memory instruction: the order of R265, R266 and R269, its translation and lines, and the room of
the store queue. -/
def State.memoryReasons (s : State) (c k code : Nat) (o : Op) : List Nat :=
  let sl := s.slot c k
  let atomic := 0x70 ≤ code && code ≤ 0x7A
  let load := [0x60, 0x62, 0x64, 0x66, 0x68, 0xAE].contains code || atomic
  let store := [0x61, 0x63, 0x65, 0x67, 0x69, 0xAF].contains code
  (if load && sl.acquiring then [4] else []) ++
  (if load then (s.memoryParts c k code o).flatMap (s.partCodes c k) else []) ++
  (if (atomic && !sl.sq.isEmpty) || (store && (sqCap ≤ sl.sq.length || uasCap ≤ sl.uas)) then [6] else []) ++
  (if (store || atomic) && code != 0x69 && code != 0xAF && isRel o && s.releasing c k then [8] else [])

/-- Whether an instruction's guard acts per lane, or lets it act (R15). -/
def Slot.acts (sl : Slot) (code : Nat) (o : Op) : Bool :=
  code == 0x66 || code == 0x67 || code == 0xE1 || (0x80 ≤ code && code ≤ 0xAF) || sl.thr.guardBit o

/-- The REASON codes of what holds the instruction that a stalled slot is to issue, where its block is in the instruction cache: its
operands, its accesses, and the skid bound. -/
def State.operandReasons (s : State) (c k : Nat) : List Nat :=
  let sl := s.slot c k
  let a := sl.thr.pc.toNat / 32 * 32
  match (s.core c).icache.find? (fun b => b.block == a && b.dom == s.checkDom c k) with
  | none => []
  | some b => match decodeBlock .core ((bvBytes 32 b.data).drop (sl.thr.pc.toNat % 32)) with
    | .error _ => []
    | .ok (i, _) => match opOf i with
      | none => []
      | some (code, o) =>
        let v := vOperands code
        (if ({ s with cur := .slot c k } : State).skidFull then [6] else []) ++
        (if !sl.acts code o then []
          else s.operandCodes c k true (lget false v 0) o.d ++ s.operandCodes c k false (lget false v 1) o.a ++
            s.operandCodes c k false (lget false v 2) o.b ++ s.operandCodes c k false (lget false v 3) o.c ++
            s.memoryReasons c k code o)

/-- The reason a slot is where it is: of several that hold it, the lowest (R347). -/
def State.reason (s : State) (c k : Nat) : Nat :=
  let sl := s.slot c k
  if (s.core c).issued == some k then 0
  else match sl.status with
    | .ready => 1
    | .waiting => 21
    | .idle => 22
    | .stalled w => if sl.pend.isSome || sl.awayAt.isSome then w.code else (s.operandReasons c k).foldl min w.code

/-- SAMPINFO of a sample. -/
def State.sampleInfo (s : State) (c k : Nat) : BitVec 64 :=
  let sl := s.slot c k
  BitVec.ofNat 64 (2 ^ 63 + 2 ^ 61 * k + 2 ^ 60 * sl.km.toNat + 2 ^ 51 * s.reason c k + 2 ^ 32 * s.domainOf c k +
    (s.core c).cyc.toNat % 2 ^ 32)

/-- Put one entry into the ring of 256. -/
def Sampler.put (x : Sampler) (r : SampRec) : Sampler :=
  if x.ring.length < 256 then { x with ring := x.ring ++ [r] }
  else { x with ring := x.ring.drop 1 ++ [r], lost := if x.lost == BitVec.allOnes 32 then x.lost else x.lost + 1 }

/-- One sample of slot k: the PC of its next instruction, 0 where there is none. -/
def State.sampleSlot (s : State) (c k : Nat) : State :=
  let sl := s.slot c k
  let pc : BitVec 64 := match sl.status with | .ready => sl.thr.pc | .stalled _ => sl.thr.pc | _ => 0
  let info := s.sampleInfo c k
  let s1 := s.modCore c (fun x => { x with samp := x.samp.put { pc, info } })
  if (s.core c).samp.trace then s1.traceCore c 0x0C (BitVec.ofNat 48 (info.toNat / 2 ^ 32)) pc else s1

/-- The sampler's due entries, one for each slot in SLOTS. -/
def State.sample (s : State) (c : Nat) : State :=
  let x := (s.core c).samp
  if x.period == 0 || x.count < x.period.toNat then s
  else
    let s1 := s.modCore c (fun y => { y with samp := { y.samp with count := 0 } })
    ((List.range 4).filter (fun k => x.slots.getLsbD k)).foldl (fun s k => s.sampleSlot c k) s1

/-- PC_SAMPLE (R346): the period has passed. -/
def execPcSample (core : Nat) (s : State) : Host.Outcome State Fault Refusal := .next (s.sample core)

end Sys2Proof.Machine
end

