-- ==== Sys2Proof/Machine/Messaging.lean ====
section
/-! DEFINITION. Messages (R185-R208, R290): sending, the retry entries of an NI, the decision at a mailbox, answers,
back-off and returns; and the channel and handler instructions. -/

namespace Sys2Proof.Machine

/-! ### Actor addresses (R185, R186, R222) -/

def adrSys (a : Nat) : Bool := bitsOf a 27 27 == 1
def adrTr (a : Nat) : Bool := bitsOf a 26 26 == 1
def adrDev (a : Nat) : Nat := bitsOf a 25 18
def adrCore (a : Nat) : Nat := bitsOf a 17 6
def adrSlot (a : Nat) : Nat := bitsOf a 5 4
def adrChan (a : Nat) : Nat := a % 16

/-- The checks of R186; `size` is the number of members of the sender's team. -/
def State.addressOk (s : State) (size : Nat) (a : Nat) : Bool :=
  bitsOf a 63 28 == 0 &&
  (!adrTr a || (adrDev a == 0 && !adrSys a && adrCore a < size)) &&
  (!adrSys a || (adrSlot a == 0 && (adrCore a == 0xFFE || adrCore a == 0xFFF))) &&
  (adrTr a || s.deviceOk (adrDev a))

/-- The device, core, slot and channel that an address resolves to now; none where its team is not placed, or has ended. -/
def State.resolveActor (s : State) (team : Option Nat) (a : Nat) : Option (Nat × Nat × Nat × Nat) :=
  if adrTr a then
    ((team.bind s.team).bind (fun t => if t.st == .ended then none else t.coreOfMember (adrCore a))).map
      (fun c => (s.ownDev, c, adrSlot a, adrChan a))
  else some (adrDev a, adrCore a, adrSlot a, adrChan a)

/-- The key under which an NI orders messages to a channel (R200): where the address resolves now; while its team is not placed,
the member, slot and channel that it names. -/
def State.keyOf (s : State) (team : Option Nat) (a : Nat) : Nat × Nat × Nat × Nat :=
  (s.resolveActor team a).getD (256 + team.getD 0, adrCore a, adrSlot a, adrChan a)

/-- The physical actor address of a slot, channel 0. -/
def State.physActor (s : State) (c k : Nat) : BitVec 28 := BitVec.ofNat 28 (s.ownDev * 2 ^ 18 + c * 2 ^ 6 + k * 2 ^ 4)
/-- Its TR form for a member. -/
def trActor (m k : Nat) : BitVec 28 := BitVec.ofNat 28 (2 ^ 26 + m * 2 ^ 6 + k * 2 ^ 4)
def State.sysActor (s : State) (core : Nat) : BitVec 28 := BitVec.ofNat 28 (2 ^ 27 + s.ownDev * 2 ^ 18 + core * 2 ^ 6)

/-! ### The units that send: slots, cluster schedulers, the main scheduler and the port (R195, R290, R393) -/

def unitOfSlot (c k : Nat) : Nat := 4 * c + k
def unitCluster (n : Nat) : Nat := 16384 + n
def unitMain : Nat := 16416
def unitPort : Nat := 16417

/-- The retry entries of a unit, oldest first. -/
def State.niOf (s : State) (u : Nat) : List NiEntry :=
  if u < 16384 then (s.slot (u / 4) (u % 4)).ni
  else if u < 16416 then (s.cluster (u - 16384)).compl
  else if u == unitMain then s.port.kcompl
  else if u == unitPort then s.port.ni
  else []

def State.setNi (s : State) (u : Nat) (l : List NiEntry) : State :=
  if u < 16384 then s.modSlot (u / 4) (u % 4) (fun x => { x with ni := l })
  else if u < 16416 then s.modCluster (u - 16384) (fun x => { x with compl := l })
  else if u == unitMain then s.modPort (fun p => { p with kcompl := l })
  else if u == unitPort then s.modPort (fun p => { p with ni := l })
  else s

def State.modNi (s : State) (u : Nat) (f : List NiEntry → List NiEntry) : State := s.setNi u (f (s.niOf u))

/-- The messages of a team's actors take the keys of the channels that their addresses name now, and their SOURCE, when the team is
placed or swapped out (R222, R290). -/
def State.rekey (s : State) (h : Nat) : State :=
  let from_ (m : Msg) : Msg := match m.tr with
    | some (t, a) => (match (s.team t).bind (fun x => x.coreOfMember (adrCore a.toNat)) with
      | some c => { m with source := s.physActor c (adrSlot a.toNat) } | none => m)
    | none => m
  let f (l : List NiEntry) : List NiEntry :=
    l.map (fun e => if e.team == some h then { e with dc := s.keyOf e.team e.addr.toNat, msg := from_ e.msg } else e)
  { s with
    cores := s.cores.map (fun x => (x.1, { x.2 with slots := x.2.slots.map (fun y => { y with ni := f y.ni }) }))
    clusters := s.clusters.map (fun x => (x.1, { x.2 with compl := f x.2.compl }))
    port := { s.port with kcompl := f s.port.kcompl, ni := f s.port.ni } }

/-- The initial back-off of a unit (R184, R290). -/
def State.backoffBase (s : State) (u : Nat) : Nat :=
  if u < 16384 then max 1 (s.slot (u / 4) (u % 4)).act.backoff.toNat else 64

/-- Whether two entries go to one destination channel (R200). -/
def NiEntry.sameKey (a b : NiEntry) : Bool := a.sys == b.sys && a.dc == b.dc

/-- Whether an entry holds a refused or held message (R184 HELD). -/
def NiEntry.isHeld (e : NiEntry) : Bool :=
  match e.st with | .backoff _ => true | .held => true | .returning _ => true | _ => false

def NiEntry.isReturning (e : NiEntry) : Bool := match e.st with | .returning _ => true | _ => false

/-! ### Launching (R200-R203) -/

/-- The header of an attempt: SOURCE names where the sending actor lives now (R188, R289). -/
def State.attempt (s : State) (m : Msg) (retry : Bool) : Msg :=
  match m.tr.bind (fun x => ((s.team x.1).bind (fun t => t.coreOfMember (adrCore x.2.toNat))).map (fun c => (c, adrSlot x.2.toNat))) with
  | some (c, k) => { m with retry, source := s.physActor c k }
  | none => { m with retry }

/-- Put an entry's message on the network. An address whose team is not placed is answered AWAY, or ABSENT when the team
has ended (R222, R290). -/
def State.launch (s : State) (u : Nat) (e : NiEntry) (retry : Bool) : State :=
  let e1 := { e with st := .flying, msg := s.attempt e.msg retry }
  let s1 := s.modNi u (fun l => l.map (fun x => if x.id == e.id then e1 else x))
  let src := if u < 16384 then (u / 4, u % 4) else (4096, u)
  match s.resolveActor e.team e.addr.toNat with
  | some (dev, core, slot, _) =>
    s1.sendPacket { src, unit := u, dev, core, slot, dom := e.msg.dom, body := .msg e1.msg e.id }
  | none =>
    let gone : Bool := match e.team.bind s.team with | some t => t.st == .ended | none => true
    s1.sendPacket { src := (4096, 0), unit := u, dev := s.ownDev, core := src.1, slot := src.2,
                    body := .answer e.id (if gone then 4 else 3) }

/-- Whether an entry may be launched: a first launch waits for its stores and for older messages to its channel to be
launched; a message with RETRY = 1 waits until no older one is unanswered or held, those held behind a returned `.nr`
message apart for a `.rt` one (R200). A slot that GKILL retires launches no more (R342). -/
def State.mayLaunch (s : State) (u : Nat) (e : NiEntry) : Bool :=
  let l := s.niOf u
  let older := l.filter (fun x => x.id < e.id && x.sameKey e && !x.isReturning)
  let before := (l.takeWhile (fun x => x.id != e.id)).filter (fun x => x.sameKey e && !x.isReturning)
  let stored := !e.release || u ≥ 16384 || !s.storesBefore (u / 4, u % 4) e.upTo
  if u < 16384 && (s.slot (u / 4) (u % 4)).dying then false
  else match e.st with
  | .release =>
    if e.bypass then stored && older.all (fun x => x.behindReturn && x.st != .flying && !x.bypass)
    else stored && !e.behindReturn && older.all (fun x => x.st == .flying)
  | .held => stored && !e.behindReturn && before.isEmpty
  | _ => false

/-- Whether an entry not yet launched joins the hold of an older refused message (R200). -/
def State.mustHold (s : State) (u : Nat) (e : NiEntry) : Bool :=
  e.st == .release && !e.bypass &&
    (e.behindReturn || (s.niOf u).any (fun x => x.id < e.id && x.sameKey e && x.isHeld && !x.isReturning))

/-- Launch the oldest held message to an entry's channel, when nothing is before it (R201). -/
def State.pump (s : State) (u : Nat) (e : NiEntry) : State :=
  match (s.niOf u).find? (fun x => x.sameKey e && !x.isReturning) with
  | some x => if x.st == .held && s.mayLaunch u x then s.launch u x true else s
  | none => s

/-- SEND_LAUNCH (R195, R200): entry n of a unit leaves its NI once it may, or joins the hold of its channel. -/
def execSendLaunch (unit n : Nat) (s : State) : Host.Outcome State Fault Refusal :=
  .next (match (s.niOf unit)[n]? with
    | none => s
    | some e =>
      let s1 := if unit < 16384 && e.release && e.st == .release then s.flushBefore (unit / 4, unit % 4) e.upTo else s
      if s1.mayLaunch unit e then s1.launch unit e (e.bypass || e.st == .held)
      else if s1.mustHold unit e && (!e.release || unit ≥ 16384 || !s1.storesBefore (unit / 4, unit % 4) e.upTo) then
        s1.modNi unit (fun l => l.map (fun x => if x.id == e.id then { x with st := .held } else x))
      else s1)

/-- RETRY_BACKOFF_EXPIRY (R201): the wait is over, and the message is resent with RETRY := 1. -/
def execRetryBackoffExpiry (unit n : Nat) (s : State) : Host.Outcome State Fault Refusal :=
  .next (match (s.niOf unit)[n]? with
    | none => s
    | some e =>
      match e.st with
      | .backoff 0 =>
        let e1 := { e with st := .held }
        let s1 := s.modNi unit (fun l => l.map (fun x => if x.id == e.id then e1 else x))
        s1.pump unit e1
      | _ => s)

/-! ### The decision at a mailbox (R198, R199) -/

def mboxCap : Nat := 8

/-- The header that a mailbox keeps (R188): SOURCE is in TR form within one team. -/
def Msg.header (m : Msg) (team : Option Nat) : BitVec 64 :=
  let src := match m.tr with | some (t, a) => if some t == team then a else m.source | none => m.source
  BitVec.ofNat 64 (2 ^ 63 * m.retry.toNat + 2 ^ 62 * m.rtn.toNat + 2 ^ 61 * m.wake.toNat + 2 ^ 58 * m.reason +
    2 ^ 28 * src.toNat + m.dest.toNat)

/-- Append a message to channel ch of a mailbox; none when the channel is full. -/
def State.mailPut (s : State) (c b ch : Nat) (payload : BitVec 256) (hdr : BitVec 64) : Option State :=
  (s.qPush (c, b) ch payload.toNat).map (fun s1 =>
    s1.modBank c b (fun x => { x with hdrs := lput x.hdrs ch (lget [] x.hdrs ch ++ [hdr]) }))

/-- The outcome for a set of refused senders: the reason (0 accepts) with the new set and OVF bits. -/
def decideSet (set : List (Nat × Nat × Nat × Nat)) (ovf : BitVec 16) (sender : Nat × Nat × Nat × Nat) (ch : Nat)
    (retry full : Bool) : Nat × List (Nat × Nat × Nat × Nat) × BitVec 16 :=
  let known := set.contains sender
  let lost := ovf ||| ((1 : BitVec 16) <<< ch)
  if (known || ovf.getLsbD ch) && !retry then (2, set, ovf)
  else if full then
    if known then (1, set, ovf) else if set.length < mboxCap then (1, set ++ [sender], ovf) else (1, set, lost)
  else if !known && mboxCap ≤ set.length then (1, set, lost)
  else (0, set.filter (· != sender), ovf)

/-- Decide a message to channel ch of slot k of core c (R198): its reason, 0 when it is accepted. A place that an instruction in
progress may give back is not free (R20). -/
def State.decide (s : State) (c k ch : Nat) (sender : Nat × Nat × Nat) (m : Msg) : Nat × State :=
  let sl := s.slot c k
  let who := (sender.1, sender.2.1, sender.2.2, ch)
  match sl.away, sl.ident with
  | some aw, _ =>
    match s.team aw.team with
    | none => (4, s)
    | some t =>
      if t.st == .ended then (4, s)
      else if !s.maySend m.dom t.domain then (5, s)
      else
        let r := if aw.refused.contains who then (aw.refused, aw.ovf)
          else if aw.refused.length < mboxCap then (aw.refused ++ [who], aw.ovf)
          else (aw.refused, aw.ovf ||| ((1 : BitVec 16) <<< ch))
        (3, s.modSlot c k (fun x => { x with away := some { aw with refused := r.1, ovf := r.2 } }))
  | none, none => (4, s)
  | none, some i =>
    if sl.guest.isSome then (4, s)
    else match s.team i.team with
      | none => (4, s)
      | some t =>
        if t.st == .ended then (4, s)
        else if !s.maySend m.dom t.domain then (5, s)
        else
          let mb := sl.act.mbox.toNat
          let full := (s.bank c mb).depth ch ≤ (s.bank c mb).count ch + (s.core c).reservedChan mb ch
          let (r, set, ovf) := decideSet sl.refused sl.ovf who ch m.retry full
          let s1 := s.modSlot c k (fun x => { x with refused := set, ovf })
          if r != 0 then (r, s1)
          else match s1.mailPut c mb ch m.payload (m.header (some i.team)) with
            | some s2 => (0, s2)
            | none => (1, s1)

/-- Whether an earlier message of the same sender to the same mailbox is still on its way. -/
def State.msgBehind (s : State) (i : Nat) (p : Packet) : Bool :=
  (s.net.take i).any (fun q =>
    (match q.body with | .msg _ _ => true | _ => false) && q.unit == p.unit && q.dev == p.dev && q.core == p.core && q.slot == p.slot)

/-- Answer a message's sender (R198). -/
def State.answerMsg (s : State) (p : Packet) (entry reason : Nat) : State :=
  s.sendPacket { src := (p.core, p.slot), unit := p.unit, dev := s.ownDev, core := p.src.1, slot := p.src.2,
                 body := .answer entry reason }

/-- A MSG event to the host (R394). -/
def Port.msgEvent (p : Port) (m : Msg) : Port :=
  p.send p.eventMaster 4 0 0 (m.source.setWidth 64) (BitVec.ofNat 64 (m.dest.toNat % 16)) (bvBytes 32 m.payload)

/-- MESSAGE_ARRIVAL (R198, R396): packet i reaches an actor's mailbox, or the host. What a mailbox of another device
answers is open. -/
def execMessageArrival (i : Nat) (s : State) : Host.Outcome State Fault Refusal :=
  .next (match s.packetAt i with
    | none => s
    | some p =>
      match p.body with
      | .msg m entry =>
        if s.msgBehind i p then s
        else if s.isLost p.dev then (s.dropPacket i).answerMsg p entry 4
        else if p.dev != s.ownDev && !s.mayArrive i p then s
        else if p.dev != s.ownDev then
          let (w, s1) := s.free
          (s1.dropPacket i).answerMsg p entry (w.toNat % 6)
        else if m.dest.getLsbD 27 then
          if p.core == 0xFFF then ((s.dropPacket i).modPort (·.msgEvent m)).answerMsg p entry 0 else s
        else
          let ch := m.dest.toNat % 16
          let (r, s1) := (s.dropPacket i).decide p.core p.slot ch (s.ownDev, p.src.1, p.src.2) m
          s1.answerMsg p entry r
      | _ => s)

/-! ### Answers and returns (R201, R202) -/

/-- What the NI of a unit makes of a refusal of entry e. A `.rt` message that waits is not held behind a returned one (R203). -/
def refuseEntry (base : Nat) (e : NiEntry) (reason : Nat) (l : List NiEntry) : List NiEntry :=
  let e1 := { e with refusals := e.refusals + 1, tries := if reason != 2 then e.tries + 1 else e.tries }
  let set (x : NiEntry) (l : List NiEntry) : List NiEntry := l.map (fun y => if y.id == x.id then x else y)
  let before := (l.takeWhile (fun x => x.id != e.id)).filter (fun x => x.sameKey e && !x.isReturning)
  let younger (x : NiEntry) : Bool := x.id != e.id && x.sameKey e && !x.isReturning && !before.any (fun y => y.id == x.id)
  if e.nr then (set { e1 with st := .returning reason } l).map (fun x =>
    if younger x && !x.bypass then { x with behindReturn := true } else x)
  else if e1.tries == 16 then
    (set { e1 with st := .returning reason } l).map (fun x =>
      if younger x && x.st == .held then { x with st := .returning reason } else x)
  else if e.behindReturn || !before.isEmpty then set { e1 with st := .held } l
  else set { e1 with st := .backoff (min (base * 2 ^ (e1.refusals - 1)) 65536) } l

/-- Entry e is freed, and the next message of its channel is launched (R201). -/
def State.freeEntry (s : State) (u : Nat) (e : NiEntry) : State :=
  (s.modNi u (fun l => l.filter (fun x => x.id != e.id))).pump u e

/-- Put an entry into a list that rises by id. -/
def insertById (e : NiEntry) : List NiEntry → List NiEntry
  | [] => [e]
  | x :: r => if e.id < x.id then e :: x :: r else x :: insertById e r

/-- Put the entries of one channel into the order of their SENDs, in the places that they hold (R200). -/
def reseat (key : NiEntry → Bool) : List NiEntry → List NiEntry → List NiEntry
  | [], _ => []
  | x :: r, l => if key x then (match l with | y :: ys => y :: reseat key r ys | [] => x :: reseat key r []) else x :: reseat key r l

/-- The messages held behind a returned one are held no longer: those of the channel stand in the order of their SENDs (R203). -/
def releaseHeld (e : NiEntry) (l : List NiEntry) : List NiEntry :=
  let key (x : NiEntry) : Bool := x.sameKey e
  let mine := (l.filter key).foldl (fun acc x => insertById { x with behindReturn := false } acc) []
  reseat key l mine

/-- A channel as the slot that sends to it remembers it (R203). -/
def NiEntry.channel (e : NiEntry) : Bool × Nat × Nat × Nat × Nat := (e.sys, e.dc)

/-- The channels whose `.nr` message was returned, as the NI of a slot remembers them. -/
def State.modReturned (s : State) (u : Nat) (f : List (Bool × Nat × Nat × Nat × Nat) → List (Bool × Nat × Nat × Nat × Nat)) : State :=
  if u < 16384 then s.modSlot (u / 4) (u % 4) (fun x => { x with returned := f x.returned }) else s

/-- Entry e is accepted (R201): its channel has no returned message any more, and the messages held behind a returned one are held no
longer once a message that was not held with them has been accepted (R201, R203). -/
def State.acceptEntry (s : State) (u : Nat) (e : NiEntry) : State :=
  let s1 := if e.bypass || !e.behindReturn then s.modNi u (releaseHeld e) else s
  (s1.modReturned u (fun l => l.filter (· != e.channel))).freeEntry u e

/-- A card or kernel whose completion is over leaves its scheduler (R290). -/
def State.completionOver (s : State) (u : Nat) (e : NiEntry) : State :=
  match e.card with
  | none => s
  | some id =>
    if u == unitMain then { s with kernels := s.kernels.filter (fun k => k.ticket != id) }
    else s.modCluster (u - 16384) (fun x => { x with cards := x.cards.filter (fun k => k.id != id) })

/-- The answers of the port's HSENDs (R393): OK, RETURNED with its REASON, or a SENDTRY event for a refused attempt. -/
def State.hsendNote (s : State) (e : NiEntry) (status : Nat) (evt : Nat) (b0 b1 : Nat) : State :=
  match e.owner with
  | none => s
  | some (m, seq) => s.modPort (fun p => p.send m evt (BitVec.ofNat 32 seq) status (BitVec.ofNat 64 b0) (BitVec.ofNat 64 b1) [])

/-- Whether an earlier answer from the same mailbox to the same unit is still on its way. -/
def State.answerBehind (s : State) (i : Nat) (p : Packet) : Bool :=
  (s.net.take i).any (fun q =>
    (match q.body with | .answer _ _ => true | _ => false) && q.unit == p.unit && q.src == p.src)

/-- The NI of a unit takes the answer to entry e. -/
def State.takeAnswer (s : State) (u : Nat) (e : NiEntry) (reason : Nat) : State :=
  if reason == 0 then
    ((if u == unitPort then s.hsendNote e 0 1 0 0 else s).completionOver u e).acceptEntry u e
  else if reason == 4 && e.card.isSome then (s.completionOver u e).freeEntry u e
  else
    let s1 := if u == unitPort then s.hsendNote e 0 5 reason (e.refusals + 1) else s
    let s2 := s1.setNi u (refuseEntry (s.backoffBase u) e reason (s.niOf u))
    let s3 := if e.nr then s2.modReturned u (fun l => if l.contains e.channel then l else l ++ [e.channel]) else s2
    s3.pump u e

/-- MESSAGE_ANSWER (R198, R201). -/
def execMessageAnswer (i : Nat) (s : State) : Host.Outcome State Fault Refusal :=
  .next (match s.packetAt i with
    | none => s
    | some p =>
      match p.body with
      | .answer entry reason =>
        if s.answerBehind i p then s
        else match (s.niOf p.unit).find? (fun e => e.id == entry) with
          | some e => (s.dropPacket i).takeAnswer p.unit e reason
          | none => s.dropPacket i
      | _ => s)

/-- The slot where the sending actor of a scheduler's message lives now; no slot while its team is not placed. -/
def State.actorSlot (s : State) (m : Msg) : Nat × Nat :=
  match m.tr with
  | some (t, a) => (((s.team t).bind (fun x => x.coreOfMember (adrCore a.toNat))).getD 4096, adrSlot a.toNat)
  | none => (4096, 0)

/-- Whether that actor has been retired. -/
def State.actorGone (s : State) (m : Msg) : Bool :=
  match m.tr with
  | some (t, a) => match s.team t with
    | some x => x.st == .ended || x.retired.contains (adrCore a.toNat, adrSlot a.toNat)
    | none => true
  | none => true

/-- RETURN_DELIVERY (R202, R290): entry n of a unit, a returned message, is placed on channel 15 of its sender while there
is room; a completion whose actor is gone is discarded, and a returned HSEND is answered. NISTAT counts no completion (R290). DEST is
the sender's physical address with channel field 0, and returns of one slot, whatever their channels, go in the order of their SENDs
(DESIGN CHOICE, log entry 60: R202 says only 'the sender' and 'in order'). -/
def execReturnDelivery (unit n : Nat) (s : State) : Host.Outcome State Fault Refusal :=
  .next (match (s.niOf unit)[n]? with
    | none => s
    | some e =>
      match e.st with
      | .returning reason =>
        if ((s.niOf unit).take n).any (·.isReturning) then s
        else if unit == unitPort then (s.hsendNote e 7 1 reason 0).freeEntry unit e
        else
          let (c, k) := if unit < 16384 then (unit / 4, unit % 4) else s.actorSlot e.msg
          let sl := s.slot c k
          if 16384 ≤ unit && s.actorGone e.msg then (s.completionOver unit e).freeEntry unit e
          else if sl.guest.isSome || sl.ident.map (·.team) != e.team then s
          else
            let hdr := ({ e.msg with rtn := true, reason, source := e.msg.dest, dest := s.physActor c k, tr := none } : Msg).header none
            let mb := sl.act.mbox.toNat
            let full := (s.bank c mb).depth 15 ≤ (s.bank c mb).count 15 + (s.core c).reservedChan mb 15
            match (if full then none else s.mailPut c mb 15 e.msg.payload hdr) with
            | none => s
            | some s1 =>
              let s2 := if 16384 ≤ unit then s1 else s1.modSlot c k (fun x => { x with act := { x.act with
                returns := if x.act.returns == 255 then 255 else x.act.returns + 1 } })
              (s2.completionOver unit e).freeEntry unit e
      | _ => s)

/-! ### SEND (R194-R197) -/

/-- The 32-byte payload of SEND. -/
def sendPayload (o : Op) : M (BitVec 256) :=
  if o.m.getLsbD 0 then do
    let v ← srcV 64 0 o.b
    pure (BitVec.ofNat 256 v)
  else do
    let b ← srcX (immValue o) o.b
    pure (b.setWidth 256)

/-- Put a new entry into an NI's list (R203): a `.rt` message stands before those held behind a returned message; others join
them, and so does a `.nr` message to a channel whose `.nr` message was returned. A plain one to such a channel, with none held
there, is launched. -/
def insertEntry (returned : Bool) (l : List NiEntry) (e : NiEntry) : List NiEntry :=
  if e.bypass then
    let ahead := l.takeWhile (fun x => !(x.sameKey e && x.behindReturn))
    ahead ++ e :: l.drop ahead.length
  else l ++ [{ e with behindReturn := (returned && e.nr) || l.any (fun x => x.sameKey e && x.behindReturn) }]

/-- The entry of a message from slot k of core c. -/
def State.sendEntry (s : State) (c k id : Nat) (a : BitVec 64) (payload : BitVec 256) (dom : Nat) (m : BitVec 4) (pc : BitVec 64) :
    NiEntry :=
  let team := (s.slot c k).ident.map (·.team)
  let tr := (s.slot c k).ident.map (fun i => (i.team, trActor i.member k))
  { id, addr := a, dc := s.keyOf team a.toNat, sys := adrSys a.toNat, team, pc
    nr := m.getLsbD 2, bypass := m.getLsbD 3, release := !m.getLsbD 1, upTo := s.nextId
    msg := { source := s.physActor c k, dest := a.setWidth 28, payload, dom, tr }, st := .release }

/-- SEND (R194-R197). -/
def execSend (o : Op) (s : State) : Host.Outcome State Fault Refusal :=
  runScalar 0xC0 o (do
    let a ← rdReg o.a
    let payload ← sendPayload o
    let s ← getS
    let (c, k) := s.at_
    let h := s.homeOf c k
    let sl := s.slot c k
    let size := ((s.teamOf c k).map Team.size).getD 0
    if !s.addressOk size a.toNat then raise .rights a
    else
      let limit := match sl.firing with | some (.handler ch) => htabLimit (vget 0 sl.act.htab ch) | _ => 15
      if limit != 15 && sl.sent == limit then raise .rate a
      else if 16 ≤ (s.slot h.1 h.2).ni.length then stallOn .release
      else
        let (id, s1) := s.fresh
        let e := s1.sendEntry h.1 h.2 id a payload (s.checkDom c k) o.m sl.thr.pc
        let s2 := s1.modSlot h.1 h.2 (fun x => { x with ni := insertEntry (x.returned.contains e.channel) x.ni e })
        let s3 := if e.release then s2.flushComb c k (fun _ => true) else s2
        modS (fun _ => s3.modSlot c k (fun x => { x with sent := x.sent + 1 }))
        pure .next) s

/-! ### CHCNT, CHDROP, HEN, HDIS, HSET, DONE (R205-R208) -/

/-- The channel that I18 names. -/
def chanOf (o : Op) : Nat := i18f o 3 0

/-- CHCNT (R206). -/
def execChcnt (o : Op) (s : State) : Host.Outcome State Fault Refusal :=
  runScalar 0xC1 o (do
    homeOnly
    let s ← getS
    let (c, k) := s.at_
    let sl := s.slot c k
    let b := s.bank c sl.act.mbox.toNat
    let ch := chanOf o
    let v := match i18f o 5 4 with
      | 0 => BitVec.ofNat 64 (b.count ch)
      | 1 => s.headHeader c sl.act.mbox.toNat ch
      | 2 => BitVec.ofNat 64 (b.depth ch)
      | _ => BitVec.ofNat 64 ((sl.refused.filter (fun e => e.2.2.2 == ch)).length + 16 * (sl.ovf.getLsbD ch).toNat)
    dstX o.d v
    pure .next) s

/-- CHDROP (R206). -/
def execChdrop (o : Op) (s : State) : Host.Outcome State Fault Refusal :=
  runScalar 0xC2 o (do
    homeOnly
    let b ← rdReg o.b
    let s ← getS
    let (c, k) := s.at_
    let mb := (s.slot c k).act.mbox.toNat
    let n := min b.toNat ((s.bank c mb).count (chanOf o))
    modS (fun s => s.modBank c mb (·.dropHead (chanOf o) n))
    dstX o.d (BitVec.ofNat 64 n)
    pure .next) s

/-- HEN, HDIS and HSET (R207): the actor's registers under a mask of handlers. -/
def handlerMask (code : Nat) (o : Op) (f : ActorRegs → BitVec 16 → ActorRegs) (s : State) : Host.Outcome State Fault Refusal :=
  runScalar code o (do
    homeOnly
    let a ← rdReg o.a
    let m : BitVec 16 := BitVec.ofNat 16 (i18f o 15 0) ||| a.setWidth 16
    modCurSlot (fun x => { x with act := f x.act m })
    pure .next) s

/-- HEN (R207). -/
def execHen (o : Op) (s : State) : Host.Outcome State Fault Refusal :=
  handlerMask 0xC3 o (fun r m => { r with en := r.en ||| m }) s
/-- HDIS (R207). -/
def execHdis (o : Op) (s : State) : Host.Outcome State Fault Refusal :=
  handlerMask 0xC4 o (fun r m => { r with en := r.en &&& ~~~m }) s
/-- HSET (R207). -/
def execHset (o : Op) (s : State) : Host.Outcome State Fault Refusal :=
  handlerMask 0xC5 o (fun r m => { r with soft := r.soft ||| m }) s

/-- What a guest's firing waits for before it ends (R253), the links of its route included (R382). -/
def guestDone : M Unit := do
  let s ← getS
  let (c, k) := s.at_
  let sl := s.slot c k
  if sl.guest.isNone then pure ()
  else if !sl.comb.isEmpty then askFor (fun s => (s.flushComb c k (fun _ => true)).stallCur .away)
  else if sl.uas != 0 || !sl.queued.isEmpty || !sl.owed.isEmpty || !s.homeJoined c k then stallOn .away
  else pure ()

/-- DONE (R208). -/
def execDone (o : Op) (s : State) : Host.Outcome State Fault Refusal :=
  runScalar 0xC6 o (do
    let sl ← curSlot
    if !sl.inFiring then raise .illegal (packWord0 0xC6 o)
    else
      guestDone
      modS (fun s => s.endFiring s.at_.1 s.at_.2)
      pure .ended) s

end Sys2Proof.Machine
end

