-- ==== Sys2Proof/Machine/MemEvents.lean ====
section
/-! DEFINITION. The memory system's events (R244-R256, R259, R266, R271): arrivals, replies, fills, walks, evictions,
migrations, and the departure of stores. -/

namespace Sys2Proof.Machine

/-- Apply an event to the packet at place i, if one is there. -/
def State.onPacket (s : State) (i : Nat) (f : Packet → State) : State :=
  match s.packetAt i with
  | some p => f p
  | none => s

/-- REMOTE_STORE_ARRIVAL (R127, R249). -/
def execRemoteStoreArrival (i : Nat) (s : State) : Host.Outcome State Fault Refusal :=
  .next (s.onPacket i (fun p => match p.body with
    | .store r => if s.mayArrive i p then s.storeArrives i p r else s
    | _ => s))

/-- STORE_ACK (R23, R249). -/
def execStoreAck (i : Nat) (s : State) : Host.Outcome State Fault Refusal :=
  .next (s.onPacket i (fun p => match p.body with
    | .ack id sat => s.acked i p.core p.slot id sat
    | _ => s))

/-- REMOTE_LOAD_ARRIVAL (R127, R249). -/
def execRemoteLoadArrival (i : Nat) (s : State) : Host.Outcome State Fault Refusal :=
  .next (s.onPacket i (fun p => match p.body with
    | .load rid part addr n size leg pair _ xa =>
      if s.mayArrive i p then s.loadArrives i p rid part addr n size leg pair xa else s
    | _ => s))

/-- LOAD_REPLY (R249). -/
def execLoadReply (i : Nat) (s : State) : Host.Outcome State Fault Refusal :=
  .next (s.onPacket i (fun p => match p.body with
    | .loadReply rid part data bst poisoned => s.loadReplied i p.core p.slot rid part data bst poisoned
    | _ => s))

/-- REMOTE_BANK_OP_ARRIVAL (R127, R134). -/
def execRemoteBankOpArrival (i : Nat) (s : State) : Host.Outcome State Fault Refusal :=
  .next (s.onPacket i (fun p => match p.body with
    | .bank rid code addr din bv v vdata detach km own off =>
      if s.mayArrive i p then s.bankArrives i p rid code addr din bv v vdata detach km own off else s
    | .bspan rid addr names km own off => if s.mayArrive i p then s.spanArrives i p rid addr names km own off else s
    | _ => s))

/-- BANK_OP_REPLY (R127). -/
def execBankOpReply (i : Nat) (s : State) : Host.Outcome State Fault Refusal :=
  .next (s.onPacket i (fun p => match p.body with
    | .bankReply rid r => s.bankReplied i p.core p.slot rid r
    | _ => s))

/-- ATOMIC_ARRIVAL (R277). -/
def execAtomicArrival (i : Nat) (s : State) : Host.Outcome State Fault Refusal :=
  .next (s.onPacket i (fun p => match p.body with
    | .atomic rid code addr n bv cv rm tend xa =>
      if s.mayArrive i p then s.atomicArrives i p rid code addr n bv cv rm tend xa else s
    | _ => s))

/-- ATOMIC_REPLY (R277). -/
def execAtomicReply (i : Nat) (s : State) : Host.Outcome State Fault Refusal :=
  .next (s.onPacket i (fun p => match p.body with
    | .atomicReply rid r => s.atomicReplied i p.core p.slot rid r
    | _ => s))

/-- STORE_LEAVES_QUEUE (R266). -/
def execStoreLeavesQueue (core slot : Nat) (s : State) : Host.Outcome State Fault Refusal := .next (s.storeLeaves core slot)

/-- COMBINING_BUFFER_SEND (R271): entry n is sent. -/
def execCombiningBufferSend (core slot n : Nat) (s : State) : Host.Outcome State Fault Refusal :=
  .next (match (s.slot core slot).comb[n]? with
    | some e => s.sendComb core slot e
    | none => s)

/-! ### PLB fills (R244, R245, R357) -/


/-- The rights check of a queued store that waited for this page (R245). -/
def StoreReq.check (r : StoreReq) (s : State) (core page dom : Nat) (e : Option PlbEntry) : StoreReq :=
  if r.chk != .pending || r.addr / 2 ^ 16 != page || r.dom != dom then r
  else match e with
    | none => { r with chk := .bad 2 }
    | some x =>
      let (dev, h) := x.home r.addr
      if !x.w || !s.deviceOk dev then { r with chk := .bad 1 }
      else
        { r with chk := .ok { dev, core := h, isLocal := false } x.kind,
                 counted := !(dev == s.ownDev && h == core) && (x.kind != .uo || r.leg.isSome) }

/-- The predictor learns the remote homes of the plain stores that a fill has just found good, in their order (R248). -/
def Slot.learnAll (sl : Slot) (before : List StoreReq) (dev core : Nat) : Slot :=
  (before.zip sl.sq).foldl (fun x r =>
    match r.1.chk, r.2.chk with
    | .pending, .ok t _ => if r.2.op == .lane || r.2.op == .legend || (t.dev == dev && t.core == core) then x else x.learn t.dev t.core
    | _, _ => x) sl

/-- What a fill's end does to slot k of its core. -/
def State.filled (s : State) (core k page dom : Nat) (e : Option PlbEntry) : State :=
  let bad := e.isNone && (s.slot core k).status == .stalled .plbFill && s.checkDom core k == dom
  let check (r : StoreReq) : StoreReq := r.check s core page dom e
  (s.modSlot core k (fun x => ({ x with
    sq := x.sq.map check
    pend := match x.pend with | some (.stores rest len) => some (.stores (rest.map check) len) | p => p
    badPage := if bad then some (page, dom) else x.badPage } : Slot).learnAll x.sq s.ownDev core)).settle core k

/-- PLB_FILL_COMPLETE (R244, R357): fill n of a core walks the domain's tables, in reads of class 3 (R261). -/
def execPlbFillComplete (core n : Nat) (s : State) : Host.Outcome State Fault Refusal :=
  .next (match (s.core core).fills[n]? with
    | none => s
    | some (a, dom) =>
      match s.walkTokens (coreStack core) (s.fillReads dom a) with
      | none => s
      | some s0 =>
      let e := s0.protWalk dom a
      let s1 := s0.modCore core (fun x => { x with
        fills := ldel x.fills n
        plb := match e with | some y => (y :: x.plb.filter (fun z => !z.covers dom a)).take plbEntries | none => x.plb })
      (List.range 4).foldl (fun s k => s.filled core k (a / 2 ^ 16) dom e) s1)

/-! ### Walks and evictions (R255, R256, R358) -/

/-- A line that has no valid translation: waiting loads and fetches are told, waiting stores are marked (R256, R336). -/
def State.walkFailed (s : State) (line slice : Nat) : State :=
  let mark (c : Nat) (x : Slot) : Slot :=
    let waits := x.status == .stalled .memReply || x.status == .stalled .remoteReply || x.status == .stalled .fetch
    let y := if waits then { x with badLine := some line } else x
    match y.sq with
    | r :: _ => if r.waiting && line256 r.addr == line && sliceOf c r.addr == slice then y.headWaits true else y
    | [] => y
  { s with
    cores := s.cores.map (fun e => (e.1, { e.2 with slots := e.2.slots.map (mark e.1) }))
    net := s.net.map (fun p => if p.waiting && p.wants line slice then { p with failed := true } else p) }

/-- TRANSLATION_WALK_COMPLETE (R256, R358): walk n, the one its slice serves next (R262), ends, and its line's read waits at
the channel; on a MOVING leaf it stays until PLBINV. The table reads are of class 3. -/
def execTranslationWalkComplete (n : Nat) (s : State) : Host.Outcome State Fault Refusal :=
  .next (match s.walks[n]? with
    | none => s
    | some w =>
      if w.moving || w.pa.isSome || !s.walkTurn n w then s
      else match s.walkTokens (w.slice / 128) (s.xlatReads w.slice w.line) with
      | none => s
      | some s0 => match s0.translate w.slice w.line with
        | (.pa p _, s1) =>
          { s1 with walks := lput s1.walks n { w with pa := some p } }.modChannel (channelOf p) (fun u =>
            { u with normal := u.normal ++ [(NormalCmd.read w.line w.slice, w.cls)] })
        | (.moving, s1) => { s1 with walks := lput s1.walks n { w with moving := true } }
        | (.fail, s1) => { s1 with walks := ldel s1.walks n }.walkFailed w.line w.slice)

/-- L2_EVICTION (R255): line n leaves its slice, unless a load or atomic on its way needs it. -/
def execL2Eviction (n : Nat) (s : State) : Host.Outcome State Fault Refusal :=
  .next (match s.l2[n]? with
    | none => s
    | some l =>
      if s.lineNeeded l.line l.slice || !s.canWriteBack l then s
      else s.evictL2 l.line l.slice)

/-! ### Migration (R251-R253) -/

/-- MIGRATION_ARRIVAL (R251): the context takes its guest slot, and halts there where a request in force names it (R364); one for
another device leaves this machine (R384). -/
def execMigrationArrival (i : Nat) (s : State) : Host.Outcome State Fault Refusal :=
  .next (s.onPacket i (fun p => match p.body with
    | .context sl =>
      if p.dev != s.ownDev then (if s.mayArrive i p then s.dropPacket i else s)
      else ((s.dropPacket i).setSlot p.core p.slot sl).underRequest p.core p.slot
    | _ => s))

/-- WAYPOINT_FORWARD (R252). -/
def execWaypointForward (i : Nat) (s : State) : Host.Outcome State Fault Refusal :=
  .next (s.onPacket i (fun p => s.forward i p))

/-- The registers that a firing bears when it returns from another device: what it did there is that device's, and open. -/
def Slot.fromFar (sl : Slot) (f : Nat → BitVec 64) : Slot :=
  { sl with
    thr := { x := Vector.ofFn (fun (i : Fin 32) => if i.val == 0 then 0 else f i.val)
             p := Vector.ofFn (fun (i : Fin 8) => if i.val == 0 then vget 0 sl.thr.p 0 else (f (32 + i.val)).setWidth 32)
             pc := f 40 &&& 0xFFFFFFFFFFFFFFFC, rm := (f 41).setWidth 3, flags := (f 42).setWidth 7 }
    v := Vector.ofFn (fun (i : Fin 32) => BitVec.ofNat 256 (sumNat ((List.range 4).map (fun j =>
      (f (64 + 4 * i.val + j)).toNat * 2 ^ (64 * j)))))
    regs := { sl.regs with
      bst := (f 43).setWidth 3, livev := (f 44).setWidth 32, qos := (f 45).setWidth 2, qwaitLimit := (f 46).setWidth 32
      barpend := (f 47).setWidth 35 }
    sent := (f 48).toNat % 256, owed := [], poisonX := [], status := .ready, awayAt := none }

/-- A firing returns from another device (R253, R384): it ends, or goes on, or takes a trap, which one being open with what it bears
(log entry 48). -/
def State.farReturn (s : State) (c k : Nat) : State :=
  let f (i : Nat) : BitVec 64 := Config.freeWord (s.freeCtr + i)
  let s1 : State := { s.modSlot c k (·.fromFar f) with freeCtr := s.freeCtr + 192 }
  match (f 0).toNat % 3 with
  | 0 => s1
  | 1 => s1.endFiring c k
  | _ => s1.trapHere c k (lget .illegal [.illegal, .boundary, .align, .rights, .page, .bankop, .bankst, .format, .rate, .brk, .watch,
      .domain, .machinecheck, .trap] ((f 49).toNat % 14)) (f 50) (s1.slot c k).thr.pc

/-- MIGRATE_BACK (R253, R365): a guest's firing whose instruction needs its actor's slot, or whose actor must halt, returns
under the conditions of R250, over links that carry traffic (R382). One that must halt takes back what the deep guard or a moving
page holds (R321, R363). A firing that left for another device returns when that device sends it. -/
def execMigrateBack (core slot : Nat) (s : State) : Host.Outcome State Fault Refusal :=
  let sl := s.slot core slot
  .next (match sl.guest with
    | none => match sl.awayAt with
      | some g => if 65536 ≤ g.1 && s.fabricUp (g.1 - 65536) && !s.isLost (g.1 - 65536) then s.farReturn core slot else s
      | none => s
    | some h =>
      let halts := (s.slot h.1 h.2).haltReq || sl.haltReq
      let asked := sl.status == .stalled .away || halts
      let s0 := if asked then s.flushComb core slot (fun _ => true) else s
      let s1 := if halts then s0.takeBack core slot else s0
      let x := s1.slot core slot
      if asked && x.pend.isNone && x.unacked.isEmpty && (x.sq.isEmpty || (halts && s1.headInSlice core slot)) && x.comb.isEmpty &&
          (s.core core).waypoints.length < 8 && s.homeJoined core slot then
        s1.returnHome core slot
      else s1)

/-! ### The range scoreboard (R259) -/

/-- Whether the holder of a range has finished with it. -/
def State.rangeDone (s : State) (core : Nat) (r : Range) : Bool :=
  let c := s.core core
  match r.holder with
  | .matrix => !c.mu.queue.any (fun m => m.ranges.contains r.id) && c.mu.seqRange != some r.id
  | .job k card => !(s.cluster k).cards.any (fun x => x.id == card && x.phase == .started)
  | .gather id => !s.cores.any (fun e => e.2.gathers.any (fun g => g.id == id))
  | .drain id => !s.net.any (fun p => match p.body with | .drainBlock d .. => d == id | _ => false)

/-- RANGE_RETIRE (R259): entry n of a core's scoreboard retires once its holder has finished. -/
def execRangeRetire (core n : Nat) (s : State) : Host.Outcome State Fault Refusal :=
  .next (match (s.core core).ranges[n]? with
    | some r => if s.rangeDone core r then s.modCore core (fun x => { x with ranges := ldel x.ranges n }) else s
    | none => s)

end Sys2Proof.Machine
end

