-- ==== Sys2Proof/Machine/Tasks.lean ====
section
/-! DEFINITION. Tasks (R209-R213): FORK, TEND, popping and stealing. -/

namespace Sys2Proof.Machine

def dequeCap : Nat := 64

/-! ### Reading records -/

/-- Why a record is not read now: what it must wait for, or its trap. -/
inductive ReadStop where
  | wait (d : Denied)
  | trap (c : Cause) (v : BitVec 64)
  deriving DecidableEq, Repr

/-- Whether an uncorrectable error lies in n bytes (R332). -/
def State.rangePoisoned (s : State) (core : Nat) (isLocal : Bool) (a n : Nat) : Bool :=
  s.bytesPoisoned core isLocal a || s.bytesPoisoned core isLocal (a + n - 1)

/-- Whether n bytes of a core's local memory lie in ARRAY banks that are not spanned. -/
def State.plainBanks (s : State) (core off n : Nat) : Bool :=
  !(s.noAtomic core off) && !(s.noAtomic core (off + n - 1))

/-- Read n bytes for slot k of core c, 8-byte aligned where `record` says a task record is read (R211, R212). -/
def State.readData (s : State) (c k : Nat) (a : BitVec 64) (n : Nat) (record : Bool) : Except ReadStop (List Byte × State) :=
  match s.locate c k a.toNat n with
  | none => .error (.trap .rights a)
  | some (.loc d core off _) =>
    if record && a.toNat % 8 != 0 then .error (.trap .align a)
    else if s.isLost d then .error (.trap .machinecheck a)
    else if d != s.ownDev then .ok (s.freeBytes n)
    else if record && !s.plainBanks core off n then .error (.trap .bankop a)
    else if s.localHeld core off n false then .error (.wait (.moving none))
    else if s.rangePoisoned core true off n then .error (.trap .machinecheck a)
    else .ok (s.localRead core off n, s)
  | some (.glob b _) =>
    if record && b % 8 != 0 then .error (.trap .align a)
    else match s.dirRead (s.checkDom c k) b n (some c) (s.slot c k).regs.qos.toNat with
    | .ok (bs, s1) =>
      if s.poison.contains (.line (line64 b)) || s.poison.contains (.line (line64 (b + n - 1))) then .error (.trap .machinecheck a)
      else .ok (bs, s1)
    | .error (d, _) => match d.cause with
      | some cause => .error (.trap cause a)
      | none => .error (.wait d)

/-! ### The deque (R209, R211) -/

/-- The entry that a 32-byte record and a join address make. Bits [63:32] of the offset must be 0; where they are not, the
entry is open (log entry 8). -/
def taskOf (bs : List Byte) (free join forker : BitVec 64) (slot : Nat × Nat) (upTo : Nat) (rec pc : BitVec 64) : Task :=
  let w (i : Nat) : BitVec 64 := bytesBv 64 ((bs.drop (8 * i)).take 8)
  { entry := if (w 0).toNat < 2 ^ 32 then w 0 else free, args := (w 1, w 2, w 3), join, forker, slot, upTo, recAddr := rec, pc }

/-- The address that x4 of a task's firing takes from the slot that pushed it. -/
def State.forkerOf (s : State) (c k : Nat) : BitVec 64 :=
  match (s.slot c k).ident with
  | some i => (trActor i.member k).setWidth 64
  | none => (s.physActor c k).setWidth 64

/-- A worker that waits after a round with no task: its wait ends (R213). -/
def Slot.roundAgain (sl : Slot) : Slot := if sl.roundLeft == some [] then { sl with roundLeft := none, stealWait := 0 } else sl

/-- Push an entry at the bottom of a core's deque. -/
def Core.pushTask (c : Core) (t : Task) : Core :=
  { c with deque := c.deque ++ [t], slots := c.slots.map (·.roundAgain) }

/-- FORK (R211). -/
def execFork (o : Op) (s : State) : Host.Outcome State Fault Refusal :=
  runScalar 0xC7 o (do
    homeOnly
    let a ← rdReg o.a
    let b ← rdReg o.b
    claimX (regNum o.c)
    let s ← getS
    let (c, k) := s.at_
    let site := match s.locate c k a.toNat 32 with
      | some (.loc d core off _) => if d == s.ownDev && core == c then some off else none
      | _ => none
    match site with
    | none => raise .rights a
    | some off =>
    if a.toNat % 8 != 0 then raise .align a
    else if !s.plainBanks c off 32 then raise .bankop a
    else
      loadOrder .rc { dev := s.ownDev, core := c, isLocal := true } [.loc s.ownDev c off 32]
      if s.localHeld c off 32 false then stallOn .range
      else if s.rangePoisoned c true off 32 then raise .machinecheck a
      else if dequeCap ≤ (s.core c).deque.length then
        wrX (regNum o.c) 1
        pure .next
      else
        let bs := s.localRead c off 32
        let f ← if bytesToNat (bs.take 8) < 2 ^ 32 then pure 0 else freeM
        let s ← getS
        modCurCore (·.pushTask (taskOf bs f b (s.forkerOf c k) (c, k) s.nextId a (s.slot c k).thr.pc))
        modS (fun s => s.flushComb c k (fun _ => true))
        wrX (regNum o.c) 0
        pure .next) s

/-- Whether the stores that a task waits for are acknowledged (R211). -/
def State.taskReady (s : State) (t : Task) : Bool := !s.storesBefore t.slot t.upTo

/-- Start a task's firing in a slot (R31, R213). -/
def State.fireTask (s : State) (c k : Nat) (t : Task) : State :=
  s.startFiring c k .task
    [(4, t.forker), (5, 16), (10, t.args.1), (11, t.args.2.1), (12, t.args.2.2), (13, t.join)]
    ((s.slot c k).act.acode + t.entry)

/-- The victims of a worker: the member cores of the steal group in ascending member order, its own left out. -/
def State.victims (s : State) (c k : Nat) : List Nat :=
  match s.teamOf c k with
  | none => []
  | some t =>
    match t.steal with
    | none => []
    | some e => ((lget {} t.gaz e).members.filterMap t.coreOfMember).filter (· != c)

/-- The order in which a round tries its victims: after the last one tried, cyclically. -/
def roundFrom (victims : List Nat) (last : Option Nat) : List Nat :=
  match last with
  | none => victims
  | some v => ((victims.dropWhile (· != v)).drop 1) ++ (victims.takeWhile (· != v)) ++ (victims.filter (· == v))

/-- One try of a round: the first victim left, over links that carry traffic (R382). -/
def State.stealTry (s : State) (c k : Nat) : State :=
  let sl := s.slot c k
  let round := sl.roundLeft.getD (roundFrom (s.victims c k) sl.lastVictim)
  match round with
  | [] => s.modSlot c k (fun x => { x with roundLeft := some [], stealWait := 256, stealAt := none })
  | v :: rest =>
    if !s.stacksJoined (coreStack c) (coreStack v) then s
    else match (s.core v).deque with
    | [] =>
      let s1 := s.modSlot c k (fun x => { x with lastVictim := some v, roundLeft := some rest, stealAt := none })
      if rest.isEmpty then s1.modSlot c k (fun x => { x with stealWait := 256 }) else s1
    | t :: ts =>
      if s.taskReady t then
        ((s.modCore v (fun x => { x with deque := ts })).modSlot c k (fun x => { x with lastVictim := some v })).fireTask c k t
      else (s.flushBefore t.slot t.upTo).modSlot c k (fun x => { x with lastVictim := some v, roundLeft := some round, stealAt := some v })

/-- The entry that a worker's pop takes: the one that it waits for, else the bottom one (R211). -/
def Core.popEntry (c : Core) (wait : Option Task) : Option Task :=
  match wait with
  | some t => if c.deque.contains t then some t else c.deque.getLast?
  | none => c.deque.getLast?

/-- The deque without an entry, the one nearest the bottom where several are alike. -/
def Core.dropTask (c : Core) (t : Task) : Core := { c with deque := (c.deque.reverse.erase t).reverse }

/-- TASK_TAKE (R213): a WAITING worker with no pending handler pops its core's bottom entry, waiting for it where it is not ready
(R211), or tries the next victim. -/
def execTaskTake (core slot : Nat) (s : State) : Host.Outcome State Fault Refusal :=
  let sl := s.slot core slot
  .next (
    if sl.status != .waiting || sl.haltReq || !sl.act.worker then s
    else if sl.stealAt.isSome then s.stealTry core slot
    else if !(s.pendingHandlers core slot).isEmpty then s
    else match (s.core core).popEntry sl.taskWait with
      | some t =>
        if s.taskReady t then (s.modCore core (·.dropTask t)).fireTask core slot t
        else (s.flushBefore t.slot t.upTo).modSlot core slot (fun x => { x with taskWait := some t })
      | none => if sl.roundLeft == some [] then s else s.stealTry core slot)

/-- STEAL_WAIT_EXPIRY (R213): after 256 of the core's cycles the next round may begin. -/
def execStealWaitExpiry (core slot : Nat) (s : State) : Host.Outcome State Fault Refusal :=
  .next (if (s.slot core slot).roundLeft == some [] && (s.slot core slot).stealWait == 0 then
    s.modSlot core slot (fun x => { x with roundLeft := none }) else s)

/-! ### TEND (R212) -/

/-- The continuation of a TEND whose decrement found 1: bytes 8-15 of the join record, the record they name, the push, and
the end of the firing. It waits while the deque is full. -/
def State.tendContinue (s : State) (c k : Nat) (a : BitVec 64) : State :=
  let pc := (s.slot c k).thr.pc
  let h := s.homeOf c k
  let trap (s : State) (e : ReadStop) : State :=
    match e with
    | .wait d => s.park d
    | .trap cs v => if s.canReturn c k then s.takeTrap c k cs v pc else s
  if !s.homeJoined c k then s
  else match s.readData c k (a + 8) 8 false with
  | .error e => trap s e
  | .ok (b8, s1) =>
    let cont : BitVec 64 := bytesBv 64 b8
    if cont == 0 then s1.endFiring c k
    else if dequeCap ≤ (s.core h.1).deque.length then s
    else match s1.readData c k cont 32 true with
      | .error e => trap s e
      | .ok (bs, s2) =>
        let (f, s3) := if bytesToNat (bs.take 8) < 2 ^ 32 then (0, s2) else s2.free
        (s3.modCore h.1 (·.pushTask (taskOf bs f 0 (s.forkerOf h.1 h.2) h 0 cont pc))).endFiring c k

/-- What the decrement's old value leads to. -/
def State.tendResult (s : State) (c k : Nat) (a old : BitVec 64) : State :=
  if old != 1 then s.endFiring c k
  else (s.modSlot c k (fun x => { x with pend := some (.tendPush a), status := .stalled .release })).tendContinue c k a

/-- TEND (R212). -/
def execTend (o : Op) (s : State) : Host.Outcome State Fault Refusal :=
  runScalar 0xC8 o (do
    let a ← rdReg o.a
    if a == 0 then
      guestDone
      modS (fun s => s.endFiring s.at_.1 s.at_.2)
      pure .ended
    else
      let st ← atomicSite false a 8
      releaseAll
      guestDone
      atomicOrder st 8 true
      let s ← getS
      let (c, k) := s.at_
      if st.tgt.dev == s.ownDev && st.tgt.core == c then
        if st.tgt.isLocal && s.localHeld c st.addr 8 true then stallOn .range
        else if s.bytesPoisoned c st.tgt.isLocal st.addr then raise .machinecheck a
        else
          let (old, _, s1) := s.atomicAt c st.tgt.isLocal st.addr 0x70 8 0 (2 ^ 64 - 1) 0 (s.slot c k).regs.qos.toNat
          modS (fun _ => s1.noteIssue.tendResult c k a (BitVec.ofNat 64 old))
          pure .ended
      else
        let (rid, s1) := s.fresh
        let s2 := s1.sendPacket {
          src := (c, k), unit := 0, dev := st.tgt.dev, core := st.tgt.core, isLocal := st.tgt.isLocal, dom := s.domainOf c k,
          cls := (s.slot c k).regs.qos.toNat, body := .atomic rid 0x70 st.addr 8 (BitVec.allOnes 64) 0 0 true a }
        holdIn (s2.holdFor .release (.tend rid a))) s

/-- TEND_DECREMENT_REPLY (R212). -/
def execTendDecrementReply (i : Nat) (s : State) : Host.Outcome State Fault Refusal :=
  .next (s.onPacket i (fun p => match p.body with
    | .tendReply rid r =>
      match (s.slot p.core p.slot).pend with
      | some (.tend rid' a) =>
        if rid' != rid || !s.homeJoined p.core p.slot then s
        else match r with
          | .trap cs v =>
            if s.canReturn p.core p.slot then (s.dropPacket i).takeTrap p.core p.slot cs v (s.slot p.core p.slot).thr.pc else s
          | .ok old => (s.dropPacket i).tendResult p.core p.slot a old
      | _ => s
    | _ => s))

/-- A slot whose TEND waits to push tries again. -/
def State.tendRetry (s : State) (c k : Nat) : State :=
  match (s.slot c k).pend with
  | some (.tendPush a) => s.tendContinue c k a
  | _ => s

end Sys2Proof.Machine
end

