-- ==== Sys2Proof/Machine/Barriers.lean ====
section
/-! DEFINITION. Barriers and SELF (R224-R231). -/

namespace Sys2Proof.Machine

/-! ### The barrier of an entry (R225) -/

def Team.entry (t : Team) (e : Nat) : GazEntry := lget {} t.gaz e
def Team.modEntry (t : Team) (e : Nat) (f : GazEntry → GazEntry) : Team := { t with gaz := lput t.gaz e (f (t.entry e)) }

/-- The entry that group slot g of GSLOT names, when it is valid. -/
def SlotRegs.groupEntry (r : SlotRegs) (g : Nat) : Option Nat :=
  if r.gslot.getLsbD (32 + g) then some (bitsOf r.gslot.toNat (8 * g + 7) (8 * g)) else none

/-- The team, entry and participant of a barrier instruction: ILLEGAL when the group slot is not valid (R28, R226). -/
def barrierSite (code : Nat) (o : Op) : M (Team × Nat × (Nat × Nat)) := do
  let s ← getS
  let sl ← curSlot
  match s.teamOf s.at_.1 s.at_.2, sl.ident, sl.regs.groupEntry (i18f o 1 0) with
  | some t, some i, some e => if e < t.ngroup then pure (t, e, (i.member, i.slot)) else raise .illegal (packWord0 code o)
  | _, _, _ => raise .illegal (packWord0 code o)

/-- Instance a of an entry is complete (R227). -/
def instanceDone (phase a : BitVec 32) : Bool := (phase - a - 1).toNat < 2 ^ 31

/-- The core at whose cluster an entry's barrier stands: its lowest member's (R225). -/
def Team.hub (t : Team) (e : Nat) : Nat := (((t.entry e).members.head?).bind t.coreOfMember).getD 0

/-- Whether the links between a core and the barrier of an entry carry traffic (R382). -/
def State.hubJoined (s : State) (t : Team) (e c : Nat) : Bool := s.stacksJoined (coreStack c) (coreStack (t.hub e))

/-- Arrive in the current instance, after the release: the instance number (R227). -/
def arrive (code : Nat) (o : Op) : M (BitVec 32) := do
  let (t, e, me) ← barrierSite code o
  if (t.entry e).arrived.contains me then stallOn .barrier
  else
    releaseAll
    let s ← getS
    if !s.hubJoined t e s.at_.1 then stallOn .barrier else pure ()
    let n := (t.entry e).phase
    modS (fun s =>
      let (c, k) := s.at_
      (s.modTeam t.handle (·.modEntry e (fun x => { x with arrived := x.arrived ++ [me] }))).traceCore c 0x03
        (BitVec.ofNat 48 (e + 256 * k)) (n.setWidth 64))
    pure n

/-- BARA (R227). -/
def execBara (o : Op) (s : State) : Host.Outcome State Fault Refusal :=
  runScalar 0xCA o (do
    let n ← arrive 0xCA o
    dstRoom o.d (n.setWidth 64)
    pure .next) s

/-- BARW (R227). -/
def execBarw (o : Op) (s : State) : Host.Outcome State Fault Refusal :=
  runScalar 0xCB o (do
    let a ← rdReg o.a
    let (t, e, _) ← barrierSite 0xCB o
    let s ← getS
    if instanceDone (t.entry e).phase (a.setWidth 32) && s.hubJoined t e s.at_.1 then pure .next else stallOn .barrier) s

/-- BARPEND's word for an arrival (R228). -/
def barpendOf (g : Nat) (n : BitVec 32) : BitVec 35 := BitVec.ofNat 35 (2 ^ 34 + 2 ^ 32 * (g % 4) + n.toNat)

/-- BAR (R227, R228): it arrives, unless BARPEND holds its arrival, and waits for that instance. -/
def execBar (o : Op) (s : State) : Host.Outcome State Fault Refusal :=
  runScalar 0xC9 o (do
    let g := i18f o 1 0
    let (t, e, _) ← barrierSite 0xC9 o
    let sl ← curSlot
    let bp := sl.regs.barpend
    if bp.getLsbD 34 && bitsOf bp.toNat 33 32 == g then
      let s ← getS
      if instanceDone (t.entry e).phase (bp.setWidth 32) && s.hubJoined t e s.at_.1 then
        modRegs (fun r => { r with barpend := 0 })
        pure .next
      else stallOn .barrier
    else
      let n ← arrive 0xC9 o
      modRegs (fun r => { r with barpend := barpendOf g n })
      fun s => .error (.hold (s.stallCur .barrier))) s

/-! ### Completion and clocks (R225, R230) -/

/-- The members in the order their cores arrived: each at its last participant slot's arrival. -/
def GazEntry.coreOrder (g : GazEntry) : List Nat :=
  g.arrived.zipIdx.filterMap (fun x => if (g.arrived.drop (x.2 + 1)).any (fun y => y.1 == x.1.1) then none else some x.1.1)

/-- One clock step of a core, in MHz, with its trace event. -/
def State.stepClock (s : State) (c mhz : Nat) : State :=
  (s.modCore c (fun x => { x with clock := mhz })).traceMeridian 0x0D (BitVec.ofNat 48 c) (BitVec.ofNat 64 mhz)

/-- The rebalancing after an instance of a REBAL entry (R230), unless the power limit refuses it (R402). 'Resident actor' counts a
guest firing of another team too, and 'last in the previous instance' compares members, so that a swap to other cores in between does
not matter (DESIGN CHOICE, log entry 61). -/
def State.rebalance (s : State) (t : Team) (g : GazEntry) : State :=
  match g.coreOrder.head?, g.coreOrder.getLast? with
  | some f, some l =>
    match t.coreOfMember f, t.coreOfMember l with
    | some cf, some cl =>
      let ours (c : Nat) : Bool := (List.range 4).all (fun k =>
        match (s.slot c k).ident with | some i => i.team == t.handle | none => true)
      if !s.port.power && g.rebal && g.prevLast == some l && f != l && (s.core cl).clock < 4400 && 3200 < (s.core cf).clock && ours cl && ours cf then
        (s.stepClock cl ((s.core cl).clock + 100)).stepClock cf ((s.core cf).clock - 100)
      else s
    | _, _ => s
  | _, _ => s

/-- Whether every participant of an entry has arrived. -/
def Team.allArrived (t : Team) (e : Nat) : Bool :=
  let ps := t.groupSlots e
  !ps.isEmpty && ps.all (fun p => (t.entry e).arrived.contains p)

/-- BARRIER_COMPLETE (R225): the instance of an entry completes once every participant has arrived. -/
def execBarrierComplete (team entry : Nat) (s : State) : Host.Outcome State Fault Refusal :=
  .next (match s.team team with
    | none => s
    | some t =>
      if !t.allArrived entry then s
      else
        let g := t.entry entry
        let s1 := s.modTeam team (·.modEntry entry (fun x =>
          { x with phase := x.phase + 1, arrived := [], prevLast := x.coreOrder.getLast? }))
        (s1.traceCluster (clusterOf (t.hub entry)) 0x04 (BitVec.ofNat 48 entry) (g.phase.setWidth 64)).rebalance t g)

/-! ### SELF (R231) -/

/-- The coordinates of member m: x in [4:0], y in [9:5], s in [11:10]. -/
def Team.coordOf (t : Team) (m : Nat) : Nat :=
  m % t.w + 2 ^ 5 * (m % (t.w * t.h) / t.w) + 2 ^ 10 * (m / (t.w * t.h))

/-- SELF (R231). -/
def execSelf (o : Op) (s : State) : Host.Outcome State Fault Refusal :=
  runScalar 0xCC o (do
    let s ← getS
    let sl ← curSlot
    let m := (sl.ident.map (·.member)).getD 0
    let k := (sl.ident.map (·.slot)).getD s.at_.2
    let v : BitVec 64 := match i18f o 1 0, s.teamOf s.at_.1 s.at_.2 with
      | 0, _ => BitVec.ofNat 64 m
      | 1, some t => BitVec.ofNat 64 t.size
      | 2, some t => BitVec.ofNat 64 (t.coordOf m)
      | 3, _ => (trActor m k).setWidth 64
      | _, none => 0
      | _, _ => 0
    dstRoom o.d v
    pure .next) s

end Sys2Proof.Machine
end

