-- ==== Sys2Proof/Machine/Control.lean ====
section
/-! DEFINITION. Control transfers, NOP and BRK (R89-R92). -/

namespace Sys2Proof.Machine

/-- pc plus a word offset (R39). -/
def wordTarget (pc : BitVec 64) (off : BitVec 64) : BitVec 64 := pc + off * 4

/-- The target of the 96-bit J and JAL (R89): relative to pc. -/
def relTarget (o : Op) (pc : BitVec 64) : BitVec 64 := wordTarget pc (signExtend64 32 o.ext.toNat)

/-- A link value: the address of the following instruction. -/
def linkOf (o : Op) (pc : BitVec 64) : BitVec 64 := pc + BitVec.ofNat 64 (lenBytes o.len)

/-- BR (R89). -/
def execBr (o : Op) (s : State) : Host.Outcome State Fault Refusal :=
  runScalar 0x40 o (do
    let t ← curThread
    jumpTo (wordTarget t.pc (byteOffset o))) s

/-- JAL (R89): no link register is written when the target is misaligned. -/
def linkJump (o : Op) (target : BitVec 64 → BitVec 64) : M Flow := do
  let t ← curThread
  let f ← jumpTo (target t.pc)
  wrX (regNum o.d) (linkOf o t.pc)
  pure f

/-- J, 96 bits (R89). -/
def execJRelative (o : Op) (s : State) : Host.Outcome State Fault Refusal :=
  runScalar 0x41 o (do
    let t ← curThread
    jumpTo (relTarget o t.pc)) s

/-- J, 128 bits (R89). -/
def execJAbsolute (o : Op) (s : State) : Host.Outcome State Fault Refusal :=
  runScalar 0x41 o (jumpTo o.ext) s

/-- JAL, 96 bits (R89). -/
def execJalRelative (o : Op) (s : State) : Host.Outcome State Fault Refusal :=
  runScalar 0x42 o (linkJump o (relTarget o)) s

/-- JAL, 128 bits (R89). -/
def execJalAbsolute (o : Op) (s : State) : Host.Outcome State Fault Refusal :=
  runScalar 0x42 o (linkJump o (fun _ => o.ext)) s

/-- JR (R89). -/
def execJr (o : Op) (s : State) : Host.Outcome State Fault Refusal :=
  runScalar 0x43 o (do
    let a ← rdReg o.a
    jumpTo (a + byteOffset o)) s

/-- JALR (R89): a is read before D is written. -/
def execJalr (o : Op) (s : State) : Host.Outcome State Fault Refusal :=
  runScalar 0x44 o (do
    let t ← curThread
    let a ← rdReg o.a
    let f ← jumpTo (a + byteOffset o)
    wrX (regNum o.d) (linkOf o t.pc)
    pure f) s

/-- LOOP (R89). -/
def execLoop (o : Op) (s : State) : Host.Outcome State Fault Refusal :=
  runScalar 0x45 o (do
    let t ← curThread
    let d ← rdReg o.d
    let f ← jumpTo (wordTarget t.pc (byteOffset o))
    wrX (regNum o.d) (d - 1)
    pure (if d - 1 != 0 then f else .next)) s

/-- LOOPC (R89, R90): the latch's COUNT is bits [31:0]. -/
def execLoopc (o : Op) (s : State) : Host.Outcome State Fault Refusal :=
  runScalar 0x46 o (do
    homeOnly
    let t ← curThread
    let d ← rdReg o.d
    let sl ← curSlot
    let f ← jumpTo (wordTarget t.pc (byteOffset o))
    wrX (regNum o.d) (d + 1)
    let count := (vget 0 sl.regs.latch (o.m.toNat % 8)).toNat % 2 ^ 32
    pure (if (d + 1).toNat < count then f else .next)) s

/-- NOP (R91). -/
def execNop (o : Op) (s : State) : Host.Outcome State Fault Refusal :=
  runScalar 0x47 o (pure .next) s

/-- BRK (R92). -/
def execBrk (o : Op) (s : State) : Host.Outcome State Fault Refusal :=
  runScalar 0x48 o (raise .brk (BitVec.ofNat 64 (i18n o))) s

end Sys2Proof.Machine
end

