-- ==== Sys2Proof/Machine/Matrix.lean ====
section
/-! DEFINITION. The matrix unit (R156-R179, R235): checks at issue, the queue, MGEMM's sequencer, drains and their wakes. -/

namespace Sys2Proof.Machine

/-! ### MSEQ's fields (R173) -/

def mseqActive (v : BitVec 64) : Bool := v.getLsbD 63
def mseqSlot (v : BitVec 64) : Nat := bitsOf v.toNat 62 61
/-- MSEQ.RM. The values 5 to 7 that a keeper writes act as round to nearest even (DESIGN CHOICE, log entry 53: R173 does not say
what they do). -/
def mseqRm (v : BitVec 64) : Nat := bitsOf v.toNat 60 58
def mseqAcc (v : BitVec 64) : Nat := bitsOf v.toNat 57 56
def mseqMacros (v : BitVec 64) : Nat := bitsOf v.toNat 55 48
def mseqLast (v : BitVec 64) : Nat := bitsOf v.toNat 47 43
def mseqNext (v : BitVec 64) : Nat := bitsOf v.toNat 42 38
def mseqHeld (v : BitVec 64) : Bool := v.getLsbD 37
def mseqStride (v : BitVec 64) : Nat := bitsOf v.toNat 33 17
def mseqBase (v : BitVec 64) : Nat := bitsOf v.toNat 16 0
def setSeq (v : BitVec 64) (active held : Bool) : BitVec 64 := setBits (setBits v 63 63 active.toNat) 37 37 held.toNat

/-- The macro of step i. -/
def seqMacro (macros i : Nat) : Nat := macros / 2 ^ (2 * (i % 4)) % 4

/-! ### Modes as they stand behind the queue (R159, R161) -/

/-- The other macro of a pair. -/
def pairOf (m : Nat) : Nat := m / 2 * 2 + (1 - m % 2)

/-- AB16 and the MB16 bits once an operation of the queue has completed. -/
def MKind.modes (x : Bool × List Bool) : MKind → Bool × List Bool
  | .lda _ _ b16 => (b16, x.2)
  | .ldb m _ _ _ b16 => (x.1, lput (lput x.2 m b16) (pairOf m) b16)
  | .ldbs m _ _ _ => (x.1, lput (lput x.2 m false) (pairOf m) false)
  | .chain _ _ => (false, x.2)
  | _ => x

def MatrixUnit.mb16 (u : MatrixUnit) : List Bool := u.tiles.toList.map (·.b16)

/-- The modes that the next operation will meet. -/
def MatrixUnit.modes (u : MatrixUnit) : Bool × List Bool := u.queue.foldl (fun x op => op.kind.modes x) (u.ab16, u.mb16)

/-- Whether a product of the row buffer's mode with macro m raises FORMAT (R161). -/
def modeBad (a16 : Bool) (mb : List Bool) (m : Nat) : Bool := a16 != lget false mb m || (a16 && m % 2 == 1)

/-! ### Checks at issue (R158-R162) -/

/-- Ownership, then the waits for the sequencer and for a place in the queue. -/
def matrixPre (seq queued : Bool) : M Unit := do
  homeOnly
  let c ← curCore
  let d ← curDomain
  if !c.mu.en || d != c.mu.domain.toNat then raise .rights 0
  else if seq && (mseqActive c.mu.mseq || mseqHeld c.mu.mseq) then stallOn .matrix
  else if queued && 8 ≤ c.mu.queue.length then stallOn .matrix
  else pure ()

/-- A row that an operation touches: its address as issued and its size. -/
abbrev MRow := BitVec 64 × Nat

/-- The local offset of a row, if it lies in the issuing core's local memory. -/
def State.rowOff (s : State) (c k : Nat) (r : MRow) : Option Nat :=
  match s.locate c k r.1.toNat r.2 with
  | some (.loc d core o _) => if d == s.ownDev && core == c then some o else none
  | _ => none

/-- The checks of R160 over all rows: the offsets, or the first failure. XVAL of RIGHTS is the address of the first row that fails, where
the table says only "Address" (DESIGN CHOICE, log entry 58). -/
def State.checkRows (s : State) (c k : Nat) (rows : List MRow) (alignBad : Option (BitVec 64)) :
    Except (Cause × BitVec 64) (List Nat) :=
  let offs := rows.map (s.rowOff c k)
  match (rows.zip offs).find? (fun x => x.2.isNone) with
  | some x => .error (.rights, x.1.1)
  | none =>
    match alignBad with
    | some a => .error (.align, a)
    | none =>
      let bad (x : MRow × Option Nat) : Bool :=
        let o := x.2.getD 0
        let f (o : Nat) : Bool := let b := s.bank c (o / bankBytes); b.pers != 0 || b.spanned
        f o || f (o + x.1.2 - 1)
      match (rows.zip offs).find? bad with
      | some x => .error (.bankop, x.1.1)
      | none => .ok (offs.map (·.getD 0))

/-- Mode of a legend: binary16, binary8, or neither (R161). -/
def legMode (l : Legend) : Option Bool := if legFmt l == 0x81 then some true else if isB8 (legFmt l) then some false else none

/-- The mode that the first block at an address selects; binary8 where it selects none. -/
def State.tileMode (s : State) (c k : Nat) (a : BitVec 64) : Bool :=
  match s.rowOff c k (a, 1) with
  | some o => (legMode (LegMap.read (s.core c).leg (o / 64))).getD false
  | none => false

/-- The blocks of rows, as address and offset. -/
def rowBlocks (rows : List MRow) (offs : List Nat) : List (BitVec 64 × Nat) :=
  (rows.zip offs).flatMap (fun x => (List.range ((x.1.2 + 63) / 64)).map (fun i =>
    (x.1.1 + BitVec.ofNat 64 (64 * i), x.2 + 64 * i)))

/-- The legends of all blocks must carry the mode; then none of their data may hold an uncorrectable error (R332). -/
def State.checkLegends (s : State) (c : Nat) (b16 : Bool) (bs : List (BitVec 64 × Nat)) : Except (Cause × BitVec 64) Unit :=
  match bs.find? (fun b => legMode (LegMap.read (s.core c).leg (b.2 / 64)) != some b16) with
  | some b => .error (.format, b.1)
  | none =>
    match bs.find? (fun b => s.poison.contains (.bank c (b.2 / 64))) with
    | some b => .error (.machinecheck, b.1)
    | none => .ok ()

/-- Rows from a base at a stride. -/
def rowsFrom (a stride : BitVec 64) (n size : Nat) : List MRow :=
  (List.range n).map (fun i => (a + stride * BitVec.ofNat 64 i, size))

def orNat (st : BitVec 64) (n : Nat) : BitVec 64 := if st == 0 then BitVec.ofNat 64 n else st
def alignBase (a st : BitVec 64) : Option (BitVec 64) := if a.toNat % 64 != 0 || st.toNat % 64 != 0 then some a else none

/-- The span of rows, as offset and length. -/
def spanOf (rows : List MRow) (offs : List Nat) : Nat × Nat :=
  let xs := (rows.zip offs).map (fun x => (x.2, x.2 + x.1.2))
  let lo := xs.foldl (fun m x => min m x.1) 0x20000
  let hi := xs.foldl (fun m x => max m x.2) 0
  (lo, hi - lo)

/-- Whether a queued store of a slot of the core writes local bytes that an operation touches: it issued earlier and goes
first (R162). -/
def Core.storeInto (x : Core) (own c lo n : Nat) : Bool :=
  x.slots.toList.any (fun sl => sl.queued.any (fun r =>
    match r.chk with
    | .ok t _ => t.isLocal && t.dev == own && t.core == c && decide (r.off < lo + n) && decide (lo < r.off + r.len)
    | _ => false))

/-- Whether rows meet a held range, or a store that has not reached its bank: reads wait behind a write range of any holder, writes
behind every range that a job, gather or drain holds (R162, R260). -/
def State.rowsBusy (s : State) (c k : Nat) (write : Bool) (rows : List MRow) : Option Wait :=
  let x := s.core c
  let spans := rows.filterMap (fun r => (s.rowOff c k r).map (fun o => (o, r.2)))
  if spans.any (fun p => x.ranges.any (fun g => (if write then g.holder != .matrix else g.write) && g.overlaps p.1 p.2)) then some .range
  else if spans.any (fun p => x.storeInto s.ownDev c p.1 p.2) then some .storeQueue
  else none

/-- The waits before an operation's checks. -/
def waitRows (write : Bool) (rows : List MRow) : M Unit := do
  let s ← getS
  match s.rowsBusy s.at_.1 s.at_.2 write rows with
  | some w => stallOn w
  | none => pure ()

def liftE {α : Type} : Except (Cause × BitVec 64) α → M α
  | .ok a => pure a
  | .error (c, v) => raise c v

def rangeCap : Nat := 16

/-- Enter matrix ranges into the issuing core's scoreboard; it stalls when there is no room. -/
def enterRanges (rs : List (Nat × Nat)) (write : Bool) : M (List Nat) := do
  let c ← curCore
  if rangeCap < c.ranges.length + rs.length then stallOn .matrix
  else rs.foldlM (fun acc r => do
    let s ← getS
    let (id, s1) := s.fresh
    modS (fun _ => s1.modCore s1.at_.1 (fun x => { x with ranges := x.ranges ++ [{ id, lo := r.1, len := r.2, write, holder := .matrix }] }))
    pure (acc ++ [id])) []

/-- Put an operation into the queue with what it captures at issue. -/
def enqueueOp (kind : MKind) (ranges : List Nat) : M Flow := do
  let s ← getS
  let (c, k) := s.at_
  let op : MOp := { kind, slot := k, rm := s.thread.rm, ranges, ident := (s.slot c k).ident, dom := s.checkDom c k }
  modCurCore (fun x => { x with mu := { x.mu with queue := x.mu.queue ++ [op] } })
  pure .next

/-- The checks of a tile of rows read by MLDA or MLDB: its mode, row offsets and span. -/
def tilePlan (a st : BitVec 64) (n : Nat) : M (Bool × Nat × (Nat × Nat)) := do
  waitRows false [(a, 64)]
  let s ← getS
  let (c, k) := s.at_
  let b16 := s.tileMode c k a
  let rows := rowsFrom a (orNat st (if b16 then 128 else 64)) n (if b16 then 128 else 64)
  waitRows false rows
  let offs ← liftE (s.checkRows c k rows (alignBase a st))
  liftE (s.checkLegends c b16 (rowBlocks rows offs))
  pure (b16, offs.headD 0, spanOf rows offs)

/-! ### The instructions (R170-R172, R175-R178) -/

/-- MLDA (R170). -/
def execMlda (o : Op) (s : State) : Host.Outcome State Fault Refusal :=
  runScalar 0xD0 o (do
    let a0 ← rdReg o.a
    let st ← rdReg o.b
    matrixPre true true
    let (b16, base, span) ← tilePlan (a0 + byteOffset o) st 16
    let ids ← enterRanges [span] false
    enqueueOp (.lda base (orNat st (if b16 then 128 else 64)).toNat b16) ids) s

/-- MLDB (R171): its FORMAT for m1 or m3 in binary16 comes after every legend's (DESIGN CHOICE, log entry 58). -/
def execMldb (o : Op) (s : State) : Host.Outcome State Fault Refusal :=
  runScalar 0xD1 o (do
    let a0 ← rdReg o.a
    let st ← rdReg o.b
    matrixPre true true
    let a := a0 + byteOffset o
    let (b16, base, span) ← tilePlan a st 64
    if b16 && regNum o.d % 2 == 1 then raise .format a
    else
      let ids ← enterRanges [span] false
      enqueueOp (.ldb (regNum o.d) (o.m.getLsbD 0) base (orNat st (if b16 then 128 else 64)).toNat b16) ids) s

/-- The bits of a bitmap that mark present blocks, and the side of a block (R165). -/
def sparseBits (b32 : Bool) (bm : BitVec 16) : Nat := if b32 then bm.toNat % 16 else bm.toNat
def blockSide (b32 : Bool) : Nat := if b32 then 32 else 16

/-- MLDBS (R165): the bitmap is read at issue; the packed values are rows of one block side, none where the bitmap is zero. A bitmap that
fails ALIGN or BANKOP is still read, where its bytes lie in the core, to find the value rows whose RIGHTS check goes before; with a
bitmap of zero the base's ALIGN check is still made (DESIGN CHOICE, log entry 58). -/
def execMldbs (o : Op) (s : State) : Host.Outcome State Fault Refusal :=
  runScalar 0xD2 o (do
    let a0 ← rdReg o.a
    let b ← rdReg o.b
    matrixPre true true
    let a := a0 + byteOffset o
    let b32 := o.m.getLsbD 0
    let s ← getS
    let (c, k) := s.at_
    waitRows false [(b, 2)]
    match s.checkRows c k [(b, 2)] (if b.toNat % 2 != 0 then some b else none) with
    | .ok (x :: _) => if s.poison.contains (.bank c (x / 64)) then raise .machinecheck b else pure ()
    | _ => pure ()
    let bm : BitVec 16 := match s.rowOff c k (b, 2) with
      | some x => BitVec.ofNat 16 (Mem.word (s.core c).mem x 2)
      | none => 0
    let side := blockSide b32
    let n := popCount16 (sparseBits b32 bm) * side
    let vals := rowsFrom a (BitVec.ofNat 64 side) n side
    waitRows false vals
    let offs ← liftE (s.checkRows c k ((b, 2) :: vals)
      (if b.toNat % 2 != 0 then some b else if a.toNat % 64 != 0 then some a else none))
    let vOffs := offs.drop 1
    let blocks := (rowBlocks vals vOffs).filter (fun x => x.2 % 64 == 0)
    liftE (s.checkLegends c false blocks)
    let ids ← enterRanges ((offs.headD 0, 2) :: (if n == 0 then [] else [spanOf vals vOffs])) false
    enqueueOp (.ldbs (regNum o.d) b32 bm (vOffs.headD 0)) ids) s
  where
  popCount16 (v : Nat) : Nat := ((List.range 16).filter (fun i => v.testBit i)).length

/-- MZERO (R172). -/
def execMzero (o : Op) (s : State) : Host.Outcome State Fault Refusal :=
  runScalar 0xD3 o (do
    matrixPre true true
    enqueueOp (.zero (regNum o.d)) []) s

/-- MMUL (R163, R172): FORMAT with XVAL 0 when the modes do not match (R161). -/
def execMmul (o : Op) (s : State) : Host.Outcome State Fault Refusal :=
  runScalar 0xD4 o (do
    matrixPre true true
    let c ← curCore
    let (a16, mb) := c.mu.modes
    if modeBad a16 mb (regNum o.a) then raise .format 0
    else enqueueOp (.mul (regNum o.d) (regNum o.a)) []) s

/-- MMULS (R166): binary8 only. -/
def execMmuls (o : Op) (s : State) : Host.Outcome State Fault Refusal :=
  runScalar 0xD5 o (do
    matrixPre true true
    let c ← curCore
    let (a16, mb) := c.mu.modes
    if a16 || modeBad a16 mb (regNum o.a) then raise .format 0
    else enqueueOp (.muls (regNum o.d) (regNum o.a)) []) s

/-- The steps of a sequence from `first` to `last`: for each its base address, mode and rows. -/
def State.seqSteps (s : State) (c k : Nat) (a st : BitVec 64) (first last : Nat) : List (Nat × BitVec 64 × Bool × List MRow) :=
  (List.range (last + 1 - first)).map (fun j =>
    let i := first + j
    let b := a + st * BitVec.ofNat 64 i
    let b16 := s.tileMode c k b
    let n := if b16 then 128 else 64
    (i, b, b16, rowsFrom b (BitVec.ofNat 64 n) 16 n))

/-- The checks of a sequence's steps (R160, R161): each over every step before the next; the span read. Of two FORMAT faults a legend's,
of any step, goes before a mode's (DESIGN CHOICE, log entry 58). -/
def State.checkSeq (s : State) (c k : Nat) (alignBad : Option (BitVec 64)) (macros : Nat) (mb : List Bool)
    (steps : List (Nat × BitVec 64 × Bool × List MRow)) : Except (Cause × BitVec 64) (Nat × Nat) := do
  let rows := steps.flatMap (fun x => x.2.2.2)
  let offs ← s.checkRows c k rows alignBad
  let _ ← steps.foldlM (fun (i : Nat) x => do
    s.checkLegends c x.2.2.1 (rowBlocks x.2.2.2 (offs.drop i))
    pure (i + x.2.2.2.length)) 0
  match steps.find? (fun x => modeBad x.2.2.1 mb (seqMacro macros x.1)) with
  | some x => .error (.format, x.2.1)
  | none => .ok (spanOf rows offs)

/-- MGEMM (R173): every step is checked at issue, and the sequence becomes active behind the queue. -/
def execMgemm (o : Op) (s : State) : Host.Outcome State Fault Refusal :=
  runScalar 0xD6 o (do
    let a ← rdReg o.a
    let st0 ← rdReg o.b
    matrixPre true true
    waitRows false [(a, 64)]
    let s ← getS
    let (c, k) := s.at_
    let st := orNat st0 (if s.tileMode c k a then 2048 else 1024)
    let last := i18f o 12 8
    let macros := i18f o 7 0
    let steps := s.seqSteps c k a st 0 last
    waitRows false (steps.flatMap (fun x => x.2.2.2))
    let span ← liftE (s.checkSeq c k (alignBase a st0) macros (s.core c).mu.modes.2 steps)
    let ids ← enterRanges [span] false
    let base := (s.rowOff c k (a, 1)).getD 0
    let v := 2 ^ 63 + k * 2 ^ 61 + s.thread.rm.toNat * 2 ^ 58 + regNum o.d * 2 ^ 56 + macros * 2 ^ 48 + last * 2 ^ 43 +
      st.toNat % 2 ^ 17 * 2 ^ 17 + base
    modCurCore (fun x => { x with mu := { x.mu with mseq := BitVec.ofNat 64 v, seqRange := ids.head?, seqFl := 0 } })
    pure .next) s

/-- MDRAIN (R176): the destination is checked and resolved at issue. -/
def execMdrain (o : Op) (s : State) : Host.Outcome State Fault Refusal :=
  runScalar 0xD7 o (do
    let a ← rdReg o.a
    let b ← rdReg o.b
    matrixPre true true
    let t := o.t.toNat
    let total := 16 * (if t == 5 then 256 else if t == 6 then 128 else 64)
    let s ← getS
    let (c, k) := s.at_
    if a.toNat % 64 != 0 then raise .align a
    else match s.locate c k a.toNat total with
    | some (.loc dev core _ _) => enqueueOp (.drain (regNum o.d) t (i18f o 7 0) (i18f o 8 8 == 1) a { dev, core, isLocal := true } b) []
    | _ => raise .rights a) s

/-- MCHAIN (R177). -/
def execMchain (o : Op) (s : State) : Host.Outcome State Fault Refusal :=
  runScalar 0xD8 o (do
    matrixPre true true
    enqueueOp (.chain (i18f o 7 0) (i18f o 8 8 == 1)) []) s

/-- MST (R175). -/
def execMst (o : Op) (s : State) : Host.Outcome State Fault Refusal :=
  runScalar 0xD9 o (do
    let a0 ← rdReg o.a
    let st ← rdReg o.b
    matrixPre true true
    let a := a0 + byteOffset o
    let s ← getS
    let (c, k) := s.at_
    let rows := rowsFrom a (orNat st 256) 16 256
    waitRows true rows
    let bad := (alignBase a st).isSome || (st != 0 && st.toNat < 256)
    let offs ← liftE (s.checkRows c k rows (if bad then some a else none))
    let ids ← enterRanges [spanOf rows offs] true
    enqueueOp (.st (regNum o.d) (offs.headD 0) (orNat st 256).toNat) ids) s

/-- MSYNC (R167): it waits for the slot's operations, drains acknowledged included. -/
def execMsync (o : Op) (s : State) : Host.Outcome State Fault Refusal :=
  runScalar 0xDA o (do
    matrixPre true false
    let s ← getS
    let (c, k) := s.at_
    let x := s.core c
    if x.mu.queue.any (fun m => m.slot == k) || x.drains.any (fun d => d.slot == k && d.left != 0) then stallOn .matrix
    else pure .next) s

/-- The accumulators and macros that an operation works on. -/
def MKind.accs : MKind → List Nat
  | .zero a => [a] | .mul a _ => [a] | .muls a _ => [a] | .drain a _ _ _ _ _ _ => [a] | .chain _ _ => [3] | .st a _ _ => [a]
  | _ => []
def MKind.macs (mb : List Bool) : MKind → List Nat
  | .ldb m _ _ _ b16 => if b16 || lget false mb m then [m, pairOf m] else [m]
  | .ldbs m _ _ _ => if lget false mb m then [m, pairOf m] else [m]
  | .mul _ m => if lget false mb m then [m, pairOf m] else [m]
  | .muls _ m => [m]
  | _ => []

/-- The macros that the queue's operations work on, each in the mode that it will meet. -/
def MatrixUnit.queuedMacs (u : MatrixUnit) : List Nat :=
  (u.queue.foldl (fun (acc : List Nat × Bool × List Bool) op => (acc.1 ++ op.kind.macs acc.2.2, op.kind.modes acc.2)) ([], u.ab16, u.mb16)).1

def bitSet (l : List Nat) : Nat := ((List.range 4).filter l.contains).foldl (fun v i => v + 2 ^ i) 0

/-- The status word of MSTAT (R178), for slot k. A drain that is sent and not acknowledged counts in OWN and DRAINS alone; a held
sequence in APEND, MPEND and OWN, not in QCOUNT, which an active one joins up to 8 (DESIGN CHOICE, log entry 58). -/
def Core.mstat (x : Core) (k : Nat) : BitVec 64 :=
  let u := x.mu
  let seq := mseqActive u.mseq || mseqHeld u.mseq
  let steps := (List.range (mseqLast u.mseq + 1 - mseqNext u.mseq)).map (fun j => seqMacro (mseqMacros u.mseq) (mseqNext u.mseq + j))
  let accs := u.queue.flatMap (fun m => m.kind.accs) ++ (if seq then [mseqAcc u.mseq] else [])
  let macs := u.queuedMacs ++ (if seq then steps.flatMap (fun m => (MKind.mul 0 m).macs u.modes.2) else [])
  let own := u.queue.any (fun m => m.slot == k) || x.drains.any (fun d => d.slot == k && d.left != 0) ||
    (seq && mseqSlot u.mseq == k)
  let drains := (u.queue.filter (fun m => match m.kind with | .drain .. => true | _ => false)).length +
    (x.drains.filter (fun d => d.left != 0)).length
  BitVec.ofNat 64 (bitSet accs * 2 ^ 28 + bitSet macs * 2 ^ 24 + bitSet ((List.range 4).filter (lget false u.mb16)) * 2 ^ 20 +
    u.ab16.toNat * 2 ^ 19 + (mseqActive u.mseq).toNat * 2 ^ 18 + (mseqHeld u.mseq).toNat * 2 ^ 17 + own.toNat * 2 ^ 16 +
    min 8 (u.queue.length + (mseqActive u.mseq).toNat) * 2 ^ 12 + min drains 255)

/-- MSTAT (R178). -/
def execMstat (o : Op) (s : State) : Host.Outcome State Fault Refusal :=
  runScalar 0xDB o (do
    matrixPre false false
    let s ← getS
    dstRoom o.d ((s.core s.at_.1).mstat s.at_.2)
    pure .next) s

/-! ### Performing an operation (R163-R166, R170-R177) -/

/-- The decoded elements of a row at a local offset. -/
def Core.tileRow (x : Core) (off : Nat) (b16 : Bool) : List FVal :=
  (List.range 64).map (fun e =>
    let o := off + (if b16 then 2 * e else e)
    decodeElem (Mem.word x.mem o (if b16 then 2 else 1)) (LegMap.read x.leg (o / 64)))

def rowOffset (base stride i : Nat) : Nat := (base + i * stride) % 0x20000

def fzero : FVal := .fin false 0 0

/-- The columns of a tile of rows. -/
def transpose64 (rows : List (List FVal)) : List (List FVal) :=
  (List.range 64).map (fun j => (List.range 64).map (fun i => lget fzero (lget [] rows i) j))

/-- A block-compressed tile, row k by column n (R165). -/
def Core.sparseTile (x : Core) (b32 : Bool) (bm : BitVec 16) (base : Nat) : List (List FVal) :=
  let bits := sparseBits b32 bm
  let side := blockSide b32
  let nbk := 64 / side
  (List.range 64).map (fun k => (List.range 64).map (fun n =>
    let blk := k / side * nbk + n / side
    if bits.testBit blk then
      let rank := ((List.range blk).filter (fun i => bits.testBit i)).length
      let o := base + rank * side * side + k % side * side + n % side
      decodeElem (Mem.read x.mem o).toNat (LegMap.read x.leg (o / 64))
    else fzero))

def accElem (acc : List (List (BitVec 32))) (i j : Nat) : BitVec 32 := lget 0 (lget [] acc i) j

/-- The sixteen elements of group g of a row or column. -/
def group16 (l : List FVal) (g : Nat) : List FVal := (List.range 16).map (fun t => lget fzero l (16 * g + t))

/-- MMUL's accumulation (R163): the new accumulator and its flags. -/
def tileProduct (acc : List (List (BitVec 32))) (a b : List (List FVal)) (rm : Nat) : List (List (BitVec 32)) × Flags :=
  let cols := transpose64 b
  let out := (List.range 16).map (fun i => (List.range 64).map (fun j =>
    (List.range 4).foldl (fun (x : Nat × Flags) g =>
      let r := exactGroupSum x.1 (group16 (lget [] a i) g) (group16 (lget [] cols j) g) rm
      (r.1, x.2 ||| r.2)) ((accElem acc i j).toNat, 0)))
  (out.map (fun r => r.map (fun x => BitVec.ofNat 32 x.1)), out.foldl (fun f r => r.foldl (fun f x => f ||| x.2) f) 0)

/-- A row of an accumulator in binary8 (R176, R177): its codes, its legend and its flags. -/
def accRowB8 (row : List (BitVec 32)) (f rm : Nat) (sat : Bool) : List Nat × Legend × Flags :=
  let vs := row.map (fun e => f32.decode e.toNat)
  let (sc, fl) := chooseScale vs f
  let l : Legend := BitVec.ofNat 16 (256 * sc + f)
  if sc == 0x80 then (vs.map (fun _ => b8Nan f), l, fl)
  else
    let rs := vs.map (quantize f rm sat sc)
    (rs.map Prod.fst, l, rs.foldl (fun x r => x ||| r.2) fl)

def MatrixUnit.tile (u : MatrixUnit) (m : Nat) : MTile := vget {} u.tiles m
def MatrixUnit.accOf (u : MatrixUnit) (a : Nat) : List (List (BitVec 32)) := vget [] u.acc a
def accRow (acc : List (List (BitVec 32))) (i : Nat) : List (BitVec 32) := (List.range 64).map (accElem acc i)

/-- Fill macro m (R171): a binary16 tile fills its pair; a binary8 tile ends a binary16 pair. MLDBS does as R171 says of MLDB (DESIGN
CHOICE, log entry 58: R165 does not say what becomes of the pair). -/
def MatrixUnit.fillMacro (u : MatrixUnit) (m : Nat) (t : MTile) : MatrixUnit :=
  let u1 := { u with tiles := vput u.tiles m t }
  if t.b16 then { u1 with tiles := vput u1.tiles (pairOf m) t }
  else if (u.tile m).b16 then { u1 with tiles := vput u1.tiles (pairOf m) {} }
  else u1

/-- An MLDA of 16 rows followed by nothing else. -/
def Core.loadRows (x : Core) (base stride : Nat) (b16 : Bool) : Core :=
  { x with mu := { x.mu with arows := (List.range 16).map (fun i => x.tileRow (rowOffset base stride i) b16), ab16 := b16 } }

/-- A product into accumulator a. -/
def Core.product (x : Core) (a m rm : Nat) : Core × Flags :=
  let (acc, fl) := tileProduct (x.mu.accOf a) x.mu.arows (x.mu.tile m).rows rm
  ({ x with mu := { x.mu with acc := vput x.mu.acc a acc } }, fl)

/-- The 64-byte blocks of a drained accumulator with their legends, in ascending order, and the flags (R176). -/
def drainBlocks (acc : List (List (BitVec 32))) (t f rm : Nat) (sat : Bool) : List (List Byte × Option Legend) × Flags :=
  (List.range 16).foldl (fun r i =>
    let row := accRow acc i
    let (bs, leg, fl) : List Byte × Option Legend × Flags :=
      if t == 5 then (row.flatMap (bvBytes 4), none, 0)
      else if t == 6 then
        let xs := row.map (fun e => roundIeee f16 rm (f32.decode e.toNat))
        (xs.flatMap (fun x => natToBytes 2 x.1), none, xs.foldl (fun g x => g ||| x.2) 0)
      else
        let (codes, l, fl) := accRowB8 row f rm sat
        (codes.map (BitVec.ofNat 8), some l, fl)
    (r.1 ++ (LoadDst.chunks 64 bs (bs.length / 64)).map (fun b => (b, leg)), r.2 ||| fl)) ([], 0)

/-- The effect of an operation on its core, but for a drain's blocks, with its flags. -/
def Core.perform (x : Core) (op : MOp) : Core × Flags :=
  let rm := op.rm.toNat
  match op.kind with
  | .lda base stride b16 => (x.loadRows base stride b16, 0)
  | .ldb m tr base stride b16 =>
    let rows := (List.range 64).map (fun i => x.tileRow (rowOffset base stride i) b16)
    ({ x with mu := x.mu.fillMacro m { rows := if tr then transpose64 rows else rows, b16 } }, 0)
  | .ldbs m b32 bm base => ({ x with mu := x.mu.fillMacro m { rows := x.sparseTile b32 bm base, sparse := some (bm, b32) } }, 0)
  | .zero a => ({ x with mu := { x.mu with acc := vput x.mu.acc a [] } }, 0)
  | .mul a m => x.product a m rm
  | .muls a m => x.product a m rm
  | .chain f sat =>
    let rows := (List.range 16).map (fun i => accRowB8 (accRow (x.mu.accOf 3) i) f rm sat)
    ({ x with mu := { x.mu with arows := rows.map (fun r => r.1.map (fun c => decodeElem c r.2.1)), ab16 := false } },
     rows.foldl (fun g r => g ||| r.2.2) 0)
  | .st a base stride =>
    ({ x with mem := (List.range 16).foldl (fun m i =>
        Mem.writeN m (rowOffset base stride i) ((accRow (x.mu.accOf a) i).flatMap (bvBytes 4))) x.mem }, 0)
  | .drain _ _ _ _ _ _ _ => (x, 0)

/-- The blocks of local memory that an operation writes whole. -/
def MKind.stored : MKind → List Nat
  | .st _ base stride => (List.range 16).flatMap (fun i => (List.range 4).map (fun j => rowOffset base stride i / 64 + j))
  | _ => []

/-- Send a drain's blocks (R176). -/
def State.startDrain (s : State) (c : Nat) (op : MOp) (dst : BitVec 64) (tgt : Target) (wake : BitVec 64)
    (bs : List (List Byte × Option Legend)) (fl : Flags) : State :=
  let (id, s1) := s.fresh
  let off := dst.toNat % 0x20000
  let d : Drain := { id, slot := op.slot, ident := op.ident, addr := dst, wake, left := bs.length, fl, dom := op.dom }
  let s2 := s1.modCore c (fun x => { x with drains := x.drains ++ [d] })
  bs.zipIdx.foldl (fun s b => s.sendPacket
    { src := (c, op.slot), unit := 0, dev := tgt.dev, core := tgt.core, isLocal := true, dom := op.dom
      body := .drainBlock id off (64 * bs.length) b.1.1 b.1.2 (off + 64 * b.2) }) s2

/-- A slot that is asked to halt waits for one operation fewer (R365). -/
def Slot.opDone (sl : Slot) : Slot := { sl with haltOps := sl.haltOps - 1 }

/-- MATRIX_OP_COMPLETE (R159, R167): the oldest operation of the queue is performed, and its flags reach the issuing slot's
FPCTL. -/
def execMatrixOpComplete (core : Nat) (s : State) : Host.Outcome State Fault Refusal :=
  .next (match (s.core core).mu.queue with
    | [] => s
    | op :: rest =>
      let s0 := s.modCore core (fun x => { x with mu := { x.mu with queue := rest }, slots := x.slots.map (·.opDone) })
      let flags (s : State) (fl : Flags) : State :=
        s.modSlot core op.slot (fun x => if x.ident == op.ident then { x with thr := x.thr.orFlags fl } else x)
      match op.kind with
      | .drain a t f sat dst tgt wake =>
        let (bs, fl) := drainBlocks ((s0.core core).mu.accOf a) t f op.rm.toNat sat
        flags (s0.startDrain core op dst tgt wake bs fl) fl
      | _ =>
        let (x, fl) := (s0.core core).perform op
        let s1 := op.kind.stored.foldl (fun s b => s.clearPoison (.bank core b)) (s0.setCore core x)
        flags s1 fl)

/-! ### The sequencer (R173, R174) -/

/-- One step of an active sequence, with its flags. -/
def Core.seqStep (x : Core) (i : Nat) : Core × Flags :=
  let v := x.mu.mseq
  let base := rowOffset (mseqBase v) (mseqStride v) i
  let b16 := (legMode (LegMap.read x.leg (base / 64))).getD false
  (x.loadRows base (if b16 then 128 else 64) b16).product (mseqAcc v) (seqMacro (mseqMacros v) i) (mseqRm v)

/-- MGEMM_STEP_COMPLETE (R173, R174): step NEXT is performed once the queue is empty; the sequence ends after the last, its flags
then reach the issuing slot's FPCTL (R167), and it is held when its slot has been asked to halt. A held sequence keeps its read range,
whose last bytes it has not read (R162, R259; DEDUCED, log entry 58). -/
def execMgemmStepComplete (core : Nat) (s : State) : Host.Outcome State Fault Refusal :=
  let x := s.core core
  let v := x.mu.mseq
  .next (if !mseqActive v || !x.mu.queue.isEmpty then s
    else
      let k := mseqSlot v
      let n := mseqNext v
      let (x1, fl) := x.seqStep n
      let done := decide (mseqLast v ≤ n)
      let hold := !done && (s.slot core k).haltReq
      let v1 := setSeq (setBits v 42 38 (n + 1)) (!done && !hold) hold
      let all := x.mu.seqFl ||| fl
      (s.setCore core { x1 with mu := { x1.mu with mseq := v1, seqRange := if done then none else x1.mu.seqRange
                                                   seqFl := if done then 0 else all } }).modSlot
        core k (fun sl => { sl with thr := sl.thr.orFlags (if done && sl.ident.isSome then all else 0) }))

/-- The range of the core's sequence leaves the scoreboard: the sequence is given up, or what it names changes. -/
def Core.dropSeqRange (x : Core) : Core :=
  { x with ranges := x.ranges.filter (fun r => some r.id != x.mu.seqRange), mu := { x.mu with seqRange := none } }

/-- Restart a sequence at step NEXT (R173, R174): its remaining steps are checked as at issue and its range is entered, unless it holds
one since it was held. A
stop is a wait, or the fault of the check. With no step left the sequence ends at once. STRIDE is added to BASE as it stands, and
the sum wraps at 0x20000 (DESIGN CHOICE, log entry 53: R173 gives the 17-bit STRIDE no sign, and says nothing of a step beyond
0x1FFFF). -/
def State.restartSeq (s : State) (core : Nat) (v : BitVec 64) : Except (Option (Cause × BitVec 64)) State :=
  let k := mseqSlot v
  let x := s.core core
  let range := if x.ranges.any (fun r => some r.id == x.mu.seqRange) then x.mu.seqRange else none
  let setM (s : State) (v : BitVec 64) (r : Option Nat) : State :=
    s.modCore core (fun x => { x with mu := { x.mu with mseq := v, seqRange := r, due := false } })
  if mseqLast v < mseqNext v then .ok ((setM s (setSeq v false false) none).modCore core (fun x => { x with mu := { x.mu with seqFl := 0 } }))
  else
    let a := BitVec.ofNat 64 (0xFC * 2 ^ 56 + mseqBase v)
    let steps0 := (List.range (mseqLast v + 1 - mseqNext v)).map (fun j =>
      let i := mseqNext v + j
      let b := BitVec.ofNat 64 (0xFC * 2 ^ 56 + rowOffset (mseqBase v) (mseqStride v) i)
      let b16 := s.tileMode core k b
      let n := if b16 then 128 else 64
      (i, b, b16, rowsFrom b (BitVec.ofNat 64 n) 16 n))
    if (s.rowsBusy core k false (steps0.flatMap (fun x => x.2.2.2))).isSome || (range.isNone && rangeCap ≤ x.ranges.length) then .error none
    else match s.checkSeq core k (alignBase a (BitVec.ofNat 64 (mseqStride v))) (mseqMacros v) x.mu.modes.2 steps0 with
      | .error e => .error (some e)
      | .ok span =>
        if range.isSome then .ok (setM s (setSeq v true false) range) else
        let (id, s1) := s.fresh
        let s2 := s1.modCore core (fun x => { x with ranges := x.ranges ++ [{ id, lo := span.1, len := span.2, write := false, holder := .matrix }] })
        .ok (setM s2 (setSeq v true false) (some id))

/-- MGEMM_RESTART (R174): a held sequence restarts once its slot has resumed after the halt, before the slot's next instruction; a
failed check ends it, and the slot takes the fault at its next boundary. The flags of a sequence that ends without its last step
reach no FPCTL (DESIGN CHOICE, log entry 53: R167 has them join it at the completion, which never comes). One whose slot was
retired while it was held runs to its end too (R341). -/
def execMgemmRestart (core : Nat) (s : State) : Host.Outcome State Fault Refusal :=
  let u := (s.core core).mu
  let k := mseqSlot u.mseq
  let sl := s.slot core k
  .next (if !u.due || !mseqHeld u.mseq || mseqActive u.mseq || (sl.status != .ready && sl.ident.isSome) || sl.haltReq || sl.halted then s
    else match s.restartSeq core u.mseq with
      | .ok s1 => s1
      | .error none => s
      | .error (some e) =>
        (s.modCore core (fun x => { x with mu := { x.mu with mseq := setSeq x.mu.mseq false false, due := false, seqFl := 0 } })).modSlot core k
          (fun sl => if sl.ident.isSome then { sl with seqFault := some e } else sl))

/-! ### Drain blocks and wakes (R176, R235, R259) -/

def Packet.isDrain (p : Packet) : Bool := match p.body with | .drainBlock .. => true | _ => false

/-- A block of a drain has been written or discarded: the unit that sent it learns so. -/
def State.drainAck (s : State) (p : Packet) (drain : Nat) (bad : Bool) : State :=
  s.modCore p.src.1 (fun x => { x with drains := x.drains.map (fun d =>
    if d.id == drain then { d with left := d.left - 1, discarded := d.discarded || bad } else d) })

/-- DRAIN_BLOCK_ARRIVAL (R176, R259): blocks from one core to one core arrive in order; the first enters the destination in
the receiver's scoreboard, once nothing held overlaps it. What a block finds at another device is open. -/
def execDrainBlockArrival (i : Nat) (s : State) : Host.Outcome State Fault Refusal :=
  .next (match s.packetAt i with
    | none => s
    | some p =>
      match p.body with
      | .drainBlock drain off total data leg at_ =>
        if (s.net.take i).any (fun q => q.isDrain && q.src.1 == p.src.1 && q.dev == p.dev && q.core == p.core) then s
        else if p.dev != s.ownDev && !s.mayArrive i p then s
        else if p.dev != s.ownDev then
          let (w, s1) := s.free
          (s1.dropPacket i).drainAck p drain (w.getLsbD 0)
        else
          let x := s.core p.core
          let mine := x.ranges.any (fun r => r.holder == .drain drain)
          if !mine && (rangeCap ≤ x.ranges.length || x.held off total true) then s
          else
            let s1 := if mine then s else
              let (id, s1) := s.fresh
              s1.modCore p.core (fun x => { x with ranges := x.ranges ++ [{ id, lo := off, len := total, write := true, holder := .drain drain }] })
            let b := s1.bank p.core (at_ / bankBytes)
            let bad := b.pers != 0 || b.spanned
            let s2 := if bad then s1 else (s1.clearPoison (.bank p.core (at_ / 64))).modCore p.core (fun x =>
              { x with mem := Mem.writeN x.mem at_ data,
                       leg := match leg with | some l => LegMap.write x.leg (at_ / 64) l | none => x.leg })
            (s2.dropPacket i).drainAck p drain bad
      | _ => s)

/-- The payload of a wake (R176). -/
def Drain.payload (d : Drain) : BitVec 256 :=
  BitVec.ofNat 256 (d.addr.toNat + 2 ^ 64 * ((if d.discarded then 3 else 0) + 16 * d.fl.toNat))

/-- DRAIN_WAKE (R176, R235): after the last block the wake is sent by the issuing slot's actor, if it is still there; the
address resolves now. It waits for a retry entry. -/
def execDrainWake (core n : Nat) (s : State) : Host.Outcome State Fault Refusal :=
  .next (match (s.core core).drains[n]? with
    | none => s
    | some d =>
      let sl := s.slot core d.slot
      let done := s.modCore core (fun x => { x with drains := ldel x.drains n })
      let size := ((s.teamOf core d.slot).map Team.size).getD 0
      if d.left != 0 then s
      else if sl.ident != d.ident || !s.addressOk size d.wake.toNat then done
      else if 16 ≤ sl.ni.length then s
      else
        let (id, s1) := done.fresh
        let e := s1.sendEntry core d.slot id d.wake d.payload d.dom 2 sl.thr.pc
        s1.modSlot core d.slot (fun x => { x with ni := insertEntry (x.returned.contains e.channel) x.ni { e with msg := { e.msg with wake := true } } }))

end Sys2Proof.Machine
end

