-- ==== Sys2Proof/Machine/Engines.lean ====
section
/-! DEFINITION. Engine jobs, collectives and the GATHER instruction (R283-R298). -/

namespace Sys2Proof.Machine

/-! ### Cards (R284, R286) -/

/-- A region descriptor's fields (R284). -/
structure RegDesc where
  isLocal : Bool
  win : Nat
  dev : Nat
  core : Nat
  base : Nat
  blocks : Nat
  deriving DecidableEq, Repr

/-- Decode a descriptor: absent, present, or with a field that must be 0. -/
def decodeRegion (d : Nat) : Option (Option RegDesc) :=
  let blocks := d % 2 ^ 12 + 1
  if bitsOf d 63 63 == 0 then if d == 0 then some none else none
  else if bitsOf d 62 62 == 0 then some (some { isLocal := false, win := 0, dev := 0, core := 0, base := bitsOf d 61 12 * 64, blocks })
  else
    let win := bitsOf d 61 60
    let dev := bitsOf d 59 52
    let core := bitsOf d 51 40
    if bitsOf d 28 12 != 0 || win == 3 || (win != 1 && dev != 0) || (win == 0 && core != 0) then none
    else some (some { isLocal := true, win, dev, core, base := bitsOf d 39 29 * 64, blocks })

/-- The first address of a region, as its window names it. -/
def RegDesc.addr (r : RegDesc) : Nat :=
  if !r.isLocal then r.base
  else match r.win with
    | 0 => 0xFC * 2 ^ 56 + r.base
    | 1 => 0xFE * 2 ^ 56 + r.dev * 2 ^ 48 + r.core * 2 ^ 36 + r.base
    | _ => 0xFD * 2 ^ 56 + r.core * 2 ^ 36 + r.base

/-- Resolve a region's window (R126); none on a violation. An own-window region is the member's as a team window's is. -/
def State.region (s : State) (c k : Nat) (r : RegDesc) : Option Region :=
  let g : Region := { isLocal := r.isLocal, base := r.base, blocks := r.blocks, addr := r.addr }
  if !r.isLocal then some g
  else match s.locate c k r.addr (64 * r.blocks) with
    | some (.loc dev core _ _) => some { g with dev, core, team := if r.win == 2 then some r.core else
        if r.win == 0 then (s.slot c k).ident.map (·.member) else none }
    | _ => none

def Region.size (r : Region) : Nat := 64 * r.blocks

/-- Whether two regions share a block (R287). -/
def Region.meets (a b : Region) : Bool :=
  a.isLocal == b.isLocal && (!a.isLocal || (a.dev == b.dev && a.core == b.core)) &&
    decide (a.base < b.base + b.size) && decide (b.base < a.base + a.size)

/-- Element size of ETYPE (R283). -/
def jobElem (etype : Nat) : Nat := match etype with | 2 => 4 | 3 => 8 | 4 => 32 | _ => 64

def sameBlocks (a b : Option RegDesc) : Bool := a.map (·.blocks) == b.map (·.blocks)

/-- The roles of R286. -/
def rolesOk (type etype : Nat) (ins outs : List (Option RegDesc)) : Bool :=
  let i (n : Nat) := lget none ins n
  let o (n : Nat) := lget none outs n
  let absent (l : List (Option RegDesc)) : Bool := l.all Option.isNone
  let size (r : Option RegDesc) : Nat := match r with | some r => 64 * r.blocks | none => 0
  let need := 16 * (size (i 0) / 64) * jobElem etype
  match type with
  | 0 => (List.range 4).all (fun n => sameBlocks (i n) (o n))
  | 1 => (i 0).isSome && (i 1).isSome && (o 0).isSome && absent (ins.drop 2) && absent (outs.drop 1) && need ≤ size (o 0)
  | 2 => (i 0).isSome && (i 1).isSome && (o 0).isSome && absent (ins.drop 2) && absent (outs.drop 1) && need ≤ size (i 1)
  | 3 => (i 0).isSome && sameBlocks (i 0) (o 0) && absent (ins.drop 1) && absent (outs.drop 1)
  | _ => absent (ins.drop 1) && absent (outs.drop 1) && !((i 0).isSome && (o 0).isSome)

def Card.reads (x : Card) : List Region := x.ins.filterMap (fun r => r)
def Card.writes (x : Card) : List Region := x.outs.filterMap (fun r => r)

/-- Whether a new card has an edge to an earlier one (R287): regions are compared as they resolved at the two JOBs. -/
def Card.after (x y : Card) : Bool :=
  x.footR.any (fun r => y.footW.any r.meets) || x.footW.any (fun r => (y.footR ++ y.footW).any r.meets)

/-! ### JOB (R283, R285) -/

/-- The read of a record of n bytes by JOB or SREC (R285): the wait for an acquire that is not yet performed (R269), for held ranges
(R260) and for stores that issued before (R265); then the address checks: own window, alignment, an ARRAY bank that is not spanned. -/
def recordSite (a : BitVec 64) (n : Nat) : M Nat := do
  let s ← getS
  let (c, _) := s.at_
  let sl ← curSlot
  let off := a.toNat % 2 ^ 17
  let own := (s.ownOffset c s.at_.2 a.toNat 1).isSome
  if sl.acquiring then stallOn .remoteReply
  else if own && (s.core c).held off n false then stallOn .range
  else if own && (s.core c).storeInto s.ownDev c off n then stallOn .storeQueue
  else if !own then raise .rights a
  else if a.toNat % n != 0 then raise .align a
  else if s.gatherBad c off then raise .bankop a
  else if s.poison.contains (.bank c (off / 64)) then raise .machinecheck a
  else pure off

/-- Number the card of a REDUCE or BROADCAST among its participant's cards of the entry (R294). -/
def takeInstance (bcast : Bool) (me : Nat × Nat) (g : GazEntry) : Nat × GazEntry :=
  let count (l : List ((Nat × Nat) × Nat)) : Nat := ((l.find? (fun x => x.1 == me)).map Prod.snd).getD 0
  let bump (l : List ((Nat × Nat) × Nat)) : List ((Nat × Nat) × Nat) := (me, count l + 1) :: l.filter (fun x => x.1 != me)
  if bcast then (count g.bcasts, { g with bcasts := bump g.bcasts }) else (count g.reduces, { g with reduces := bump g.reduces })

def cardCap : Nat := 64

/-- The scheduler of the issuing core's cluster accepts a card (R285, R287, R294): its number, its instance and its edges. -/
def State.acceptCard (s : State) (x : Card) : State :=
  let n := clusterOf x.core
  let (id, s1) := s.fresh
  let e := (s1.team x.ident.team).map (fun t => takeInstance (x.type == 4) (x.ident.member, x.ident.slot) (t.entry x.group))
  let s2 := if x.type < 3 then s1 else match e with
    | some (_, g) => s1.modTeam x.ident.team (·.modEntry x.group (fun _ => g))
    | none => s1
  let edges := ((s2.cluster n).cards.filter (fun y => y.phase != .ended && x.after y)).map (·.id)
  s2.modCluster n (fun z => { z with cards := z.cards ++ [{ x with id, inst := (e.map Prod.fst).getD 0, edges }] })

/-- What a JOB whose card has been read and checked waits for: the acknowledgement of its slot's earlier stores (R285, step 9), then
room in its scheduler. -/
def State.jobWait (s : State) (c k : Nat) : Option Wait :=
  let sl := s.slot c k
  if !sl.comb.isEmpty || !sl.sq.isEmpty || !sl.unacked.isEmpty then some .release
  else if cardCap ≤ (s.cluster (clusterOf c)).cards.length then some .accept
  else none

/-- A JOB that waits goes on: a store fault ends its wait with no effect (R285, R339); else its card is accepted once it can be. -/
def State.jobRetry (s : State) (c k : Nat) : State :=
  let sl := s.slot c k
  match sl.pend with
  | some (.job x len) =>
    if sl.haltReq || sl.halted then s
    else if sl.sfPending then s.modSlot c k (fun y => { y with pend := none, status := .ready })
    else
      let s1 := s.flushComb c k (fun _ => true)
      match s1.jobWait c k with
      | some w => s1.modSlot c k (fun y => { y with status := .stalled w })
      | none => (s1.acceptCard x).modSlot c k (·.resume len)
  | _ => s

/-- JOB of a type (R285). Its card is read and checked once; what follows is step 9, in which the slot is held with it. -/
def jobInstr (type : Nat) (o : Op) (s : State) : Host.Outcome State Fault Refusal :=
  runScalar 0xE0 o (do
    homeOnly
    let a ← rdReg o.a
    let b ← rdReg o.b
    let off ← recordSite a 64
    let s ← getS
    let (c, k) := s.at_
    let size := ((s.teamOf c k).map Team.size).getD 0
    if !s.addressOk size b.toNat then raise .rights b
    else
      let ill : BitVec 64 := packWord0 0xE0 o
      let etype := i18f o 5 3
      let group := i18f o 13 6
      let ident := ((s.slot c k).ident).getD { team := 0, member := 0, slot := 0 }
      let words := (List.range 8).map (fun i => Mem.word (s.core c).mem (off + 8 * i) 8)
      let descs := words.map decodeRegion
      let regs := descs.map (fun d => d.getD none)
      let inGroup := match s.teamOf c k with | some t => t.inGroup group ident.member ident.slot | none => false
      if descs.any Option.isNone || !rolesOk type etype (regs.take 4) (regs.drop 4) || (3 ≤ type && !inGroup) then raise .illegal ill
      else
        match (regs.filterMap (fun r => r)).find? (fun r => (s.region c k r).isNone) with
        | some r => raise .rights (BitVec.ofNat 64 r.addr)
        | none =>
          let rs := regs.map (fun r => r.bind (s.region c k))
          let outs := rs.drop 4
          let clash := rs.zipIdx.any (fun x => outs.zipIdx.any (fun y => x.2 != y.2 + 4 &&
            match x.1, y.1 with | some p, some q => p.meets q | _, _ => false))
          if clash then raise .illegal ill
          else
            let x : Card := {
              id := 0, core := c, slot := k, ident, dom := s.checkDom c k, addr := a, done := b, type, etype, group,
              ins := rs.take 4, outs, footR := (rs.take 4).filterMap (fun r => r), footW := outs.filterMap (fun r => r), ready := type < 3 }
            let s1 := s.flushComb c k (fun _ => true)
            match s1.jobWait c k with
            | some w => holdIn (s1.holdFor w (.job x (lenBytes o.len)))
            | none =>
              modS (fun _ => s1.acceptCard x)
              pure .next) s

/-- JOB_COPY (R283-R288, R292). -/
def execJobCopy (o : Op) (s : State) : Host.Outcome State Fault Refusal := jobInstr 0 o s
/-- JOB_GATHER (R283-R288, R293). -/
def execJobGather (o : Op) (s : State) : Host.Outcome State Fault Refusal := jobInstr 1 o s
/-- JOB_SCATTER (R283-R288, R293). -/
def execJobScatter (o : Op) (s : State) : Host.Outcome State Fault Refusal := jobInstr 2 o s
/-- JOB_REDUCE (R283-R288, R294, R295). -/
def execJobReduce (o : Op) (s : State) : Host.Outcome State Fault Refusal := jobInstr 3 o s
/-- JOB_BCAST (R283-R288, R296). -/
def execJobBcast (o : Op) (s : State) : Host.Outcome State Fault Refusal := jobInstr 4 o s

/-! ### Starting (R287, R294, R303) -/

/-- COLLECTIVE_INSTANCE_COMPLETE (R294): every participant of an entry has submitted its card for the next REDUCE
(bcast = 0) or BROADCAST instance. Cards of actors that have left the instance leave their schedulers. -/
def execCollectiveInstanceComplete (team entry bcast : Nat) (s : State) : Host.Outcome State Fault Refusal :=
  let bc := bcast == 1
  .next (match s.team team with
    | none => s
    | some t =>
      let g := t.entry entry
      let n := (g.complete.filter (fun x => x.1 == bc)).length
      let counts := if bc then g.bcasts else g.reduces
      let ps := t.groupSlots entry
      let has (p : Nat × Nat) : Bool := counts.any (fun x => x.1 == p && n < x.2)
      if t.st != .resident || ps.isEmpty || !ps.all has then s
      else
        let mine (x : Card) : Bool := x.ident.team == team && x.group == entry && x.type == (if bc then 4 else 3) && x.inst == n
        let s1 := s.modTeam team (·.modEntry entry (fun g => { g with complete := g.complete ++ [(bc, n)] }))
        let settle (l : List Card) : List Card :=
          (l.filter (fun x => !mine x || ps.contains (x.ident.member, x.ident.slot))).map
            (fun x => if mine x then { x with ready := true } else x)
        { s1 with clusters := s1.clusters.map (fun z => (z.1, { z.2 with cards := settle z.2.cards })) })

/-- A region of a member's window as it resolves now (R222). -/
def Region.again (t : Team) (r : Region) : Region :=
  match r.team with
  | some m => match t.coreOfMember m with | some c => { r with core := c } | none => r
  | none => r

/-- The local ranges that a card enters in this device's scoreboards: the core, offset, length and sense. -/
def Card.ranges (x : Card) (own : Nat) : List (Nat × Nat × Nat × Bool) :=
  let f (w : Bool) (r : Region) : Option (Nat × Nat × Nat × Bool) :=
    if r.isLocal && r.dev == own then some (r.core, r.base, r.size, w) else none
  x.reads.filterMap (f false) ++ x.writes.filterMap (f true)

/-- Whether a card's ranges can all be entered now (R259, R260): there is room, its reads meet no held write range, and its
writes no held range. -/
def State.rangesFree (s : State) (rs : List (Nat × Nat × Nat × Bool)) : Bool :=
  rs.all (fun r => !(s.core r.1).held r.2.1 r.2.2.1 r.2.2.2 &&
    (s.core r.1).ranges.length + (rs.filter (fun q => q.1 == r.1)).length ≤ rangeCap)

/-- JOB_START (R287): card n of a cluster starts once its edges are gone, its instance is complete, its team is resident and
its ranges are entered (R303). -/
def execJobStart (cluster n : Nat) (s : State) : Host.Outcome State Fault Refusal :=
  .next (match (s.cluster cluster).cards[n]? with
    | none => s
    | some x0 =>
      match s.team x0.ident.team with
      | none => s
      | some t =>
        let again (l : List (Option Region)) : List (Option Region) := l.map (fun r => r.map (·.again t))
        let x := { x0 with ins := again x0.ins, outs := again x0.outs, core := (t.coreOfMember x0.ident.member).getD x0.core }
        let pending := s.clusters.any (fun z => z.2.cards.any (fun y => x.edges.contains y.id && y.phase != .ended))
        let rs := x.ranges s.ownDev
        if x.phase != .queued || !x.ready || pending || t.st != .resident || !s.rangesFree rs then s
        else
          let s1 := rs.foldl (fun s r =>
            let (id, s1) := s.fresh
            s1.modCore r.1 (fun y => { y with ranges := y.ranges ++
              [{ id, lo := r.2.1, len := r.2.2.1, write := r.2.2.2, holder := .job cluster x.id }] })) s
          (s1.modCluster cluster (fun z => { z with cards := lput z.cards n { x with phase := .started } })).traceCluster cluster 0x01
            (BitVec.ofNat 48 x.core) x.addr)

/-! ### Units (R291-R293) -/

/-- What performing a unit of a job does: the state, what it skips, its flags, the table element that a SCATTER writes; `wait` when
the unit is held and the job goes on later. -/
structure JobRun where
  s : State
  skips : List Skip := []
  flags : Flags := 0
  moved : List (Nat × Nat) := []
  wait : Option Denied := none

/-- The STATUS of a unit that fails (R291). A read from a lost device, for which R289 lists no STATUS, counts as PAGE (DESIGN CHOICE,
log entry 40). -/
def statusOf : Denied → Nat | .rights => 1 | _ => 2

/-- Why a unit is not performed: it fails with a STATUS, or it is held. -/
inductive UnitStop where
  | skip (status : Nat)
  | wait (d : Denied)
  deriving DecidableEq, Repr

def Denied.stop (d : Denied) : UnitStop := if d.fails then .skip (statusOf d) else .wait d

/-- Where an error in the data of a region's byte is noted. -/
def Region.poisonKey (r : Region) (bo : Nat) : Poison :=
  if r.isLocal then .bank r.core ((r.base + bo) / 64) else .line (line64 (r.base + bo))

/-- Whether the links between a card's core and a region in a core of this device carry traffic (R382). -/
def State.regionJoined (s : State) (x : Card) (r : Region) : Bool := s.stacksJoined (coreStack x.core) (coreStack r.core)

/-- Read n bytes of a region, and the legend of their block. -/
def State.jobRead (s : State) (x : Card) (r : Region) (bo n : Nat) : Except UnitStop (List Byte × Legend × State) :=
  let a := r.base + bo
  if r.isLocal then
    if s.isLost r.dev then .error Denied.lost.stop
    else if r.dev != s.ownDev then
      let (bs, s1) := s.freeBytes n
      let (w, s2) := s1.free
      .ok (bs, w.setWidth 16, s2)
    else if !s.regionJoined x r then .error (.wait (.moving none))
    else if s.gatherBad r.core a then .error (.skip 5)
    else .ok (Mem.readN (s.core r.core).mem a n, LegMap.read (s.core r.core).leg (a / 64), s)
  else if n == 64 then
    match s.dirBlock x.dom a (some x.core) with
    | .ok x => .ok x
    | .error (d, _) => .error d.stop
  else
    match s.dirRead x.dom a n (some x.core) with
    | .ok (bs, s1) => .ok (bs, 0, s1)
    | .error (d, _) => .error d.stop

/-- Write bytes of a region, with the block's legend where one is given. -/
def State.jobWrite (s : State) (x : Card) (r : Region) (bo : Nat) (bs : List Byte) (l : Option Legend) : Except UnitStop State :=
  let a := r.base + bo
  if r.isLocal then
    if r.dev != s.ownDev then .ok (if s.isLost r.dev then s.listLost r.dev else s)
    else if !s.regionJoined x r then .error (.wait (.moving none))
    else if s.gatherBad r.core a then .error (.skip 5)
    else .ok (s.modCore r.core (fun x => { x with
      mem := Mem.writeN x.mem a bs, leg := match l with | some v => LegMap.write x.leg (a / 64) v | none => x.leg }))
  else match l with
    | some v =>
      match s.dirSetBlock x.dom a bs (some v) (some x.core) with
      | .ok s1 => .ok s1
      | .error (d, _) => .error d.stop
    | none =>
      match s.dirWrite x.dom 4 a bs (some x.core) with
      | .ok s1 => .ok s1
      | .error (d, _, _) => .error d.stop

/-- Note what stops a unit. -/
def JobRun.skip (j : JobRun) (region unit : Nat) (stop : UnitStop) (addr : Nat) (key : Nat × Nat) : JobRun :=
  match stop with
  | .wait d => { j with wait := some d }
  | .skip status => { j with skips := j.skips ++ [{ region, unit, status, addr, key }] }

/-- Move one unit: n bytes at bo of region i to do_ of region o, with the legend where a whole block moves. -/
def JobRun.move (j : JobRun) (x : Card) (i bo o do_ n unit : Nat) : JobRun :=
  if j.wait.isSome then j
  else
    let src := (lget none x.ins i).getD { isLocal := false, base := 0, blocks := 0 }
    let dst := (lget none x.outs o).getD { isLocal := false, base := 0, blocks := 0 }
    match j.s.jobRead x src bo n with
    | .error st => j.skip i unit st (src.addr + bo) (i, unit)
    | .ok (bs, l, s1) =>
      match s1.jobWrite x dst do_ bs (if n == 64 then some l else none) with
      | .error st => j.skip (4 + o) unit st (dst.addr + do_) (i, unit)
      | .ok s2 => { j with s := s2.carryPoison (src.poisonKey bo) (dst.poisonKey do_) (n == 64) }

/-- Block k of IN i of a COPY (R292). -/
def JobRun.copy (j : JobRun) (x : Card) (i k : Nat) : JobRun := j.move x i (64 * k) i (64 * k) 64 k

/-- Element k of a SCATTER, to element ix of the table: where a higher k has written it, what that wrote remains (R293). -/
def JobRun.scatter (j : JobRun) (x : Card) (ix k : Nat) : JobRun :=
  let z := jobElem x.etype
  if x.moved.any (fun m => m.1 == ix && k < m.2) then
    let src := (lget none x.ins 1).getD { isLocal := false, base := 0, blocks := 0 }
    match j.s.jobRead x src (k * z) z with
    | .error st => j.skip 1 k st (src.addr + k * z) (1, k)
    | .ok (_, _, s1) => { j with s := s1 }
  else
    let j1 := j.move x 1 (k * z) 0 (ix * z) z k
    if j1.wait.isSome || !j1.skips.isEmpty then j1 else { j1 with moved := [(ix, k)] }

/-- Unit k of a GATHER or SCATTER (R293). -/
def JobRun.indexed (j : JobRun) (x : Card) (scatter : Bool) (k : Nat) : JobRun :=
  let z := jobElem x.etype
  match lget none x.ins 0, (if scatter then lget none x.outs 0 else lget none x.ins 1) with
  | some list, some table =>
    match j.s.jobRead x list (4 * k) 4 with
    | .error st => j.skip 0 k st (list.addr + 4 * k) (1, k)
    | .ok (bs, _, s1) =>
      let ix := bytesToNat bs
      let j1 := { j with s := s1 }
      if table.size < (ix + 1) * z then j1.skip (if scatter then 4 else 1) k (.skip 3) ((table.addr + ix * z) % 2 ^ 64) (1, k)
      else if scatter then j1.scatter x ix k
      else j1.move x 1 (ix * z) 0 (k * z) z k
  | _, _ => j

/-! ### Collectives (R294-R296) -/

/-- One level of R295's tree. -/
def treeLevel : List Nat → List Nat × Flags
  | a :: b :: r =>
    let (x, f) := fpAdd f32 0 a b
    let (xs, g) := treeLevel r
    (x :: xs, f ||| g)
  | l => (l, 0)

/-- R295's tree, with as many levels as `fuel`. -/
def treeSum : Nat → List Nat → Flags → Nat × Flags
  | 0, l, f => (l.headD 0, f)
  | n + 1, l, f =>
    if l.length ≤ 1 then (l.headD 0, f)
    else let (l1, g) := treeLevel l; treeSum n l1 (f ||| g)

/-- REDUCE's element q over the participants' cards. -/
def JobRun.reduceAt (j : JobRun) (xs : List Card) (q : Nat) : JobRun :=
  if j.wait.isSome then j
  else
    let r := xs.foldl (fun (acc : JobRun × List Nat × Bool) x =>
      if acc.2.2 || acc.1.wait.isSome then acc
      else
        let src := (lget none x.ins 0).getD { isLocal := false, base := 0, blocks := 0 }
        match acc.1.s.jobRead x src (4 * q) 4 with
        | .error st => (acc.1.skip 0 q st (src.addr + 4 * q) (0, q), acc.2.1, true)
        | .ok (bs, _, s1) => ({ acc.1 with s := s1 }, acc.2.1 ++ [bytesToNat bs], false)) (j, [], false)
    if r.2.2 || r.1.wait.isSome then r.1
    else
      let (v, fl) := treeSum 20 r.2.1 0
      let srcs := xs.filterMap (fun x => (lget none x.ins 0).map (·.poisonKey (4 * q)))
      xs.foldl (fun j x =>
        if j.wait.isSome then j
        else
          let dst := (lget none x.outs 0).getD { isLocal := false, base := 0, blocks := 0 }
          match j.s.jobWrite x dst (4 * q) (natToBytes 4 v) none with
          | .error st => j.skip 4 q st (dst.addr + 4 * q) (0, q)
          | .ok s1 => { j with s := srcs.foldl (fun s p => s.carryPoison p (dst.poisonKey (4 * q)) false) s1 }) { r.1 with flags := r.1.flags ||| fl }

/-- BROADCAST's block k from the root's card to the receivers'. -/
def JobRun.bcastAt (j : JobRun) (root : Card) (xs : List Card) (k : Nat) : JobRun :=
  if j.wait.isSome then j
  else
    let src := (lget none root.ins 0).getD { isLocal := false, base := 0, blocks := 0 }
    match j.s.jobRead root src (64 * k) 64 with
    | .error st => j.skip 0 k st (src.addr + 64 * k) (0, k)
    | .ok (bs, l, s1) =>
      xs.foldl (fun j x => match lget none x.outs 0 with
        | none => j
        | some dst =>
          if j.wait.isSome then j
          else match j.s.jobWrite x dst (64 * k) bs (some l) with
            | .error st => j.skip 4 k st (dst.addr + 64 * k) (0, k)
            | .ok s2 => { j with s := s2.carryPoison (src.poisonKey (64 * k)) (dst.poisonKey (64 * k)) true }) { j with s := s1 }

/-- The cards of a BROADCAST instance whose IN0 is present: its roots. -/
def rootsOf (xs : List Card) : List Card := xs.filter (fun x => (lget none x.ins 0).isSome)

/-- The units of an instance over its cards in participant order, by their numbers; none for MISMATCH (R294, R296). -/
def instanceUnits (bcast : Bool) (xs : List Card) : Option (List (Nat × Nat)) :=
  let size (r : Option Region) : Nat := match r with | some r => r.blocks | none => 0
  let number (n : Nat) : List (Nat × Nat) := (List.range n).map (fun k => (0, k))
  if bcast then
    match rootsOf xs with
    | [root] =>
      let n := size (lget none root.ins 0)
      if xs.any (fun x => (lget none x.outs 0).isSome && size (lget none x.outs 0) != n) then none else some (number n)
    | _ => none
  else
    let n := size (lget none ((xs.head?).map (·.ins) |>.getD []) 0)
    if xs.any (fun x => size (lget none x.ins 0) != n) then none else some (number (16 * n))

/-- The units of a job of one card: the blocks of a COPY, the indices of a GATHER or SCATTER. -/
def Card.units (x : Card) : List (Nat × Nat) :=
  let blocks (i : Nat) : Nat := ((lget none x.ins i).map (·.blocks)).getD 0
  if x.type == 0 then (List.range 4).flatMap (fun i => (List.range (blocks i)).map (fun k => (i, k)))
  else (List.range (16 * blocks 0)).map (fun k => (0, k))

/-- Perform one unit of a job of one card, or of an instance over its cards. -/
def JobRun.unit (j : JobRun) (x : Card) (xs : List Card) (u : Nat × Nat) : JobRun :=
  match x.type with
  | 0 => j.copy x u.1 u.2
  | 1 => j.indexed x false u.2
  | 2 => j.indexed x true u.2
  | 3 => j.reduceAt xs u.2
  | _ => match rootsOf xs with | root :: _ => j.bcastAt root xs u.2 | [] => j

/-! ### Ending (R289, R290) -/

/-- The first failure, in region order and then in unit order. -/
def firstSkip : List Skip → Option Skip
  | [] => none
  | x :: xs => match firstSkip xs with
    | none => some x
    | some y => if y.region < x.region || (y.region == x.region && y.unit < x.unit) then some y else some x

/-- A card whose job has performed one more unit. -/
def Card.afterUnit (x : Card) (units : List (Nat × Nat)) (j : JobRun) : Card :=
  { x with left := some units, fails := x.fails ++ j.skips, moved := j.moved ++ x.moved, flags := x.flags ||| j.flags }

/-- A card with the outcome of its run. -/
def Card.outcome (x : Card) (mismatch : Bool) : Card :=
  match (if mismatch then none else firstSkip x.fails) with
  | none => { x with status := if mismatch then 4 else 0, phase := .performed }
  | some f => { x with status := f.status, region := f.region, skipped := (x.fails.map (·.key)).eraseDups.length,
                       failAddr := BitVec.ofNat 64 f.addr, phase := .performed }

/-- The payload of a completion (R289). -/
def Card.payload (x : Card) : BitVec 256 :=
  BitVec.ofNat 256 (x.addr.toNat + 2 ^ 64 * (x.status + 16 * x.flags.toNat + 2 ^ 11 * x.region) + 2 ^ 96 * min x.skipped 0xFFFFFFFF +
    2 ^ 128 * x.failAddr.toNat)

/-- A completion that a scheduler sends for the actor of a slot (R290). -/
def State.completion (s : State) (unit card : Nat) (ident : Ident) (core slot dom : Nat) (done : BitVec 64) (payload : BitVec 256) :
    State :=
  let (id, s1) := s.fresh
  let e : NiEntry := {
    id, addr := done, dc := s1.keyOf (some ident.team) done.toNat, sys := adrSys done.toNat
    team := some ident.team
    msg := { source := s1.physActor core slot, dest := done.setWidth 28, payload, dom, tr := some (ident.team, trActor ident.member slot) }
    st := .release, card := some card, owner := some (core, slot) }
  s1.modNi unit (fun l => l ++ [e])

/-- Replace the cards of all clusters. -/
def State.mapCards (s : State) (f : Card → Card) : State :=
  { s with clusters := s.clusters.map (fun z => (z.1, { z.2 with cards := z.2.cards.map f })) }

/-- A card whose work is done ends: its completion is sent. -/
def State.endCard (s : State) (cluster n : Nat) (x : Card) : State :=
  ((s.modCluster cluster (fun z => { z with cards := lput z.cards n { x with phase := .ended } })).completion (unitCluster cluster) x.id
    x.ident x.core x.slot x.dom x.done x.payload).traceCluster cluster 0x02 (BitVec.ofNat 48 x.status) x.addr

/-- Whether two cards belong to one instance. -/
def Card.sameInstance (x y : Card) : Bool :=
  x.type == y.type && x.ident.team == y.ident.team && x.group == y.group && x.inst == y.inst && y.ready

/-- Put a card into a list that rises by (member, slot). -/
def insertCard (x : Card) : List Card → List Card
  | [] => [x]
  | y :: r => if 4 * y.ident.member + y.ident.slot < 4 * x.ident.member + x.ident.slot then y :: insertCard x r else x :: y :: r

/-- Perform one of the units that a job has left, which one is open (R287), for each card that `mine` picks; one that is held, by a
guard, a MOVING page, a link or a budget, waits. -/
def State.jobUnit (s : State) (x : Card) (xs : List Card) (units : List (Nat × Nat)) (mine : Card → Bool) : State :=
  let (w, s1) := s.free
  let n := w.toNat % units.length
  let j := ({ s := s1 } : JobRun).unit x xs (lget (0, 0) units n)
  match j.wait with
  | some d => s1.park d
  | none => j.s.mapCards (fun y => if mine y then y.afterUnit (ldel units n) j else y)

/-- JOB_END (R288-R296): a started card's units are performed, one at a time in an order that is open, and with none left it ends. The
units of a collective are those of all its cards, once every one has started; each then ends on its own. -/
def execJobEnd (cluster n : Nat) (s : State) : Host.Outcome State Fault Refusal :=
  .next (match (s.cluster cluster).cards[n]? with
    | none => s
    | some x =>
      if x.phase == .performed then s.endCard cluster n x
      else if x.phase != .started then s
      else if x.type < 3 then
        match x.left.getD x.units with
        | [] => s.endCard cluster n (x.outcome false)
        | units => s.jobUnit x [x] units (·.id == x.id)
      else
        let xs := (s.clusters.flatMap (fun z => z.2.cards.filter x.sameInstance)).foldl (fun l y => insertCard y l) []
        if !xs.all (fun y => y.phase == .started) then s
        else
          match instanceUnits (x.type == 4) xs with
          | none => (s.mapCards (fun y => if x.sameInstance y then y.outcome true else y)).endCard cluster n (x.outcome true)
          | some all => match x.left.getD all with
            | [] => (s.mapCards (fun y => if x.sameInstance y then y.outcome false else y)).endCard cluster n (x.outcome false)
            | units => s.jobUnit x xs units x.sameInstance)

/-! ### GATHER (R297, R298) -/

/-- The checks of a GATHER lane at issue: its target and kind, ordered as a plain load. -/
def gatherLane (z : Nat) (t : BitVec 64) : M (Target × Kind) := do
  let s ← getS
  let (c, k) := s.at_
  if t.toNat % z != 0 then raise .align t
  else match s.locate c k t.toNat z with
    | none => raise .rights t
    | some (.glob a n) => do
      let e ← plbEntry a t
      requireRight (e.r && s.deviceOk (e.home a).1) t
      let tgt : Target := { dev := (e.home a).1, core := (e.home a).2, isLocal := false }
      loadOrder e.kind tgt [.glob a n]
      pure (tgt, e.kind)
    | some (.loc d core o n) => do
      if d == s.ownDev && core == c && s.gatherBad c o then raise .bankop t else pure ()
      let kind := if d == s.ownDev then s.localKind core o else .so
      let tgt : Target := { dev := d, core, isLocal := true }
      loadOrder kind tgt [.loc d core o n]
      pure (tgt, kind)

/-- The request of a lane whose target is not the issuing core: it keeps the order of the core's accesses to its target (R249). -/
def State.lanePacket (s : State) (c k id z : Nat) (l : Nat × BitVec 64 × Target × Kind) : Option Packet :=
  let (off, t, tgt, kd) := l
  if tgt.dev == s.ownDev && tgt.core == c then none
  else some { src := (c, k), unit := 0, dev := tgt.dev, core := tgt.core, isLocal := tgt.isLocal, dom := s.domainOf c k, cls := 1
              body := .lane id off (if tgt.isLocal then t.toNat % 0x20000 else t.toNat) z (kd == .uo) }

/-- GATHER (R297). -/
def execGather (o : Op) (s : State) : Host.Outcome State Fault Refusal :=
  runLanes 0xE1 o (do
    homeOnly
    let mask ← laneMaskM o 8
    let a ← rdReg o.a
    let ix ← rdV (regNum o.b)
    let dst ← rdReg o.c
    let z := match o.m.toNat % 4 with | 0 => 4 | 1 => 8 | 2 => 32 | _ => 64
    let s ← getS
    let (c, k) := s.at_
    waitRows true [(dst, 8 * z)]
    let offs ← liftE (s.checkRows c k [(dst, 8 * z)] (if dst.toNat % z != 0 then some dst else none))
    let off := offs.headD 0
    let addr (i : Nat) : BitVec 64 := a + byteOffset o + BitVec.ofNat 64 (lget 0 (lanes 32 ix 8) i * z)
    let live := (List.range 8).filter (fun i => lget false mask i)
    let ls ← live.foldlM (fun acc i => do
      let (t, kd) ← gatherLane z (addr i)
      pure (acc ++ [(off + i * z, addr i, t, kd)])) []
    let x ← curCore
    if x.held off (8 * z) true || rangeCap ≤ x.ranges.length then stallOn .range
    else
      let s ← getS
      let (id, s1) := s.fresh
      let (rid, s2) := s1.fresh
      let s3 := s2.modCore c (fun x => { x with
        ranges := x.ranges ++ [{ id := rid, lo := off, len := 8 * z, write := true, holder := .gather id }]
        gathers := if ls.isEmpty then x.gathers else x.gathers ++ [{ id, slot := k, z, lanes := ls, dom := s.checkDom c k }] })
      modS (fun _ => { s3 with net := s3.net ++ ls.filterMap (s3.lanePacket c k id z) })
      pure .next) s

/-- Count a failed lane in GSTAT and GFIRST (R298). -/
def SlotRegs.gatherFail (r : SlotRegs) (t : BitVec 64) : SlotRegs :=
  { r with gstat := if r.gstat == BitVec.allOnes 32 then r.gstat else r.gstat + 1,
           gfirst := if r.gstat == 0 then t else r.gfirst }

/-- Where the context of an actor's slot is now: its own slot, or the guest slot its firing runs in; none on the way. -/
def State.contextOf (s : State) (c k : Nat) : Option (Nat × Nat) :=
  match (s.slot c k).awayAt with
  | none => some (c, k)
  | some g => if (s.slot g.1 g.2).guest == some (c, k) then some g else none

/-- What a lane finds: its bytes and legend; a failure (R298); no value, from a lost device or data with an error (R385, R332); or
something that holds it. -/
inductive LaneRead where
  | value (bs : List Byte) (leg : Legend) (s : State)
  | failed
  | none_
  | held (d : Denied)

/-- Read a lane of GATHER `id` of core c. -/
def State.gatherRead (s : State) (c id z : Nat) (t : BitVec 64) (g : Target) (off : Nat) : LaneRead :=
  if s.isLost g.dev then .none_
  else if g.dev != s.ownDev then
    let (bs, s1) := s.freeBytes z
    let (w, s2) := s1.free
    .value bs (w.setWidth 16) s2
  else if !s.stacksJoined (coreStack c) (coreStack g.core) then .held (.moving none)
  else if g.isLocal then
    if s.gatherBad g.core off then .failed
    else if (s.core g.core).ranges.any (fun r => r.write && r.holder != .gather id && r.overlaps off z) then .held .guard
    else if s.poison.contains (.bank g.core (off / 64)) then .none_
    else .value (Mem.readN (s.core g.core).mem off z) (LegMap.read (s.core g.core).leg (off / 64)) s
  else
    let a := t.toNat
    if s.guardedN a z false then .held .guard
    else match s.fetchLine g.core a with
      | .error d => if d.fails then .failed else .held d
      | .ok s1 =>
        if s1.poison.contains (.line (line64 a)) then .none_
        else
          let (bs, s2) := s1.readHome g.core a z
          let (l, s3) := s2.legHome g.core a
          .value bs l s3

/-- A whole block of a core's local memory has been replaced. -/
def State.clearWhole (s : State) (core off z : Nat) : State := if z == 64 then s.clearPoison (.bank core (off / 64)) else s

/-- Whether a packet is the request of a lane. -/
def Packet.isLane (p : Packet) (id off : Nat) : Bool := match p.body with | .lane g o _ _ _ => g == id && o == off | _ => false

/-- Whether the request of a lane, if it has one, has reached its target before which no earlier one of its core remains (R249). -/
def State.laneArrived (s : State) (id off : Nat) : Bool :=
  match s.net.findIdx? (·.isLane id off) with
  | none => true
  | some i => (s.net[i]?).any (fun p => s.mayArrive i p)

/-- A lane leaves its GATHER, and its request the network. -/
def State.laneDone (s : State) (core : Nat) (g : Gather) (off : Nat) : State :=
  let lanes := g.lanes.filter (fun x => x.1 != off)
  let s1 : State := { s with net := s.net.filter (fun p => !p.isLane g.id off) }
  s1.modCore core (fun x => { x with
    gathers := (x.gathers.map (fun y => if y.id == g.id then { y with lanes } else y)).filter (fun y => !y.lanes.isEmpty) })

/-- The earlier lanes of a GATHER that go before one of a kind with a target (R266, R272, R297): SO lanes keep their order, RC lanes
of one target, and every lane of the core's own banks. Lanes whose target is another core keep the network's order. -/
def Gather.lanesFirst (g : Gather) (off : Nat) (tgt : Target) (kd : Kind) (own : Bool) : List (Nat × BitVec 64 × Target × Kind) :=
  (g.lanes.takeWhile (fun x => x.1 != off)).filter (fun x =>
    (kd == .so && x.2.2.2 == .so) || (own && x.2.2.1 == tgt && (tgt.isLocal || (kd == .rc && x.2.2.2 == .rc))))

/-- GATHER_LANE_REPLY (R297, R298): lane n of those outstanding on a core is performed, its element written at its position;
a failed lane writes zeros and is counted. What becomes of the legend of a whole block whose
lane fails is not stated: it stays (DESIGN CHOICE, log entry 46). A lane without a value writes nothing, and its block holds an
error. -/
def execGatherLaneReply (core n : Nat) (s : State) : Host.Outcome State Fault Refusal :=
  let all := (s.core core).gathers.flatMap (fun g => g.lanes.map (fun l => (g, l)))
  .next (match all[n]? with
    | none => s
    | some (g, l) =>
      let (off, t, tgt, kd) := l
      if !(g.lanesFirst off tgt kd (tgt.dev == s.ownDev && tgt.core == core)).isEmpty || !s.laneArrived g.id off then s
      else match s.contextOf core g.slot with
        | none => s
        | some h =>
          match s.gatherRead core g.id g.z t tgt (t.toNat % 0x20000) with
          | .held d => s.park d
          | .value bs leg s1 => ((s1.laneDone core g off).modCore core (fun x => { x with
              mem := Mem.writeN x.mem off bs, leg := if g.z == 64 then LegMap.write x.leg (off / 64) leg else x.leg })).clearWhole core off g.z
          | .failed => (((s.laneDone core g off).modCore core (fun x => { x with mem := Mem.writeN x.mem off (List.replicate g.z 0) })).clearWhole
              core off g.z).modSlot h.1 h.2 (fun x => { x with regs := x.regs.gatherFail t })
          | .none_ => (s.laneDone core g off).markPoison (.bank core (off / 64)))

end Sys2Proof.Machine
end

