-- ==== Sys2Proof/Machine/Streams.lean ====
section
/-! DEFINITION. Stream records and the local queues they feed (R299-R303). -/

namespace Sys2Proof.Machine

def Core.stream (x : Core) (k : Nat) : Stream := vget {} x.streams k
def Core.setStream (x : Core) (k : Nat) (r : Stream) : Core := { x with streams := vput x.streams k r }
def Core.modStream (x : Core) (k : Nat) (f : Stream → Stream) : Core := x.setStream k (f (x.stream k))

/-- STREC.k as a word (R302). -/
def Stream.strec (r : Stream) : BitVec 64 :=
  BitVec.ofNat 64 (r.active.toNat * 2 ^ 63 + r.err.toNat * 2 ^ 62 + r.owner.toNat * 2 ^ 60 + r.errc.toNat * 2 ^ 57 + r.next.toNat)

/-- The record that a 32-byte descriptor gives (R299); none where a field has a reserved value. -/
def streamOf (w0 w1 w2 w3 : Nat) : Option Stream :=
  let esize := bitsOf w2 39 32
  let qsel := bitsOf w2 47 40
  let isel := bitsOf w2 55 48
  if 6 ≤ esize || 16 ≤ qsel || 8 ≤ isel || bitsOf w2 63 56 != 0 || w3 != 0 then none
  else some {
    base := BitVec.ofNat 64 w0, stride := BitVec.ofNat 64 w1, count := BitVec.ofNat 32 w2, esize := BitVec.ofNat 3 esize
    qsel := BitVec.ofNat 3 qsel, noq := 8 ≤ qsel, isrc := BitVec.ofNat 2 isel, iv := 4 ≤ isel }

def streamNum (o : Op) : Nat := o.m.toNat % 4
/-- QERR of a queue is cleared, and with it the fault that a pop of the empty queue would raise (R301). -/
def clearQerr (x : Core) (q : Nat) : Core :=
  { x with qerr := x.qerr &&& ~~~((1 : BitVec 8) <<< q), qfault := x.qfault.filter (fun e => e.1 != q) }

/-- SREC (R300): the descriptor is copied into record k, whose other fields stay but for ERR. -/
def execSrec (o : Op) (s : State) : Host.Outcome State Fault Refusal :=
  runScalar 0xE2 o (do
    homeOnly
    let a ← rdReg o.a
    let off ← recordSite (a + byteOffset o) 32
    let x ← curCore
    let k := streamNum o
    let r := x.stream k
    let w (i : Nat) : Nat := Mem.word x.mem (off + 8 * i) 8
    match streamOf (w 0) (w 1) (w 2) (w 3) with
    | none => raise .illegal (packWord0 0xE2 o)
    | some n =>
      if r.active then raise .illegal (packWord0 0xE2 o)
      else
        modCurCore (fun x => clearQerr (x.setStream k { n with owner := r.owner, errc := r.errc, next := r.next, strerr := r.strerr })
          n.qsel.toNat)
        pure .next) s

/-- Elements that a record produces at most: its own COUNT, and what its index record produces (R301), which may be indexed itself;
a core has four records. -/
def Core.streamCount (x : Core) : Nat → Stream → Nat
  | 0, r => r.count.toNat
  | n + 1, r => if r.iv then min r.count.toNat (x.streamCount n (x.stream r.isrc.toNat)) else r.count.toNat

def Core.streamEnd (x : Core) (r : Stream) : Nat := x.streamCount 4 r

/-- End record k, and its index record with it (R301). -/
def Core.stopStream (x : Core) (k : Nat) : Core :=
  let r := x.stream k
  let x1 := x.modStream k (fun r => { r with active := false })
  if r.iv then x1.modStream r.isrc.toNat (fun r => { r with active := false }) else x1

/-- End record k once NEXT has reached its end. -/
def Core.settleStream (x : Core) (k : Nat) : Core :=
  if x.streamEnd (x.stream k) ≤ (x.stream k).next.toNat then x.stopStream k else x

/-- SSTART (R300): a release, then the record and its index record are ACTIVE from element 0. -/
def execSstart (o : Op) (s : State) : Host.Outcome State Fault Refusal :=
  runScalar 0xE3 o (do
    homeOnly
    let x ← curCore
    let k := streamNum o
    let r := x.stream k
    let i := x.stream r.isrc.toNat
    let bad := r.active || r.noq || (r.iv && (i.active || r.isrc.toNat == k || !i.noq || 4 ≤ i.esize.toNat))
    if bad then raise .illegal (packWord0 0xE3 o)
    else
      releaseAll
      let s ← getS
      let own : BitVec 2 := BitVec.ofNat 2 s.at_.2
      let start (r : Stream) : Stream := { r with active := true, owner := own, next := 0 }
      modCurCore (fun x =>
        let x1 := x.modStream k start
        (if r.iv then x1.modStream r.isrc.toNat start else x1).settleStream k)
      pure .next) s

/-- SSTOP (R300). A record that takes its indices from record k ends too: what record k had read is discarded, so that no index is left
to supply (R301). -/
def execSstop (o : Op) (s : State) : Host.Outcome State Fault Refusal :=
  runScalar 0xE4 o (do
    homeOnly
    let k := streamNum o
    modCurCore (fun x =>
      (List.range 4).foldl (fun y j =>
        let r := y.stream j
        if r.active && r.iv && r.isrc.toNat == k then y.stopStream j else y) (x.stopStream k))
    pure .next) s

/-- The word of QCNT. -/
def Core.qcnt (x : Core) (q : Nat) : BitVec 64 :=
  let fed := x.streams.toList.any (fun r => r.active && !r.noq && r.qsel.toNat == q)
  BitVec.ofNat 64 ((x.queue q).length + fed.toNat * 2 ^ 8 + (x.qerr.getLsbD q).toNat * 2 ^ 9)

/-- QCNT (R300). -/
def execQcnt (o : Op) (s : State) : Host.Outcome State Fault Refusal :=
  runScalar 0xE5 o (do
    homeOnly
    let x ← curCore
    wrX (regNum o.d) (x.qcnt (i18f o 2 0))
    pure .next) s

/-- QFLUSH (R300): the marks of loads with errors leave with the entries; no instruction consumes their data. -/
def execQflush (o : Op) (s : State) : Host.Outcome State Fault Refusal :=
  runScalar 0xE6 o (do
    homeOnly
    let x ← curCore
    let q := i18f o 2 0
    wrX (regNum o.d) (BitVec.ofNat 64 (x.queue q).length)
    modCurCore (fun x => clearQerr { x.setQueue q [] with qbad := x.qbad.filter (fun y => y.1 != q) } q)
    pure .next) s

/-! ### Feeding (R301) -/

/-- What reading one element finds: its value; no value, from a lost device or data with an error (R332, R385); a failure of a record
(ERRC and address); or something that holds it. -/
inductive Elem where
  | value (v : Nat)
  | bad (a : BitVec 64)
  | fail (k errc : Nat) (a : BitVec 64)
  | wait (d : Denied)
  deriving DecidableEq, Repr

/-- Read an element of record e of core c for slot k, with its team's rights whatever the mode of the slot, in class 1. -/
def State.streamRead (s : State) (c k e : Nat) (a : BitVec 64) (n : Nat) : Elem × State :=
  if a.toNat % n != 0 then (.fail e 4 a, s)
  else match (s.modSlot c k (fun x => { x with km := false })).locate c k a.toNat n with
    | none => (.fail e 1 a, s)
    | some (.loc d core off _) =>
      if s.isLost d then (.bad a, s)
      else if d != s.ownDev then let (bs, s1) := s.freeBytes n; (.value (bytesToNat bs), s1)
      else if !s.stacksJoined (coreStack c) (coreStack core) then (.wait (.moving none), s)
      else if s.gatherBad core off then (.fail e 3 a, s)
      else if s.localHeld core off n false then (.wait .guard, s)
      else if s.poison.contains (.bank core (off / 64)) then (.bad a, s)
      else (.value (Mem.word (s.core core).mem off n), s)
    | some (.glob b _) =>
      match s.dirRead (s.domainOf c k) b n (some c) with
      | .ok (bs, s1) => (if s1.poison.contains (.line (line64 b)) then .bad a else .value (bytesToNat bs), s1)
      | .error (.rights, _) => (.fail e 1 a, s)
      | .error (.page, _) => (.fail e 2 a, s)
      | .error (.lost, _) => (.bad a, s)
      | .error (d, _) => (.wait d, s)

/-- Element i of a record, where i is its position, or the value of its index. -/
def Stream.elemAddr (r : Stream) (i : Nat) : BitVec 64 := r.base + BitVec.ofNat 64 i * r.stride

/-- Element i of record e (R299): an indexed record takes idx_i from element i of its index record, whether that is indexed or not.
Records that index each other in a ring name no address: the index is open (log entry 54). -/
def State.streamElem (s : State) (c k i : Nat) : Nat → Nat → Elem × State
  | 0, _ => let (w, s1) := s.free; (.value w.toNat, s1)
  | n + 1, e =>
    let r := (s.core c).stream e
    let first : Elem × State := if r.iv then s.streamElem c k i n r.isrc.toNat else (.value i, s)
    match first with
    | (.value j, s1) => s1.streamRead c k e (r.elemAddr j) (2 ^ r.esize.toNat)
    | x => x

/-- Record k stops on a failing element of record e: itself or its index record. Its fault stands for the pops of the empty queue
until QERR is cleared. -/
def Core.streamFail (x : Core) (k e errc : Nat) (a : BitVec 64) : Core :=
  let q := (x.stream k).qsel.toNat
  let x1 := (x.stopStream k).modStream e (fun r => { r with err := true, errc := BitVec.ofNat 3 errc, strerr := a })
  { x1 with qerr := x1.qerr ||| ((1 : BitVec 8) <<< q)
            qfault := if x1.qfault.any (fun y => y.1 == q) then x1.qfault else x1.qfault ++ [(q, e)] }

/-- Record k goes on to its next element, and ends after its last. -/
def Core.streamStep (x : Core) (k : Nat) : Core :=
  let r := x.stream k
  let step (r : Stream) : Stream := { r with next := r.next + 1 }
  let x1 := x.modStream k step
  (if r.iv then x1.modStream r.isrc.toNat step else x1).settleStream k

/-- Push an element of record k. -/
def Core.streamPush (x : Core) (k v : Nat) : Core :=
  let q := (x.stream k).qsel.toNat
  (x.setQueue q (x.queue q ++ [BitVec.ofNat 256 v])).streamStep k

/-- STREAM_PUSH (R301): record k reads its next element and pushes it once its queue has room; it stops on a failure and
ends at its end. An element without a value leaves a mark in its place (R332). Where its index record is no longer ACTIVE though it has
not supplied all its indices (a keeper's SSET), how many it had read is open (log entry 54). A record whose slot has been asked to halt
waits (R303). -/
def execStreamPush (core k : Nat) (s : State) : Host.Outcome State Fault Refusal :=
  let x := s.core core
  let r := x.stream k
  let own := r.owner.toNat
  let sl := s.slot core own
  let i := r.next.toNat
  .next (if !r.active || r.noq || sl.haltReq || sl.halted then s
    else if x.streamEnd r ≤ i then s.modCore core (·.stopStream k)
    else
      let gone := r.iv && !(x.stream r.isrc.toNat).active
      let (w, s0) := if gone then s.free else (1, s)
      if gone && !w.getLsbD 0 then s0.modCore core (·.stopStream k)
      else match s0.streamElem core own i 4 k with
        | (.wait d, _) => s.park d
        | (.fail e errc a, s1) => s1.modCore core (·.streamFail k e errc a)
        | (.bad a, s1) => if x.room r.qsel.toNat == 0 then s else s1.modCore core (fun x => (x.markBad r.qsel.toNat a).streamStep k)
        | (.value v, s1) => if x.room r.qsel.toNat == 0 then s else s1.modCore core (·.streamPush k v))

end Sys2Proof.Machine
end

