-- ==== Sys2Proof/Machine/System.lean ====
section
/-! DEFINITION. System registers (R29, R309, R376) and the instructions of one word that act on a slot's mode, caches and
flags: SGET, SSET and their rows, TRAP, KRET, PLBINV, IBAR, CYC, FGET, FCLR. -/

namespace Sys2Proof.Machine

/-! ### Access to system registers (R29) -/

/-- How a mode may use a system register: not at all, read it, or read and write it. -/
inductive Acc where
  | no | ro | rw
  deriving DecidableEq, Repr

/-- The registers of a core (R29 and the chapters of its units): access in U mode and in K mode. -/
def coreAcc (n : Nat) : Acc × Acc :=
  if n == 0x000 || n == 0x001 || n == 0x004 || n == 0x170 || n == 0x171 then (.rw, .rw)
  else if n == 0x002 || n == 0x003 || n == 0x008 || (0x010 ≤ n && n ≤ 0x013) || (0x030 ≤ n && n ≤ 0x03F) || n == 0x135 ||
      n == 0x1C0 || n == 0x1C3 || n == 0x1D0 then (.ro, .ro)
  else if n == 0x005 || n == 0x006 || n == 0x023 || n == 0x024 || n == 0x040 || (0x100 ≤ n && n ≤ 0x107) ||
      n == 0x110 || (0x120 ≤ n && n ≤ 0x134) ||
      n == 0x140 || (0x180 ≤ n && n ≤ 0x187) then (.ro, .rw)
  else if (0x020 ≤ n && n ≤ 0x022) || (0x150 ≤ n && n ≤ 0x155) || n == 0x160 || (0x1A0 ≤ n && n ≤ 0x1A4) || n == 0x1AB ||
      n == 0x1B0 || (0x1B8 ≤ n && n ≤ 0x1BA) then (.no, .rw)
  else if n == 0x156 || (0x161 ≤ n && n ≤ 0x164) || (0x1A8 ≤ n && n ≤ 0x1AA) || (0x1B1 ≤ n && n ≤ 0x1B3) || n == 0x1C1 ||
      n == 0x1C2 then (.no, .ro)
  else (.no, .no)

/-- The registers of an SVC (R309). -/
def svcAcc (n : Nat) : Acc :=
  if n == 0x000 then .rw else if n == 0x008 || (0x190 ≤ n && n ≤ 0x192) then .ro else .no

/-- The access that the issuing agent has to a register. -/
def State.sysAcc (s : State) (n : Nat) : Acc :=
  match s.cur with
  | .svc _ => svcAcc n
  | .slot c k => if (s.slot c k).km then (coreAcc n).2 else (coreAcc n).1

def sysNum (o : Op) : Nat := i18f o 9 0

/-! ### The words of registers -/

/-- VUSE (R25). -/
def SlotRegs.vuse (r : SlotRegs) : BitVec 64 := BitVec.ofNat 64 (4 * r.vuseMode.toNat + r.vuseN.toNat)

/-- XSTAT (R26). -/
def Slot.xstat (sl : Slot) : BitVec 64 :=
  BitVec.ofNat 64 (16 * sl.sfrq.length + 4 * sl.regs.infiring.toNat + 2 * sl.regs.prevk.toNat + sl.regs.vwake.toNat)

/-- HSTATE of the actor in slot k (R183). -/
def State.hstate (s : State) (c k : Nat) : BitVec 64 :=
  let a := (s.slot c k).act
  BitVec.ofNat 64 (2 ^ 32 * a.soft.toNat + 2 ^ 16 * bitSet16 (s.pendingHandlers c k) + a.en.toNat)
where
  /-- The 16-bit set of a list of numbers. -/
  bitSet16 (l : List Nat) : Nat := sumNat ((List.range 16).map (fun i => if l.contains i then 2 ^ i else 0))

/-- AMODE (R184). -/
def Slot.amode (sl : Slot) : BitVec 64 :=
  BitVec.ofNat 64 (2 ^ 8 * sl.act.taske.toNat + 2 ^ 5 * sl.ident.isSome.toNat + 2 ^ 4 * sl.act.worker.toNat + sl.act.mbox.toNat)

/-- NISTAT (R184). -/
def Slot.nistat (sl : Slot) : BitVec 64 :=
  BitVec.ofNat 64 (2 ^ 16 * sl.act.returns.toNat + 2 ^ 8 * (sl.ni.filter (·.isHeld)).length + sl.ni.length)

/-- MUNIT (R158). -/
def MatrixUnit.munit (u : MatrixUnit) : BitVec 64 := BitVec.ofNat 64 (2 ^ 16 * u.en.toNat + u.domain.toNat)

/-- TRAVCTL and TRAVSTAT (R278). -/
def Traverse.ctl (t : Traverse) : BitVec 64 :=
  BitVec.ofNat 64 (2 ^ 16 * t.domain.toNat + 4 * t.stop.toNat + 2 * t.lmem.toNat + t.en.toNat)
def Traverse.stat (t : Traverse) : BitVec 64 :=
  BitVec.ofNat 64 (2 ^ 32 * t.lost.toNat + 2 ^ 16 * (decide (256 ≤ t.ring.length)).toNat + t.ring.length)

/-- SAMPCTL and SAMPSTAT (R346). -/
def Sampler.ctl (x : Sampler) : BitVec 64 := BitVec.ofNat 64 (2 ^ 36 * x.trace.toNat + 2 ^ 32 * x.slots.toNat + x.period.toNat)
def Sampler.stat (x : Sampler) : BitVec 64 := BitVec.ofNat 64 (2 ^ 32 * x.lost.toNat + x.ring.length)

/-- SFRQINFO of a record (R338). -/
def SfrqRec.word (r : SfrqRec) : BitVec 64 := BitVec.ofNat 64 (2 ^ 63 + 2 ^ 60 * r.kind + 2 ^ 56 * r.reason + r.size)

/-! ### Units that QOSSEL names (R263, R322) -/

/-- The partition of the core's cluster. -/
def State.corePart (s : State) (c : Nat) : BitVec 4 := vget 0 s.port.clusterPart (clusterOf c)

/-- The partition of the unit that QOSSEL names: a slice's cluster's, or a channel's group's (R401). -/
def State.unitPart (s : State) (sel : BitVec 16) : BitVec 4 :=
  let u := sel.toNat % 512
  if sel.getLsbD 15 then vget 0 s.port.groupPart (u / 8) else vget 0 s.port.clusterPart (u / 16)

def State.qosUnit (s : State) (sel : BitVec 16) : Channel :=
  if sel.getLsbD 15 then s.channel (sel.toNat % 512) else s.slice (sel.toNat % 512)
def State.modQosUnit (s : State) (sel : BitVec 16) (f : Channel → Channel) : State :=
  if sel.getLsbD 15 then s.modChannel (sel.toNat % 512) f else s.modSlice (sel.toNat % 512) f

/-- The unit that QOSSEL names, in the slot's partition. -/
def qosSite : M (BitVec 16) := do
  let sl ← curSlot
  let s ← getS
  if s.unitPart sl.regs.qossel == s.corePart s.at_.1 then pure sl.regs.qossel
  else raise .rights (sl.regs.qossel.setWidth 64)

/-- As `qosSite`, for a channel: HBM = 0 raises ILLEGAL (R322). -/
def channelSite (word0 : BitVec 64) : M (BitVec 16) := do
  let sl ← curSlot
  if sl.regs.qossel.getLsbD 15 then qosSite else raise .illegal word0

/-- QOSBUD.c: the values written last, whether or not their period has begun. -/
def Channel.budget (u : Channel) (c : Nat) : BitVec 64 :=
  BitVec.ofNat 64 (2 ^ 16 * (vget 0 (u.newDepth.getD u.depth) c).toNat + (vget 0 (u.newRate.getD u.rate) c).toNat)

/-- DARB and THROTTLE (R322). -/
def Channel.darb (u : Channel) : BitVec 64 := BitVec.ofNat 64 (16 * u.wd.toNat + u.wn.toNat)
def Channel.throttle (u : Channel) : BitVec 64 := BitVec.ofNat 64 (2 ^ 32 * u.limit + u.waves.toNat)

/-! ### Comparators that CMPSEL names (R344) -/

/-- The team, entry and comparator that CMPSEL names; DOMAIN where the team has no such entry. -/
def cmpSite : M (Team × Nat × Nat) := do
  let sl ← curSlot
  let sel := sl.regs.cmpsel.toNat
  match ← curTeam with
  | some t => if sel % 256 < t.ngroup then pure (t, sel % 256, sel / 256) else raise .domain (BitVec.ofNat 64 sel)
  | none => raise .domain (BitVec.ofNat 64 sel)

def Team.comparator (t : Team) (e n : Nat) : Comparator := vget {} (t.entry e).cmps n
def State.modComparator (s : State) (h e n : Nat) (f : Comparator → Comparator) : State :=
  s.modTeam h (fun t => t.modEntry e (fun g => { g with cmps := vput g.cmps n (f (vget {} g.cmps n)) }))

/-! ### SGET -/

/-- The number of set bits of a kernel's mask. -/
def maskSvcs (m : BitVec 32) : Nat := ((List.range 32).filter m.getLsbD).length

/-- What an SVC reads (R309). -/
def State.svcGet (s : State) (i n : Nat) : BitVec 64 :=
  let v := s.svc i
  if n == 0x000 then v.thr.fpctl
  else if n == 0x008 then v.cyc
  else if n == 0x190 then
    let count := match v.kernel with
      | some t => match s.kernel t with | some x => maskSvcs x.mask | none => 1
      | none => 1
    BitVec.ofNat 64 (i + 2 ^ 8 * v.rank + 2 ^ 13 * (count - 1))
  else if n == 0x191 then (match v.left with | some t => BitVec.ofNat 64 t | none => BitVec.allOnes 64)
  else v.dprog.setWidth 64

/-- What a slot reads from a register that has no entry of its own below. The registers of an actor and its core are those
of its own core, wherever its firing runs (R253). -/
def State.coreGet (s : State) (c k n : Nat) : BitVec 64 :=
  let sl := s.slot c k
  let (hc, hk) := s.homeOf c k
  let x := s.core hc
  let home := s.slot hc hk
  let r := sl.regs
  if n == 0x000 then sl.thr.fpctl
  else if n == 0x001 then r.bst.setWidth 64
  else if n == 0x002 then BitVec.ofNat 64 sl.uas
  else if n == 0x003 then r.livev.setWidth 64
  else if n == 0x004 then r.vuse
  else if n == 0x005 then r.qos.setWidth 64
  else if n == 0x006 then r.qwaitLimit.setWidth 64
  else if n == 0x008 then (s.core c).cyc
  else if n == 0x010 then BitVec.ofNat 64 hc
  else if n == 0x011 then BitVec.ofNat 64 ((sl.ident.map (·.member)).getD 0)
  else if n == 0x012 then BitVec.ofNat 64 (((s.teamOf c k).map (·.size)).getD 0)
  else if n == 0x013 then BitVec.ofNat 64 hk
  else if n == 0x020 then r.xpc
  else if n == 0x021 then r.xcause.setWidth 64
  else if n == 0x022 then r.xval
  else if n == 0x023 then sl.xstat
  else if n == 0x024 then r.gslot.setWidth 64
  else if n < 0x040 then (x.bank (n % 16)).ctl
  else if n == 0x040 then x.mu.mseq
  else if n < 0x108 then vget 0 r.latch (n % 8)
  else if n == 0x110 then x.mu.munit
  else if n < 0x130 then vget 0 home.act.htab (n % 16)
  else if n == 0x130 then s.hstate hc hk
  else if n == 0x131 then home.act.abase
  else if n == 0x132 then home.act.acode
  else if n == 0x133 then home.amode
  else if n == 0x134 then home.act.backoff.setWidth 64
  else if n == 0x135 then home.nistat
  else if n == 0x140 then r.barpend.setWidth 64
  else if n == 0x150 then r.qossel.setWidth 64
  else if n == 0x160 then x.trav.ctl
  else if n == 0x161 then x.trav.stat
  else if n == 0x163 then x.trav.travc
  else if n == 0x164 then x.trav.travs
  else if n == 0x170 then r.gstat.setWidth 64
  else if n == 0x171 then r.gfirst
  else if n < 0x184 then (x.stream (n % 4)).strec
  else if n < 0x188 then (x.stream (n % 4)).strerr
  else if n == 0x1A0 then r.kvec
  else if n < 0x1A5 then vget 0 r.kscr (n - 0x1A1)
  else if n == 0x1A9 then r.sfrqPc
  else if n == 0x1AA then r.sfrqInfo
  else if n == 0x1AB then r.sfrqLost.setWidth 64
  else if n == 0x1B0 then x.samp.ctl
  else if n == 0x1B1 then x.samp.stat
  else if n == 0x1B3 then x.samp.info
  else if n == 0x1B8 then r.cmpsel.setWidth 64
  else if n == 0x1C0 then BitVec.ofNat 64 (s.domainOf c k)
  else if n == 0x1C1 then BitVec.ofNat 64 (s.domtab.toNat * 2 ^ 18)
  else if n == 0x1C2 then BitVec.ofNat 64 (s.ptroot.toNat * 2 ^ 13)
  else if n == 0x1C3 then BitVec.ofNat 64 ((sl.ident.map (·.team)).getD 0)
  else (match s.port.devid with | some d => BitVec.ofNat 64 (2 ^ 8 + d.toNat) | none => 0)

/-- Whether a store of a slot may yet tell of a saturation: one to another core's local memory that is not acknowledged (R139). -/
def Slot.satOwed (sl : Slot) (c dev : Nat) : Bool :=
  let far (t : Target) : Bool := t.isLocal && !(t.dev == dev && t.core == c)
  sl.queued.any (fun r => (match r.chk with | .ok t _ => far t | _ => false) && r.op != .lane && r.op != .scat && r.op != .legend) ||
    sl.comb.any (fun e => far e.tgt) || sl.unacked.any (fun u => far u.tgt)

/-- An access to FPCTL waits until every earlier instruction of the slot has ORed its flags (R76): its stores that may saturate a bin
are sent and acknowledged. -/
def flagsIn : M Unit := fun s =>
  match s.cur with
  | .svc _ => .ok ((), s)
  | .slot c k =>
    if !(s.slot c k).satOwed c s.ownDev then .ok ((), s)
    else .error (.ask (fun s => (s.flushComb c k (fun e => e.tgt.isLocal)).stallCur .remoteReply))

/-- The value of a register that the agent may read, with the refusals of R263, R322 and R344, and the wait of R76. -/
def sysGet (word0 : BitVec 64) (n : Nat) : M (BitVec 64) := fun s =>
  match s.cur with
  | .svc i => .ok (s.svcGet i n, s)
  | .slot c k =>
    if n == 0x000 then
      (do flagsIn
          let t ← curThread
          pure t.fpctl : M (BitVec 64)) s
    else if 0x151 ≤ n && n ≤ 0x154 then
      (do let sel ← qosSite
          let s ← getS
          pure ((s.qosUnit sel).budget (n - 0x151)) : M (BitVec 64)) s
    else if n == 0x155 then
      (do let sel ← channelSite word0
          let s ← getS
          pure (s.qosUnit sel).darb : M (BitVec 64)) s
    else if n == 0x156 then
      (do let sel ← channelSite word0
          let s ← getS
          pure (s.qosUnit sel).throttle : M (BitVec 64)) s
    else if n == 0x1B9 then (do let (t, e, i) ← cmpSite; pure (t.comparator e i).addr : M (BitVec 64)) s
    else if n == 0x1BA then (do let (t, e, i) ← cmpSite; pure ((t.comparator e i).ctl.setWidth 64) : M (BitVec 64)) s
    else .ok (s.coreGet c k n, s)

/-- SGET (R376): the checks of R29, the value, D. A number that R29 or R309 refuses raises ILLEGAL here, once the guard allows: under
a guard that is false it raises nothing (DESIGN CHOICE, log entry 46: R15 has a decoding fault raised all the same, and no rule says
whether this check is one). -/
def sgetWith (get : BitVec 64 → Nat → M (BitVec 64)) (o : Op) (s : State) : Host.Outcome State Fault Refusal :=
  runScalar 0xF0 o (do
    let w := packWord0 0xF0 o
    let n := sysNum o
    let s ← getS
    if s.sysAcc n = .no then raise .illegal w
    else
      let v ← get w n
      dstX o.d v
      pure .next) s

/-- SGET (R376). -/
def execSget (o : Op) (s : State) : Host.Outcome State Fault Refusal := sgetWith sysGet o s

/-- TRAVPOP (R278): the oldest entry leaves the ring and is latched. -/
def execTravpop (o : Op) (s : State) : Host.Outcome State Fault Refusal :=
  sgetWith (fun _ _ => do
    let t := (← curCore).trav
    match t.ring with
    | [] =>
      modCurCore (fun x => { x with trav := { x.trav with travs := x.trav.travs &&& 0x7FFFFFFFFFFFFFFF } })
      pure 0
    | r :: rest =>
      modCurCore (fun x => { x with trav := { x.trav with ring := rest, travc := r.cyc, travs := r.word } })
      pure r.addr) o s

/-- SFRQPOP (R338): the oldest record leaves and is latched. -/
def execSfrqpop (o : Op) (s : State) : Host.Outcome State Fault Refusal :=
  sgetWith (fun _ _ => do
    let sl ← curSlot
    match sl.sfrq with
    | [] =>
      modRegs (fun r => { r with sfrqInfo := r.sfrqInfo &&& 0x7FFFFFFFFFFFFFFF })
      pure 0
    | q :: rest =>
      modCurSlot (fun x => { x with
        sfrq := rest, sfReported := x.sfReported - 1, regs := { x.regs with sfrqPc := q.pc, sfrqInfo := q.word } })
      pure q.addr) o s

/-- SAMPPOP (R346): the oldest entry leaves the ring and is latched. -/
def execSamppop (o : Op) (s : State) : Host.Outcome State Fault Refusal :=
  sgetWith (fun _ _ => do
    let t := (← curCore).samp
    match t.ring with
    | [] =>
      modCurCore (fun x => { x with samp := { x.samp with info := x.samp.info &&& 0x7FFFFFFFFFFFFFFF } })
      pure 0
    | r :: rest =>
      modCurCore (fun x => { x with samp := { x.samp with ring := rest, info := r.info } })
      pure r.pc) o s

/-! ### SSET -/

/-- A write of GSLOT (R28): none where a valid field names an entry that does not contain the slot. -/
def State.gslotOk (s : State) (c k : Nat) (v : BitVec 64) : Bool :=
  (List.range 4).all (fun g => !v.getLsbD (32 + g) ||
    (match s.teamOf c k, (s.slot c k).ident with
      | some t, some i => t.inGroup (bitsOf v.toNat (8 * g + 7) (8 * g)) i.member i.slot
      | _, _ => false))

/-- A write of a register of the slot with no refusal but ILLEGAL, which leaves it unchanged (R21, R22, R26-R28, R181-R184,
R228, R263, R298, R302, R329, R338, R344). -/
def State.coreSet (s : State) (c k n : Nat) (v : BitVec 64) : Option State :=
  let regs (f : SlotRegs → SlotRegs) : Option State := some (s.modSlot c k (fun x => { x with regs := f x.regs }))
  let act (f : ActorRegs → ActorRegs) : Option State := some (s.modSlot c k (fun x => { x with act := f x.act }))
  if n == 0x000 then ((s.slot c k).thr.setFpctl v).map (fun t => s.modSlot c k (fun x => { x with thr := t }))
  else if n == 0x001 then if 5 ≤ v.toNat % 8 then none else regs (fun r => { r with bst := v.setWidth 3 })
  else if n == 0x005 then regs (fun r => { r with qos := v.setWidth 2 })
  else if n == 0x006 then regs (fun r => { r with qwaitLimit := v.setWidth 32 })
  else if n == 0x020 then regs (fun r => { r with xpc := v })
  else if n == 0x021 then regs (fun r => { r with xcause := v.setWidth 9 })
  else if n == 0x022 then regs (fun r => { r with xval := v })
  else if n == 0x023 then
    regs (fun r => { r with infiring := v.getLsbD 2, prevk := v.getLsbD 1, vwake := r.vwake && !v.getLsbD 0 })
  else if n == 0x024 then if s.gslotOk c k v then regs (fun r => { r with gslot := v.setWidth 36 }) else none
  else if 0x100 ≤ n && n ≤ 0x107 then regs (fun r => { r with latch := vput r.latch (n % 8) v })
  else if 0x120 ≤ n && n ≤ 0x12F then
    if bitsOf v.toNat 11 8 == 0 then none
    else act (fun a => { a with htab := vput a.htab (n % 16) (v &&& 0xFFFFFFFF000F0F07) })
  else if n == 0x130 then act (fun a => { a with soft := (v >>> 32).setWidth 16, en := v.setWidth 16 })
  else if n == 0x131 then act (fun a => { a with abase := v })
  else if n == 0x132 then if v.toNat % 4 == 0 then act (fun a => { a with acode := v }) else none
  else if n == 0x134 then act (fun a => { a with backoff := v.setWidth 17 })
  else if n == 0x140 then regs (fun r => { r with barpend := v.setWidth 35 })
  else if n == 0x150 then
    if v.getLsbD 15 && 256 ≤ v.toNat % 512 then none else regs (fun r => { r with qossel := (v &&& 0x81FF).setWidth 16 })
  else if n == 0x170 then regs (fun r => { r with gstat := v.setWidth 32 })
  else if n == 0x171 then regs (fun r => { r with gfirst := v })
  else if 0x184 ≤ n && n ≤ 0x187 then some (s.modCore c (·.modStream (n % 4) (fun r => { r with strerr := v })))
  else if n == 0x1A0 then if v.toNat % 4 == 0 then regs (fun r => { r with kvec := v }) else none
  else if 0x1A1 ≤ n && n ≤ 0x1A4 then regs (fun r => { r with kscr := vput r.kscr (n - 0x1A1) v })
  else if n == 0x1AB then regs (fun r => { r with sfrqLost := v.setWidth 8 })
  else if n == 0x1B8 then regs (fun r => { r with cmpsel := v.setWidth 10 })
  else some s

/-- SSET (R376): the checks of R29, B, then the register's own waits, checks and effect. A write of a read-only register is
ignored on a core (R9) and raises ILLEGAL on an SVC (R309); of THROTTLE, QOSSEL is checked first (R322). A refused number under a
guard that is false raises nothing, as for SGET (DESIGN CHOICE, log entry 46). -/
def ssetWith (set : BitVec 64 → Nat → BitVec 64 → M Unit) (o : Op) (s : State) : Host.Outcome State Fault Refusal :=
  runScalar 0xF1 o (do
    let w := packWord0 0xF1 o
    let n := sysNum o
    let s ← getS
    let acc := s.sysAcc n
    if acc = .no || (acc = .ro && s.prof = .deep) then raise .illegal w
    else
      let v ← srcX (immValue o) o.b
      if acc = .ro then
        if s.prof = .core && n == 0x156 then
          let _ ← channelSite w
          pure .next
        else pure .next
      else
        set w n v
        pure .next) s

/-- A write of a register with no row of its own. -/
def sysSet (word0 : BitVec 64) (n : Nat) (v : BitVec 64) : M Unit := fun s =>
  match s.cur with
  | .svc i =>
    match (s.svc i).thr.setFpctl v with
    | some t => .ok ((), s.modSvc i (fun x => { x with thr := t }))
    | none => .error (.trap .illegal word0)
  | .slot c k =>
    if n == 0x000 then
      (do flagsIn
          let s ← getS
          match s.coreSet c k 0 v with
          | some s1 => modS (fun _ => s1)
          | none => raise .illegal word0 : M Unit) s
    else if n == 0x1B9 then
      (do let (t, e, i) ← cmpSite
          modS (fun s => s.modComparator t.handle e i (fun x => { x with addr := v })) : M Unit) s
    else match s.coreSet c k n v with
      | some s1 => .ok ((), s1)
      | none => .error (.trap .illegal word0)

/-- SSET (R376). -/
def execSset (o : Op) (s : State) : Host.Outcome State Fault Refusal := ssetWith sysSet o s

/-- MSEQ_WRITE (R173, R174): ILLEGAL while a sequence runs; ACTIVE = 1 restarts the sequence that is written. A held sequence's range
leaves the scoreboard where another sequence, or none, is written. -/
def execMseqWrite (o : Op) (s : State) : Host.Outcome State Fault Refusal :=
  ssetWith (fun w _ v => do
    let s ← getS
    let c := s.at_.1
    let v := v &&& 0xFFFFFFE3FFFFFFFF
    if mseqActive (s.core c).mu.mseq then raise .illegal w
    else if mseqActive v then
      match (s.modCore c (·.dropSeqRange)).restartSeq c v with
      | .ok s1 => modS (fun _ => s1)
      | .error none => stallOn .range
      | .error (some (cause, x)) => raise cause x
    else modCurCore (fun y => let x := if v == y.mu.mseq then y else y.dropSeqRange; { x with mu := { x.mu with mseq := v, due := x.mu.due && mseqHeld v, seqFl := if mseqHeld v then x.mu.seqFl else 0 } })) o s

/-- MUNIT_WRITE (R157, R158): it waits for the queue and the sequencer; another DOMAIN clears the unit. -/
def execMunitWrite (o : Op) (s : State) : Host.Outcome State Fault Refusal :=
  ssetWith (fun _ _ v => do
    let u := (← curCore).mu
    if !u.queue.isEmpty || mseqActive u.mseq then stallOn .matrix
    else
      let d : BitVec 12 := v.setWidth 12
      let en := v.getLsbD 16
      modCurCore (fun x => { x with mu := if d == u.domain then { u with en } else { en, domain := d } })) o s

/-- TRAVCTL_WRITE (R278): EN going from 0 to 1 empties the ring and clears LOST. -/
def execTravctlWrite (o : Op) (s : State) : Host.Outcome State Fault Refusal :=
  ssetWith (fun _ _ v => modCurCore (fun x =>
    let t : Traverse := { x.trav with
      en := v.getLsbD 0, lmem := v.getLsbD 1, stop := v.getLsbD 2, domain := (v >>> 16).setWidth 12 }
    { x with trav := if t.en && !x.trav.en then { t with ring := [], lost := 0 } else t })) o s

/-- SAMPCTL_WRITE (R346): the ring is emptied, LOST is cleared, and a new period begins. -/
def execSampctlWrite (o : Op) (s : State) : Host.Outcome State Fault Refusal :=
  ssetWith (fun _ _ v => modCurCore (fun x => { x with samp := { x.samp with
    period := v.setWidth 32, slots := (v >>> 32).setWidth 4, trace := v.getLsbD 36, ring := [], lost := 0, count := 0 } })) o s

/-- Whether bank b can become the mailbox of slot k (R184). -/
def State.mboxOk (s : State) (c k b : Nat) : Bool :=
  let x := s.bank c b
  x.pers == 1 && x.esz == 32 && x.subq == 15 && !x.spanned &&
    (List.range 4).all (fun j => j == k || (s.slot c j).ident.isNone || (s.slot c j).guest.isSome || (s.slot c j).act.mbox.toNat != b)

/-- AMODE_WRITE (R184): a change of MBOX moves the mailbox; headers leave the old bank, and the new one's are 0. -/
def execAmodeWrite (o : Op) (s : State) : Host.Outcome State Fault Refusal :=
  ssetWith (fun w _ v => do
    let s ← getS
    let (c, k) := s.at_
    let old := (s.slot c k).act.mbox.toNat
    let b := v.toNat % 16
    if b != old && !s.mboxOk c k b then raise .illegal w
    else
      modCurSlot (fun x => { x with act := { x.act with taske := (v >>> 8).setWidth 8, worker := v.getLsbD 4, mbox := v.setWidth 4 } })
      if b == old then pure ()
      else modS (fun s => (s.modBank c old (fun x => { x with hdrs := [] })).modBank c b (fun x =>
        { x with hdrs := x.counts.map (fun n => List.replicate n 0) }))) o s

/-- A load that is owed to a v register whose group loses its contents leaves zero there (R25). -/
def Owed.gate (n : Nat) (o : Owed) : Owed :=
  let lose (r : Nat) : Owed := if n < r / 8 then { o with dst := .lanes r 8 [] 0 } else o
  match o.dst with
  | .v r => lose r | .lanes r _ _ _ => lose r | _ => o

/-- Write VUSE (R25): groups that N now covers wake; with MODE = 1 every gated group loses its contents, with what a load that is
owed to it still brings. -/
def Slot.setVuse (sl : Slot) (v : BitVec 64) : Slot :=
  let n := v.toNat % 4
  let r0 := sl.regs.wake n
  let r1 : SlotRegs := { r0 with vuseN := BitVec.ofNat 2 n, vuseMode := v.getLsbD 2 }
  if v.getLsbD 2 then
    { sl with
      regs := { r1 with vlost := r1.vlost ||| BitVec.ofNat 4 (2 ^ 4 - 2 ^ (n + 1)) }
      v := Vector.ofFn (fun (i : Fin 32) => if n < i.val / 8 then 0 else vget 0 sl.v i.val)
      poisonX := sl.poisonX.filter (fun e => e.1 < 32 || 64 ≤ e.1 || (e.1 - 32) / 8 ≤ n)
      owed := sl.owed.map (·.gate n) }
  else { sl with regs := r1 }

/-- VUSE_WRITE (R25). -/
def execVuseWrite (o : Op) (s : State) : Host.Outcome State Fault Refusal :=
  ssetWith (fun _ _ v => modCurSlot (·.setVuse v)) o s

/-- The bits of a control word that R343 marks "must be zero" for comparator n. -/
def cmpReserved (n : Nat) : BitVec 32 := if n < 2 then 0xFFFF01FC else 0xFFFF01F0

/-- CMPCTL_WRITE (R344). -/
def execCmpctlWrite (o : Op) (s : State) : Host.Outcome State Fault Refusal :=
  ssetWith (fun w _ v => do
    let (t, e, i) ← cmpSite
    let ctl : BitVec 32 := v.setWidth 32
    if ctl &&& cmpReserved i != 0 then raise .illegal w
    else modS (fun s => s.modComparator t.handle e i (fun x => { x with ctl }))) o s

/-- A written STREC.k (R302). -/
def Stream.write (r : Stream) (v : BitVec 64) : Stream :=
  { r with
    active := v.getLsbD 63, err := v.getLsbD 62, owner := (v >>> 60).setWidth 2, errc := (v >>> 57).setWidth 3
    next := v.setWidth 32 }

/-- STREC_WRITE (R302): ACTIVE = 1 resumes the record at NEXT; one with no element left ends at once. -/
def execStrecWrite (o : Op) (s : State) : Host.Outcome State Fault Refusal :=
  ssetWith (fun _ n v => modCurCore (fun x =>
    let k := n % 4
    let x1 := x.modStream k (·.write v)
    if v.getLsbD 63 then x1.settleStream k else x1)) o s

/-- QOSBUD_WRITE (R263): DEPTH = 0 raises ILLEGAL; the values act from the unit's next period. -/
def execQosbudWrite (o : Op) (s : State) : Host.Outcome State Fault Refusal :=
  ssetWith (fun w n v => do
    let depth : BitVec 16 := (v >>> 16).setWidth 16
    let c := n - 0x151
    if depth == 0 then raise .illegal w
    else
      let sel ← qosSite
      modS (fun s => s.modQosUnit sel (fun u => { u with
      newRate := some (vput (u.newRate.getD u.rate) c (v.setWidth 16))
      newDepth := some (vput (u.newDepth.getD u.depth) c depth) }))) o s

/-- DARB_WRITE (R322): the deficits are kept. -/
def execDarbWrite (o : Op) (s : State) : Host.Outcome State Fault Refusal :=
  ssetWith (fun w _ v => do
    let sel ← channelSite w
    modS (fun s => s.modQosUnit sel (fun u => { u with wn := v.setWidth 4, wd := (v >>> 4).setWidth 4 }))) o s

/-! ### TRAP and KRET (R334, R335) -/

/-- TRAP (R334). -/
def execTrap (o : Op) (s : State) : Host.Outcome State Fault Refusal :=
  runScalar 0xF2 o (raise .trap (BitVec.ofNat 64 (i18n o))) s

/-- KRET (R335). -/
def execKret (o : Op) (s : State) : Host.Outcome State Fault Refusal :=
  runScalar 0xF3 o (do
    let sl ← curSlot
    let s ← getS
    if !sl.regs.prevk && !sl.regs.infiring then raise .illegal (packWord0 0xF3 o)
    else if sl.regs.xpc.toNat % 4 != 0 then raise .align sl.regs.xpc
    else holdIn (s.noteIssue.modSlot s.at_.1 s.at_.2 (·.kret (o.m.toNat % 2 == 1)))) s

/-! ### PLBINV and IBAR (R360-R362) -/

/-- Which addresses and domains a PLBINV names: a page in one domain, every page of a domain, or all. -/
inductive InvScope where
  | page (lo n dom : Nat)
  | dom (dom : Nat)
  | all
  deriving DecidableEq, Repr

/-- Whether an address lies in the n bytes from lo. -/
def inSpan (lo n a : Nat) : Bool := decide (lo ≤ a) && decide (a < lo + n)

/-- Whether an access to an address under a domain was checked by an entry that is removed. An access of a slot in K mode
was checked under domain 0. -/
def InvScope.covers (x : InvScope) (a dom : Nat) : Bool :=
  match x with
  | .page lo n d => (dom == d || d == 0) && inSpan lo n a
  | .dom d => dom == d || d == 0
  | .all => true

/-- Whether the walk of an address from a table ends above level 4: at a leaf of 32 MiB, or where no entry is valid. -/
def State.walkBig (s : State) (root a : Nat) : Bool := (s.walkReads root a).length < 4

/-- The page of an address in a domain (R355, R357): 32 MiB unless its page-table leaf or the domain's protection leaf is one of
64 KiB. -/
def State.pageOf (s : State) (a dom : Nat) : Nat × Nat :=
  let big := s.walkBig (s.ptroot.toNat * 8192) a &&
    (match s.domEntry dom with | some (root, _, _) => s.walkBig root a | none => true)
  if big then (a / 2 ^ 25 * 2 ^ 25, 2 ^ 25) else (a / 2 ^ 16 * 2 ^ 16, 2 ^ 16)

/-- Whether an access to a page is held at its slice by a MOVING leaf, now or since its walk met one (R358, R363). -/
def State.movingPage (s : State) (a : Nat) : Bool :=
  s.walks.any (fun w => w.moving && w.line == line256 a) || s.walkPage a == .moving

/-- As `movingPage`, for an access at a home core: a line that is there, or whose translation is, is not held. -/
def State.movingAt (s : State) (core a : Nat) : Bool :=
  !s.lineReady core a && (s.cached (sliceOf core a) a).isNone && s.movingPage a

/-- The global line that a request asks for at its home. -/
def Packet.global (p : Packet) : Option Nat :=
  if p.isLocal then none
  else match p.body with
    | .store r => some r.addr | .load _ _ a .. => some a | .lane _ _ a .. => some a | .atomic _ _ a .. => some a
    | _ => none

/-- The domains that checked a request. -/
def Packet.checkedBy (p : Packet) : List Nat :=
  match p.body with | .store r => if r.doms.isEmpty then [r.dom] else r.doms | _ => [p.dom]

/-- Whether a MOVING page holds a request on its way, or one ahead of it from its source core to its home (R249, R363). -/
def State.packetHeld (s : State) (i : Nat) (p : Packet) : Bool :=
  (s.net.take (i + 1)).any (fun q => q.src.1 == p.src.1 && q.dev == p.dev && q.core == p.core && q.global.any (s.movingAt q.core))

/-- The stores of a slot that no MOVING page holds: those ahead of a held one, and none while a held one that was sent keeps the
oldest in its queue. -/
def State.freeStores (s : State) (c k : Nat) (sl : Slot) : List StoreReq :=
  let at_ (r : StoreReq) : Bool := match r.chk with | .ok t _ => !t.isLocal && s.movingAt t.core r.addr | _ => false
  let sent := s.net.any (fun p => p.src == (c, k) && p.global.any (s.movingAt p.core))
  let stuck := match sl.sq with | r :: _ => (match r.chk with | .ok t kind => !sl.maySend r t kind | _ => false) | [] => false
  if sent && stuck then [] else sl.queued.takeWhile (fun r => !at_ r)

/-- Whether a MOVING page holds a lane of a GATHER of a core, its packet, or a lane that goes before it (R297, R363). -/
def State.laneHeld (s : State) (core : Nat) (g : Gather) (l : Nat × BitVec 64 × Target × Kind) : Bool :=
  let at_ (x : Nat × BitVec 64 × Target × Kind) : Bool :=
    (!x.2.2.1.isLocal && s.movingAt x.2.2.1.core x.2.1.toNat) ||
      s.net.zipIdx.any (fun e => (match e.1.body with | .lane id off .. => id == g.id && off == x.1 | _ => false) && s.packetHeld e.2 e.1)
  at_ l || (g.lanesFirst l.1 l.2.2.1 l.2.2.2 (l.2.2.1.dev == s.ownDev && l.2.2.1.core == core)).any at_

/-- Whether an access of the device that a removed entry checked has yet to be performed. One held by a MOVING page, or behind
such a one, is not waited for, since only a later PLBINV lets it go on (R363). -/
def State.accessesUnder (s : State) (x : InvScope) : Bool :=
  s.net.zipIdx.any (fun e => e.1.global.any (fun a => e.1.checkedBy.any (x.covers a)) && !s.packetHeld e.2 e.1) ||
  s.cores.any (fun e =>
    (List.range 4).any (fun k =>
      let sl := e.2.slot k
      (s.freeStores e.1 k sl).any (fun r => (match r.chk with | .ok t _ => !t.isLocal | _ => false) && x.covers r.addr r.dom) ||
      sl.comb.any (fun b => !b.tgt.isLocal && b.doms.any (x.covers b.line))) ||
    e.2.mu.queue.any (fun op => match op.kind with
      | .drain _ _ _ _ d t _ => x.covers d.toNat op.dom && !s.movingAt t.core d.toNat | _ => false) ||
    e.2.drains.any (fun d => d.left != 0 && x.covers d.addr.toNat d.dom && !s.movingPage d.addr.toNat) ||
    e.2.gathers.any (fun g => g.lanes.any (fun l =>
      !l.2.2.1.isLocal && x.covers l.2.1.toNat g.dom && !s.laneHeld e.1 g l)))

/-- The lines of a row access that are not yet performed. -/
def RowAccess.open_ (r : RowAccess) : List Nat := match r.scan with | some sc => (sc.lines.drop sc.next).map Prod.fst | none => [r.line]

/-- Whether an SVC's row access that a removed translation gave has yet to be performed. -/
def State.rowsUnder (s : State) (x : InvScope) : Bool :=
  s.svcs.any (fun e => e.2.rows.any (fun r => r.open_.any (fun a => match x with | .page lo n _ => inSpan lo n a | _ => true)))

/-- Remove PLB entries and cached translations (R360). -/
def State.invalidate (s : State) (x : InvScope) (xlat : Bool) : State :=
  let keep (e : PlbEntry) : Bool :=
    match x with
    | .page lo n d => !(e.dom == d && e.covers d lo || e.dom == d && inSpan lo n (e.page * 2 ^ 16))
    | .dom d => e.dom != d
    | .all => false
  let s1 : State := { s with
    cores := s.cores.map (fun e => (e.1, { e.2 with plb := e.2.plb.filter keep }))
    port := { s.port with plb := s.port.plb.filter keep } }
  if xlat then
    { s1 with xlat := s1.xlat.filter (fun e => match x with
        | .page lo n _ => !(inSpan lo n (e.page * 2 ^ 16))
        | _ => false) }
  else s1

/-- The L2 lines of a page that no load or atomic on its way needs, and whose channels can be reached (R382), written back and removed
with their L1 lines. -/
def State.flushPage (s : State) (lo n : Nat) : State :=
  (s.l2.filter (fun l => inSpan lo n l.line && !s.lineNeeded l.line l.slice && s.canWriteBack l)).foldl
      (fun s l => s.evictL2 l.line l.slice) s

/-- Walks that an `.xlat` names walk again, those that a MOVING leaf held among them (R358). -/
def State.walkAgain (s : State) (x : InvScope) : State :=
  let named (a : Nat) : Bool := match x with | .page lo n _ => inSpan lo n a | _ => true
  { s with
    walks := s.walks.map (fun w => if named w.line then { w with moving := false, pa := none } else w)
    svcs := s.svcs.map (fun e => (e.1, if e.2.moving.any named then { e.2 with moving := none } else e.2)) }

/-- PLBINV (R360). Entries are removed first, and the slot then waits for the accesses that they had checked. -/
def execPlbinv (o : Op) (s : State) : Host.Outcome State Fault Refusal :=
  runScalar 0xF4 o (do
    let a ← rdReg o.a
    let b ← rdReg o.b
    if 2 ^ 56 ≤ a.toNat || 2 ^ 12 ≤ b.toNat then raise .illegal (packWord0 0xF4 o)
    else
      releaseAll
      let s ← getS
      let (lo, n) := s.pageOf a.toNat b.toNat
      let x : InvScope := match o.m.toNat % 4 with | 0 => .page lo n b.toNat | 1 => .dom b.toNat | _ => .all
      let xlat := o.m.getLsbD 2
      let flush := o.m.getLsbD 3
      let s1 := s.invalidate x xlat
      let s2 := if flush then s1.flushPage lo n else s1
      if s2.accessesUnder x || (xlat && s2.rowsUnder x) ||
          (flush && s2.l2.any (fun l => inSpan lo n l.line)) then
        holdIn (s2.stallCur .release)
      else
        modS (fun _ => if xlat then s2.walkAgain x else s2)
        pure .next) s

/-- IBAR (R362). -/
def execIbar (o : Op) (s : State) : Host.Outcome State Fault Refusal :=
  runScalar 0xF5 o (do
    releaseAll
    let s ← getS
    let c := s.at_.1
    modS (fun s => { s with poison := s.poison.filter (fun p => match p with | .code d _ => d != c | _ => true) })
    modCurCore (fun x => { x with icache := [] })
    pure .next) s

/-! ### CYC, FGET, FCLR (R76, R350) -/

/-- CYC. -/
def execCyc (o : Op) (s : State) : Host.Outcome State Fault Refusal :=
  runScalar 0xF6 o (do
    let s ← getS
    dstX o.d (match s.cur with | .slot c _ => (s.core c).cyc | .svc n => (s.svc n).cyc)
    pure .next) s

/-- FGET. -/
def execFget (o : Op) (s : State) : Host.Outcome State Fault Refusal :=
  runScalar 0xF7 o (do
    flagsIn
    let t ← curThread
    dstX o.d t.fpctl
    pure .next) s

/-- FCLR. -/
def execFclr (o : Op) (s : State) : Host.Outcome State Fault Refusal :=
  runScalar 0xF8 o (do
    let a ← rdReg o.a
    flagsIn
    let t ← curThread
    dstX o.d t.fpctl
    let m : BitVec 7 := BitVec.ofNat 7 (i18f o 6 0) ||| a.setWidth 7
    modS (fun s => s.modThread (fun t => { t with flags := t.flags &&& ~~~m }))
    pure .next) s

end Sys2Proof.Machine
end

