-- ==== Sys2Proof/Machine/Halt.lean ====
section
/-! DEFINITION. Pre-emption (R364-R366), retirement and GKILL (R341), and the end of a team (R223). -/

namespace Sys2Proof.Machine

/-! ### Requests (R364) -/

/-- The slots that hold an actor or a guest, as (core, slot). -/
def State.heldSlots (s : State) : List (Nat × Nat) :=
  s.cores.flatMap (fun e => ((List.range 4).filter (fun k => (e.2.slot k).ident.isSome)).map (fun k => (e.1, k)))

/-- The domains that a request concerns. -/
def State.concerns (s : State) (p : Preempt) (dom : Nat) : Bool :=
  match p.scope with
  | 0 => (s.team p.arg).any (fun t => t.domain == dom)
  | 1 => (s.teamOnCore p.arg).any (fun t => t.domain == dom)
  | 2 => p.arg == dom
  | _ => true

/-- A request comes into force: its slots halt at their boundaries, and running kernels of its domains go to HALTING. What
its trace event carries in payload A is not stated (log entry 8). -/
def State.preempt (s : State) (p : Preempt) : State :=
  let (w, s0) := s.free
  let s1 := s0.modPort (fun q => { q with preempts := q.preempts ++ [p] })
  let s2 := s1.haltSlots (s1.heldSlots.filter (fun x => s1.inScope p x.1 x.2))
  let s3 : State := { s2 with kernels := s2.kernels.map (fun k => if k.st == .running && s2.concerns p k.dom then { k with st := .halting } else k) }
  s3.traceMeridian 0x09 (w.setWidth 48) 0

/-- PREEMPTION_REQUEST (R364): scope 0 a team, 1 a core, 2 a domain, 3 the device. -/
def execPreemptionRequest (scope arg : Nat) (s : State) : Host.Outcome State Fault Refusal :=
  .next (if 4 ≤ scope || s.port.preempts.contains { scope, arg } then s else s.preempt { scope, arg })

/-- What a slot is once it may run on: READY where its instruction waited with nothing of it in progress. -/
def Slot.resumed (sl : Slot) : Slot :=
  { sl with
    haltReq := false, halted := false, haltOps := 0
    status := match sl.status with
      | .stalled w => if sl.pend.isNone && sl.awayAt.isNone then .ready else .stalled w
      | st => st }

/-- A slot resumes at its boundary (R366); a sequence held for it is due to restart (R174). -/
def State.resumeSlot (s : State) (c k : Nat) : State :=
  if (s.slot c k).killed then s
  else (s.modCore c (fun x =>
    { x.setSlot k (x.slot k).resumed with
      mu := { x.mu with due := x.mu.due || (mseqHeld x.mu.mseq && mseqSlot x.mu.mseq == k) } })).sendBack c k

/-- A request is withdrawn: its slots that no other request names resume. -/
def State.withdraw (s : State) (p : Preempt) : State :=
  let s1 := s.modPort (fun q => { q with preempts := q.preempts.filter (· != p) })
  (s1.heldSlots.filter (fun x => s1.inScope p x.1 x.2 && !s1.port.preempts.any (fun q => s1.inScope q x.1 x.2))).foldl
    (fun s x => s.resumeSlot x.1 x.2) s1

/-- PREEMPTION_WITHDRAW (R366). -/
def execPreemptionWithdraw (scope arg : Nat) (s : State) : Host.Outcome State Fault Refusal :=
  .next (if s.port.preempts.contains { scope, arg } then s.withdraw { scope, arg } else s)

/-! ### Retirement (R341) -/

/-- Whether nothing of an instruction is in progress: a JOB that waits for its scheduler is taken at the boundary before it, and lanes
that wait behind a store that is held stay where they are. -/
def Slot.idlePend (sl : Slot) (held : Bool) : Bool :=
  match sl.pend with | none => true | some (.job _ _) => true | some (.stores _ _) => held | _ => false

/-- Whether a team pre-emption names the actor of a slot: it waits for the drains too (R235). -/
def State.teamHalts (s : State) (c k : Nat) : Bool := s.port.preempts.any (fun p => p.scope == 0 && s.inScope p c k)

/-- Whether slot k of core c has nothing outstanding: its stores performed and acknowledged, its loads and bank round trips
replied, its firing at home, the matrix operations that its core had queued done, its own sequence at a step (R365). Accesses that a
slice holds and that were taken back are not waited for (R321, R363), but for an actor that is being retired (R341). -/
def State.quiet (s : State) (c k : Nat) : Bool :=
  let x := s.core c
  let sl := x.slot k
  let held := s.headInSlice c k && !sl.dying
  sl.idlePend held && (sl.sq.isEmpty || held) && sl.comb.isEmpty && sl.unacked.isEmpty &&
    (sl.owed.isEmpty || (sl.owed.all (·.allBack) && !sl.dying)) && sl.awayAt.isNone &&
    sl.guest.isNone && !x.gathers.any (fun g => g.slot == k) && sl.haltOps == 0 && !x.mu.queue.any (fun op => op.slot == k) &&
    !(mseqActive x.mu.mseq && mseqSlot x.mu.mseq == k) && !(s.teamHalts c k && x.drains.any (fun d => d.slot == k && d.left != 0))

/-- The stream records that a slot owns stop (R303). -/
def Core.stopStreams (x : Core) (k : Nat) : Core :=
  { x with streams := x.streams.map (fun r => if r.active && r.owner.toNat == k then { r with active := false } else r) }

/-- Empty the QUEUE bank that was a mailbox. -/
def Bank.emptied (b : Bank) : Bank :=
  { b with heads := b.heads.map (fun _ => 0), counts := b.counts.map (fun _ => 0), hdrs := b.hdrs.map (fun _ => []) }

/-- Retire the actor of slot k of core c: its slot is IDLE with the state of R32, its mailbox is empty, and it leaves its
team's instances. A matrix sequence held for it runs on. -/
def State.retire (s : State) (c k : Nat) : State :=
  let sl := s.slot c k
  match sl.ident with
  | none => s
  | some i =>
    let s1 := (s.modBank c sl.act.mbox.toNat (·.emptied)).modCore c (fun x =>
      { (x.stopStreams k).setSlot k {} with
        mu := { x.mu with due := x.mu.due || (mseqHeld x.mu.mseq && mseqSlot x.mu.mseq == k) } })
    s1.modTeam i.team (fun t => { t with retired := t.retired ++ [(i.member, i.slot)] })

/-- A halt of slot k takes effect (R365); a slot that a double fault stopped is retired (R330). A STOREFAULT, or the fault of
a sequence's restart, that is pending at the boundary is taken first, and the slot then halts at KVEC (R174, R328). -/
def State.haltSlot (s : State) (c k : Nat) : State :=
  let s0 := s.flushComb c k (fun _ => true)
  let s1 := if (s.slot c k).dying then s0 else s0.takeBack c k
  let sl := s1.slot c k
  if !sl.haltReq || sl.halted || sl.ident.isNone || !s1.quiet c k then s1
  else if sl.killed then s1.retire c k
  else if sl.sfPending && !sl.dying && sl.atBoundary then s1.takeStorefault c k sl.thr.pc
  else match sl.seqFault with
  | some (cause, v) =>
    if sl.dying then s1.modSlot c k (fun x => { x with seqFault := none })
    else (s1.modSlot c k (fun x => { x with seqFault := none })).takeTrap c k cause v sl.thr.pc
  | none =>
    let pc := if sl.firing.isSome then sl.thr.pc else 0
    (s1.modSlot c k (fun x => { x with
      halted := true, pend := match x.pend with | some (.stores r n) => some (.stores r n) | _ => none })).traceCore c 0x0A (BitVec.ofNat 48 k) pc

/-- SLOT_HALT (R365). -/
def execSlotHalt (core slot : Nat) (s : State) : Host.Outcome State Fault Refusal :=
  .next (if (s.slot core slot).haltReq then s.haltSlot core slot else s)

/-! ### GKILL (R341) -/

/-- Whether no store or load of a slot is outstanding. -/
def Slot.drained (sl : Slot) : Bool := sl.sq.isEmpty && sl.comb.isEmpty && sl.unacked.isEmpty && sl.owed.isEmpty

/-- Where the member slots of an entry are: (core, slot) of each that is not retired, with its member. -/
def Team.slotPlaces (t : Team) (e : Nat) : List (Nat × Nat × Nat) :=
  (t.groupSlots e).filterMap (fun x => (t.coreOfMember x.1).map (fun c => (c, x.2, x.1)))

/-- Retire a member slot, or one whose actor was evicted: its AWAY mark is cleared. -/
def State.retireMember (s : State) (h : Nat) (x : Nat × Nat × Nat) : State :=
  let sl := s.slot x.1 x.2.1
  if sl.ident == some { team := h, member := x.2.2, slot := x.2.1 } && sl.guest.isNone then s.retire x.1 x.2.1
  else (s.modSlot x.1 x.2.1 (fun y => { y with away := none })).modTeam h (fun t => { t with retired := t.retired ++ [(x.2.2, x.2.1)] })

/-- The member slots of a GKILL are asked to halt, and are being retired from here on: their NIs launch nothing (R342), and a
denied store of theirs is dropped with no record (R341). -/
def State.condemn (s : State) (l : List (Nat × Nat)) : State :=
  l.foldl (fun s x => s.modSlot x.1 x.2 (fun y => { y with dying := true })) (s.haltSlots l)

/-- GKILL (R341): it halts the member slots of entry e, waits for them, and retires them all in one step. The issuing slot, where
it is a member, issues nothing meanwhile, and its own stores and replies are waited for. -/
def execGkill (o : Op) (s : State) : Host.Outcome State Fault Refusal :=
  runScalar 0xF9 o (do
    let a ← rdReg o.a
    match ← curTeam with
    | none => raise .domain a
    | some t =>
      if t.ngroup ≤ a.toNat then raise .domain a
      else
        let s ← getS
        let (c, k) := s.at_
        let all := t.slotPlaces a.toNat
        let others := all.filter (fun x => !(x.1 == c && x.2.1 == k))
        let mine := decide (others.length < all.length)
        let live := others.filter (fun x => (s.slot x.1 x.2.1).ident.isSome)
        let me := s.slot c k
        if !live.all (fun x => (s.slot x.1 x.2.1).halted) || (mine && (!me.drained || s.gathering c k (fun _ _ _ => true))) then
          askFor (fun s =>
            let s1 := s.condemn (live.map (fun x => (x.1, x.2.1)))
            let s2 := if mine then (s1.flushComb c k (fun _ => true)).modSlot c k (fun x => { x with dying := true }) else s1
            s2.stallCur .accept)
        else
          if mine then pure () else dstRoom o.d (BitVec.ofNat 64 all.length)
          modS (fun s => (all.foldl (fun s x => s.retireMember t.handle x) s).traceCore c 0x0E (BitVec.ofNat 48 a.toNat)
            (BitVec.ofNat 64 all.length))
          pure (if mine then .ended else .next)) s

/-! ### The end of a team (R223) -/

/-- A core holds nothing of a team: memory, banks, local queues, deque and stream records are empty, and the matrix unit is
not granted. A sequence that was held for a slot of the team leaves the unit: it is saved with the team, or has run to its end (DESIGN
CHOICE, log entry 53). -/
def Core.wiped (x : Core) : Core :=
  { x with
    mem := [], leg := [], banks := Vector.replicate 16 {}, queues := Vector.replicate 8 [], qerr := 0, qfault := [], qbad := []
    deque := []
    streams := Vector.replicate 4 {}, clock := 4000, ranges := x.dropSeqRange.ranges
    mu := { x.mu with en := false, mseq := setSeq x.mu.mseq (mseqActive x.mu.mseq) false, seqRange := none, seqFl := 0 } }

/-- Wipe a core, with the errors that its memory held. -/
def State.wipeCore (s : State) (c : Nat) : State :=
  { s.modCore c (·.wiped) with poison := s.poison.filter (fun p => match p with | .bank d _ => d != c | _ => true) }

/-- The slots that a team uses. -/
def Team.usedSlots (t : Team) : List (Nat × Nat) :=
  (List.range t.size).flatMap (fun m => ((List.range 4).filter (fun k => (lget none t.tmpls k).isSome)).map (fun k => (m, k)))

def Team.cores (t : Team) : List Nat := (List.range t.size).filterMap t.coreOfMember

/-- Whether a started job has a region in a core. -/
def State.jobIn (s : State) (c : Nat) : Bool :=
  s.clusters.any (fun e => e.2.cards.any (fun x =>
    (x.phase == .started || x.phase == .performed) && (x.reads ++ x.writes).any (fun r => r.isLocal && r.core == c)))

/-- Whether nothing that was issued on a core is still at work: matrix operations, drains, gathers and started jobs. -/
def State.coreQuiet (s : State) (c : Nat) : Bool :=
  let x := s.core c
  x.mu.queue.isEmpty && !mseqActive x.mu.mseq && !x.mu.due && x.drains.isEmpty && x.gathers.isEmpty && !s.jobIn c

/-- A team ends: its cores hold nothing of it, its cards that have not started are discarded. -/
def State.endTeam (s : State) (t : Team) : State :=
  let s1 := t.cores.foldl (fun s c => s.wipeCore c) s
  { s1.modTeam t.handle (fun t => { t with st := .ended, place := none }) with
    clusters := s1.clusters.map (fun e =>
      (e.1, { e.2 with cards := e.2.cards.filter (fun x => x.phase != .queued || x.ident.team != t.handle) })) }

/-- TEAM_END (R223): the last actor has been retired, and what it issued has ended. -/
def execTeamEnd (team : Nat) (s : State) : Host.Outcome State Fault Refusal :=
  .next (match s.team team with
    | none => s
    | some t =>
      if t.st == .resident && t.usedSlots.all t.retired.contains && t.cores.all s.coreQuiet then s.endTeam t else s)

end Sys2Proof.Machine
end

