-- ==== Sys2Proof/Machine/Evict.lean ====
section
/-! DEFINITION. What is saved of an actor (R369), its eviction and its restoration (R367-R371). -/

namespace Sys2Proof.Machine

/-! ### What a save holds (R369) -/

/-- The state of a slot that a save keeps: what R369 lists and nothing else. Records that STOREFAULT has not reported stay
unreported. -/
def Slot.saved (sl : Slot) : Slot :=
  { thr := sl.thr, v := sl.v
    regs := {
      bst := sl.regs.bst, livev := sl.regs.livev, vuseMode := sl.regs.vuseMode, vuseN := sl.regs.vuseN
      vlost := if sl.regs.vuseMode then BitVec.ofNat 4 (2 ^ 4 - 2 ^ (sl.regs.vuseN.toNat + 1)) else 0
      qos := sl.regs.qos, qwaitLimit := sl.regs.qwaitLimit, gslot := sl.regs.gslot, barpend := sl.regs.barpend
      xpc := sl.regs.xpc, xcause := sl.regs.xcause, xval := sl.regs.xval, infiring := sl.regs.infiring, prevk := sl.regs.prevk
      vwake := sl.regs.vwake, kscr := sl.regs.kscr, kvec := sl.regs.kvec, latch := sl.regs.latch, sfrqLost := sl.regs.sfrqLost }
    act := { sl.act with returns := 0 }
    km := sl.km, ident := sl.ident, firing := sl.firing, sent := min sl.sent 255, sfrq := sl.sfrq, sfReported := sl.sfReported
    ni := sl.ni }

/-- A saved retry entry starts again (R204, R370): one that waited to be resent waits NI.BACKOFF. -/
def NiEntry.again (base : Nat) (e : NiEntry) : NiEntry :=
  { e with upTo := 0, st := match e.st with | .backoff _ => .backoff base | st => st }

/-- Whether a retry entry has a message on the network. -/
def NiEntry.isFlying (e : NiEntry) : Bool := e.st == .flying

/-! ### The save area's words -/

def w64 (v : BitVec 64) : List Byte := bvBytes 8 v
def zeroBytes (n : Nat) : List Byte := List.replicate n 0
/-- Bytes padded with zeros to n. -/
def padTo (n : Nat) (bs : List Byte) : List Byte := bs ++ zeroBytes (n - bs.length)
/-- The word at an offset of a list of bytes. -/
def wordAt (bs : List Byte) (off n : Nat) : Nat := bytesToNat ((bs.drop off).take n)
def word64At (bs : List Byte) (off : Nat) : BitVec 64 := BitVec.ofNat 64 (wordAt bs off 8)

/-- The identity word. -/
def saveIdent (dom : Nat) (i : Ident) (mask : Nat) : BitVec 64 :=
  BitVec.ofNat 64 (dom + 2 ^ 12 * i.team + 2 ^ 28 * i.member + 2 ^ 40 * i.slot + 2 ^ 42 * mask)

/-- The STATE word. Above the fields of R369, bits 18 to 15 count the SFRQ records that have been reported (DESIGN CHOICE, log
entry 11). -/
def Slot.saveState (sl : Slot) : BitVec 64 :=
  let ch := match sl.firing with | some (.handler c) => c | some .task => 16 | none => 0
  BitVec.ofNat 64 (sl.firing.isSome.toNat + 2 * sl.km.toNat + 4 * ch + 2 ^ 7 * min sl.sent 255 + 2 ^ 15 * min sl.sfReported 8)

def SfrqRec.bytes (r : SfrqRec) : List Byte := w64 r.addr ++ w64 r.pc ++ w64 r.word ++ zeroBytes 8

/-- The states of a saved retry entry: its code and the REASON of one that is being returned. -/
def NiState.code : NiState → Nat × Nat
  | .backoff _ => (0, 0) | .held => (1, 0) | .returning r => (2, r) | .release => (3, 0) | .flying => (0, 0)

/-- A retry entry: header, payload, tries, state, and the address of its SEND (log entry 11). -/
def NiEntry.bytes (e : NiEntry) : List Byte :=
  let (code, reason) := e.st.code
  w64 (e.msg.header none) ++ bvBytes 32 e.msg.payload ++ w64 (BitVec.ofNat 64 (e.tries + 2 ^ 16 * e.refusals)) ++
    w64 (BitVec.ofNat 64 (code + 4 * reason + 2 ^ 6 * e.nr.toNat + 2 ^ 7 * e.bypass.toNat + 2 ^ 8 * e.behindReturn.toNat +
      2 ^ 9 * e.msg.dom + 2 ^ 63)) ++ w64 e.pc

/-- Words of a stream's descriptor (R299). -/
def Stream.descriptor (r : Stream) : List (BitVec 64) :=
  [r.base, r.stride,
   BitVec.ofNat 64 (r.count.toNat + 2 ^ 32 * r.esize.toNat + 2 ^ 40 * (r.qsel.toNat + 8 * r.noq.toNat) +
     2 ^ 48 * (r.isrc.toNat + 4 * r.iv.toNat)), 0]

/-- A stream record that the slot owns, running or not, or zeros. -/
def Stream.bytes (r : Stream) (k : Nat) : List Byte :=
  if r.owner.toNat == k then w64 r.strec ++ w64 r.strerr ++ r.descriptor.flatMap w64 ++ zeroBytes 16
  else zeroBytes 64

/-- The context part of a save: 0x1000 bytes. `latchBase` is a word that no rule defines. -/
def Slot.contextBytes (sl : Slot) (x : Core) (k dom mask : Nat) (i : Ident) (hstate latchBase : BitVec 64) : List Byte :=
  let r := sl.regs
  padTo 0x100 (w64 (saveIdent dom i mask) ++ w64 sl.saveState ++ w64 (if sl.firing.isSome then sl.thr.pc else 0)) ++
  (List.range 32).flatMap (fun n => w64 (sl.thr.getX n)) ++
  sl.v.toList.flatMap (fun v => bvBytes 32 v) ++
  (List.range 8).flatMap (fun n => bvBytes 4 (sl.thr.getP n)) ++
  [sl.thr.fpctl, r.bst.setWidth 64, r.livev.setWidth 64, r.vuse, r.qos.setWidth 64, r.qwaitLimit.setWidth 64,
   r.gslot.setWidth 64, r.barpend.setWidth 64].flatMap w64 ++
  ([r.xpc, r.xcause.setWidth 64, r.xval, sl.xstat] ++ r.kscr.toList).flatMap w64 ++
  sl.act.htab.toList.flatMap w64 ++
  [hstate, sl.act.abase, sl.act.acode, sl.amode, sl.act.backoff.setWidth 64, r.kvec, latchBase, 0].flatMap w64 ++
  r.latch.toList.flatMap w64 ++
  padTo 0x160 (padTo 0x100 ((sl.sfrq.take 8).flatMap (·.bytes)) ++ w64 (r.sfrqLost.setWidth 64)) ++
  padTo 0x400 ((sl.ni.take 16).flatMap (fun e => padTo 64 e.bytes)) ++
  x.streams.toList.flatMap (fun q => q.bytes k) ++
  zeroBytes 0x200

/-- Sixteen halfwords. -/
def half16 (l : List Nat) : List Byte := (List.range 16).flatMap (fun i => natToBytes 2 (lget 0 l i))

/-- The image of one bank: 0x2A00 bytes. A mailbox's headers stand in channel order, oldest first (log entry 11). -/
def State.bankBytes (s : State) (c b : Nat) (mailbox : Bool) : List Byte :=
  let x := s.bank c b
  let m := s.core c
  let tails := (List.range x.depths.length).map (fun i => (x.head i + x.count i) % max 1 (x.depth i))
  Mem.readN m.mem (b * 0x2000) 0x2000 ++
  (List.range 128).flatMap (fun j => bvBytes 2 (LegMap.read m.leg (b * 128 + j))) ++
  padTo 0x100 (w64 x.ctl ++ natToBytes 2 x.top ++ natToBytes 2 x.hcount ++ bvBytes 2 x.hseq ++ zeroBytes 2 ++
    bvBytes 64 x.used ++ half16 x.depths ++ half16 x.heads ++ half16 tails ++ half16 x.counts) ++
  padTo 0x800 (if mailbox then x.hdrs.flatten.flatMap w64 else [])

/-! ### Reading a save -/

/-- The firing that a STATE word names. -/
def savedFiring (w : Nat) : Option Firing :=
  if w % 2 == 0 then none else if bitsOf w 6 2 == 16 then some .task else some (.handler (bitsOf w 6 2 % 16))

def sfrqOf (bs : List Byte) : Option SfrqRec :=
  let w := wordAt bs 16 8
  if bitsOf w 63 63 == 0 then none
  else some { addr := word64At bs 0, pc := word64At bs 8, kind := bitsOf w 62 60, reason := bitsOf w 59 56, size := bitsOf w 6 0 }

/-- The retry entry of 64 saved bytes, for an actor now in slot k of core c. -/
def State.niEntryOf (s : State) (c k id : Nat) (i : Ident) (bs : List Byte) : Option NiEntry :=
  let h := wordAt bs 0 8
  let t := wordAt bs 40 8
  let w := wordAt bs 48 8
  if bitsOf w 63 63 == 0 then none
  else
    let a := bitsOf h 27 0
    let st : NiState := match w % 4 with | 0 => .backoff 0 | 1 => .held | 2 => .returning (bitsOf w 5 2) | _ => .release
    some { id, addr := BitVec.ofNat 64 a, dc := s.keyOf (some i.team) a, sys := adrSys a
           team := some i.team, nr := bitsOf w 6 6 == 1, bypass := bitsOf w 7 7 == 1, behindReturn := bitsOf w 8 8 == 1
           pc := word64At bs 56, tries := bitsOf t 15 0, refusals := bitsOf t 31 16, st
           msg := { retry := bitsOf h 63 63 == 1, wake := bitsOf h 61 61 == 1, source := s.physActor c k
                    dest := BitVec.ofNat 28 a, payload := BitVec.ofNat 256 (wordAt bs 8 32), dom := bitsOf w 20 9
                    tr := some (i.team, trActor i.member k) } }

/-- Pieces of n bytes. -/
def pieces (n : Nat) : Nat → List Byte → List (List Byte)
  | 0, _ => []
  | j + 1, bs => bs.take n :: pieces n j (bs.drop n)

/-- The slot that a context restores (R370): READY at its PC with a firing, else WAITING. Reserved bits of a saved word read 0 (R10). -/
def slotOfContext (bs : List Byte) (i : Ident) : Slot :=
  let st := wordAt bs 8 8
  let w (off j : Nat) : BitVec 64 := word64At bs (off + 8 * j)
  let fp := wordAt bs 0x620 8
  let vu := wordAt bs 0x638 8
  let xs := wordAt bs 0x678 8
  let am := wordAt bs 0x738 8
  let hs := wordAt bs 0x720 8
  let n : BitVec 2 := BitVec.ofNat 2 vu
  let off := bitsOf vu 2 2 == 1
  { thr := { x := Vector.ofFn (fun (j : Fin 32) => w 0x100 j.val)
             p := Vector.ofFn (fun (j : Fin 8) => BitVec.ofNat 32 (wordAt bs (0x600 + 4 * j.val) 4))
             pc := w 0x10 0, rm := BitVec.ofNat 3 fp, flags := BitVec.ofNat 7 (fp / 16) }
    v := Vector.ofFn (fun (j : Fin 32) => BitVec.ofNat 256 (wordAt bs (0x200 + 32 * j.val) 32))
    regs := {
      bst := (w 0x628 0).setWidth 3, livev := (w 0x630 0).setWidth 32, vuseMode := off, vuseN := n
      vlost := if off then BitVec.ofNat 4 (2 ^ 4 - 2 ^ (n.toNat + 1)) else 0
      qos := (w 0x640 0).setWidth 2, qwaitLimit := (w 0x648 0).setWidth 32, gslot := (w 0x650 0).setWidth 36
      barpend := (w 0x658 0).setWidth 35, xpc := w 0x660 0, xcause := (w 0x668 0).setWidth 9, xval := w 0x670 0
      infiring := bitsOf xs 2 2 == 1, prevk := bitsOf xs 1 1 == 1, vwake := bitsOf xs 0 0 == 1
      kscr := Vector.ofFn (fun (j : Fin 4) => w 0x680 j.val), kvec := w 0x748 0 &&& 0xFFFFFFFFFFFFFFFC
      latch := Vector.ofFn (fun (j : Fin 8) => w 0x760 j.val), sfrqLost := (w 0x8A0 0).setWidth 8 }
    act := {
      htab := Vector.ofFn (fun (j : Fin 16) => w 0x6A0 j.val &&& 0xFFFFFFFF000F0F07), en := BitVec.ofNat 16 hs, soft := BitVec.ofNat 16 (hs / 2 ^ 32)
      abase := w 0x728 0, acode := w 0x730 0, taske := BitVec.ofNat 8 (am / 2 ^ 8), worker := bitsOf am 4 4 == 1
      mbox := BitVec.ofNat 4 am, backoff := (w 0x740 0).setWidth 17 }
    status := if st % 2 == 1 then .ready else .waiting
    km := bitsOf st 1 1 == 1, ident := some i, firing := savedFiring st, sent := bitsOf st 14 7
    sfrq := (pieces 32 8 (bs.drop 0x7A0)).filterMap sfrqOf, sfReported := bitsOf st 18 15 }

/-- The retry entries of a context, each with a new number. -/
def State.niOfContext (s : State) (c k base : Nat) (i : Ident) (bs : List Byte) : List NiEntry × State :=
  (pieces 64 16 (bs.drop 0x900)).foldl (fun (a : List NiEntry × State) q =>
    match a.2.niEntryOf c k a.2.nextId i q with
    | none => a
    | some e => (a.1 ++ [e.again base], { a.2 with nextId := a.2.nextId + 1 })) ([], s)

/-- Restore the stream records of a context, those that the slot owned, and let them run on (R370). -/
def Core.streamsOfContext (x : Core) (k : Nat) (bs : List Byte) : Core :=
  ((pieces 64 4 (bs.drop 0xD00)).zipIdx).foldl (fun x e =>
    let q := e.1
    let strec := word64At q 0
    if bitsOf strec.toNat 61 60 != k || q.all (· == 0) then x
    else match streamOf (wordAt q 16 8) (wordAt q 24 8) (wordAt q 32 8) (wordAt q 40 8) with
      | none => x
      | some r =>
        let x1 := x.setStream e.2 { r.write strec with strerr := word64At q 8 }
        if strec.getLsbD 63 then x1.settleStream e.2 else x1) x

/-- Restore one bank from its image. -/
def State.restoreBank (s : State) (c b : Nat) (mailbox : Bool) (bs : List Byte) : State :=
  let ctl := setBits (word64At bs 0x2100) 4 3 0
  let n := if ctl.toNat % 8 == 1 then ctlSubq ctl.toNat + 1 else 0
  let halves (off : Nat) : List Nat := (List.range n).map (fun i => wordAt bs (off + 2 * i) 2)
  let counts := halves 0x21B0
  let hdrs := (List.range n).map (fun i =>
    if mailbox then (List.range (lget 0 counts i)).map (fun j => word64At bs (0x2200 + 8 * (sumNat (counts.take i) + j))) else [])
  let s1 := (s.wipeBank c b).wipeLegends c b
  (s1.modCore c (fun x => { x with
      mem := Mem.writeN x.mem (b * 0x2000) (bs.take 0x2000)
      leg := (List.range 128).foldl (fun l j => LegMap.write l (b * 128 + j) (BitVec.ofNat 16 (wordAt bs (0x2000 + 2 * j) 2))) x.leg })).modBank
    c b (fun _ =>
      { ctl, depths := halves 0x2150, heads := halves 0x2170, counts, top := wordAt bs 0x2108 2, hcount := wordAt bs 0x210A 2
        hseq := BitVec.ofNat 16 (wordAt bs 0x210C 2), used := BitVec.ofNat 512 (wordAt bs 0x2110 64), hdrs })

/-! ### AEVICT (R367) -/

/-- Whether an address names a slot of this device by its physical number. -/
def State.physAddress (s : State) (a : BitVec 64) : Bool :=
  bitsOf a.toNat 63 28 == 0 && !adrSys a.toNat && !adrTr a.toNat && adrDev a.toNat == s.ownDev

/-- The actor of a slot, when the slot is not a guest's. -/
def Slot.actor (sl : Slot) : Option Ident := if sl.guest.isSome then none else sl.ident

def maskBanks (m : Nat) : List Nat := (List.range 16).filter (fun b => m / 2 ^ b % 2 == 1)

/-- Write a save: 64-byte stores of core c from an address, in order. One that is denied ends it, with the reason (R336); a wait
leaves everything as it was. -/
def State.writeSave (s : State) (c cls : Nat) : Nat → List (List Byte) → Except Denied (State × Option (Nat × Nat))
  | _, [] => .ok (s, none)
  | a, bs :: rest =>
    match s.dirSetBlock 0 a bs none (some c) cls with
    | .ok s1 => s1.writeSave c cls (a + 64) rest
    | .error (.rights, _) => .ok (s, some (a, 1))
    | .error (.page, _) =>
      .ok (s, some (a, match s.authorize 0 a (·.w) (some c) with | .ok _ => 3 | .error _ => 2))
    | .error (d, _) => .error d

/-- What a slot waits on while a direct access of its instruction is held. -/
def Denied.wait (d : Denied) (w : Wait) : Wait := match d with | .guard => .guard | _ => w

/-- The address of a block with an uncorrectable error in the banks of a core that a save reads (R332). -/
def State.savedError (s : State) (c : Nat) (banks : List Nat) : Option (BitVec 64) :=
  s.poison.findSome? (fun p => match p with
    | .bank d b => if d == c && banks.contains (b / 128) then
        some (BitVec.ofNat 64 (0xFE * 2 ^ 56 + s.ownDev * 2 ^ 48 + c * 2 ^ 36 + 64 * b)) else none
    | _ => none)

/-- A core but for the range of a sequence that is held for slot k: it stays held, and an eviction does not wait for it (DESIGN CHOICE,
log entry 58). -/
def Core.withoutSeq (x : Core) (k : Nat) : Core := if mseqHeld x.mu.mseq && mseqSlot x.mu.mseq == k then x.dropSeqRange else x

/-- AEVICT (R367). It waits for accesses of the actor that a slice holds, for which its save has no room (R369; log entry 59). Its
steps after the waits are one step here: messages are accepted until the mark is set. -/
def execAevict (o : Op) (s : State) : Host.Outcome State Fault Refusal :=
  runScalar 0xFA o (do
    let a ← rdReg o.a
    let b ← rdReg o.b
    let m ← rdReg o.c
    let s ← getS
    let (c, k) := s.at_
    let (vc, vk) := (adrCore a.toNat, adrSlot a.toNat)
    let sl := s.slot vc vk
    match (if s.physAddress a && !(vc == c && vk == k) then sl.actor else none) with
    | none => raise .domain a
    | some i =>
      let mbox := sl.act.mbox.toNat
      let banks := maskBanks m.toNat
      let saved := (List.range 16).filter (fun j => j == mbox || banks.contains j)
      if 2 ^ 16 ≤ m.toNat || banks.contains mbox || banks.any (s.isMailbox vc) then raise .domain m
      else if saved.any (fun j => (s.bank vc j).spanned) then raise .bankop m
      else
        releaseAll
        let s ← getS
        let sl := s.slot vc vk
        let x := s.core vc
        if !sl.halted || !sl.sq.isEmpty || !sl.owed.isEmpty || x.drains.any (fun d => d.slot == vk) || sl.ni.any (·.isFlying) ||
            saved.any (fun j => (x.withoutSeq vk).held (j * bankBytes) bankBytes true) then
          askFor (fun s => (s.haltSlots [(vc, vk)]).stallCur .accept)
        else
          match s.savedError vc saved with
          | some x => raise .machinecheck x
          | none =>
          let (latchBase, s1) := s.free
          let mask := sumNat (saved.map (2 ^ ·))
          let image := sl.contextBytes x vk (s.domainOf vc vk) mask i (s.hstate vc vk) latchBase ++
            saved.flatMap (fun j => s.bankBytes vc j (j == mbox))
          match s1.writeSave c (s.slot c k).regs.qos.toNat (b.toNat / 64 * 64) (pieces 64 (image.length / 64) image) with
          | .error d => askFor (fun s => (s.park d).stallCur (d.wait .storeQueue))
          | .ok (s2, denied) =>
            let s3 := saved.foldl (fun s j => s.freshBank vc j 0 []) (s2.modCore vc (fun x => (x.withoutSeq vk).stopStreams vk))
            let s4 := s3.setSlot vc vk
              { ({} : Slot) with away := some { team := i.team, member := i.member, refused := sl.refused, ovf := sl.ovf } }
            modS (fun _ => match denied with
              | none => s4
              | some (addr, reason) =>
                s4.modSlot c k (·.sfrqPush { addr := BitVec.ofNat 64 addr, pc := s.thread.pc, kind := 0, reason, size := 64 }))
            dstRoom o.d (BitVec.ofNat 64 saved.length)
            pure .next) s

/-! ### ARESTORE (R370) -/

/-- n bytes read with domain 0 rights as loads of the slot: RIGHTS, PAGE or MACHINECHECK with the failing address. -/
def loadSys (a n : Nat) : M (List Byte) := fun s =>
  if 2 ^ 56 < a + n then .error (.trap .rights (BitVec.ofNat 64 a))
  else if s.poison.any (fun p => match p with | .line b => decide (line64 a ≤ b) && decide (b < a + n) | _ => false) then
    .error (.trap .machinecheck (BitVec.ofNat 64 a))
  else match s.dirRead 0 a n (some s.at_.1) (s.slot s.at_.1 s.at_.2).regs.qos.toNat with
    | .ok (bs, s1) => .ok (bs, s1)
    | .error (d, x) => match d.cause with
      | some cause => .error (.trap cause (BitVec.ofNat 64 x))
      | none => .error (.ask (fun s => (s.park d).stallCur (d.wait .memReply)))

/-- Place a restored slot with its retry entries and refused senders; a matrix sequence held for it is due (R174). -/
def State.placeSlot (s : State) (c k : Nat) (sl : Slot) : State :=
  (s.modCore c (fun x =>
    { x.setSlot k sl with mu := { x.mu with due := x.mu.due || (mseqHeld x.mu.mseq && mseqSlot x.mu.mseq == k) } })).underRequest c k

/-- ARESTORE (R370). -/
def execArestore (o : Op) (s : State) : Host.Outcome State Fault Refusal :=
  runScalar 0xFB o (do
    let a ← rdReg o.a
    let b ← rdReg o.b
    let s ← getS
    let (rc, rk) := (adrCore a.toNat, adrSlot a.toNat)
    match (if s.physAddress a then (s.slot rc rk).away else none) with
    | none => raise .domain a
    | some mark =>
      if b.toNat % 64 != 0 then raise .align b
      else
        releaseAll
        let ctx ← loadSys b.toNat 0x1000
        let w := wordAt ctx 0 8
        if bitsOf w 27 12 != mark.team || bitsOf w 39 28 != mark.member then raise .domain a
        else
          let banks := maskBanks (bitsOf w 57 42)
          let images ← (banks.zipIdx).foldlM (fun (acc : List (Nat × List Byte)) e => do
            let bs ← loadSys (b.toNat + 0x1000 + 0x2A00 * e.2) 0x2A00
            pure (acc ++ [(e.1, bs)])) []
          let i : Ident := { team := mark.team, member := mark.member, slot := rk }
          let sl := slotOfContext ctx i
          let mbox := sl.act.mbox.toNat
          modS (fun s => images.foldl (fun s e => s.restoreBank rc e.1 (e.1 == mbox) e.2) s)
          modS (fun s =>
            let (ni, s1) := s.niOfContext rc rk (max 1 sl.act.backoff.toNat) i ctx
            (s1.modCore rc (·.streamsOfContext rk ctx)).placeSlot rc rk { sl with ni, refused := mark.refused, ovf := mark.ovf })
          dstRoom o.d 0
          pure .next) s

end Sys2Proof.Machine
end

