-- ==== Sys2Proof/Machine/Launch.lean ====
section
/-! DEFINITION. Teams as the main scheduler holds them: KLAUNCH and its checks (R216-R219, R375), placement and launch
(R220, R221), swaps (R372, R373) and the quantum (R374). -/

namespace Sys2Proof.Machine

/-! ### The team descriptor (R216, R219) -/

def teamCap : Nat := 256

/-- What KLAUNCH reads: the descriptor, its templates, gazetteer entries, bitmaps and bank images. -/
structure TeamImage where
  desc : List Byte
  tmpls : List (Option (List Byte))
  gaz : List (List Byte)
  maps : List (List Byte)
  banks : List Byte
  deriving DecidableEq, Repr

/-- Whether the descriptor's own fields allow its parts to be read: NGROUP, and the alignment of each address. -/
def descReadable (d : List Byte) : Bool :=
  let w (i : Nat) : Nat := wordAt d (8 * i) 8
  bitsOf (w 0) 34 26 ≤ 256 && w 2 % 64 == 0 && w 3 % 8 == 0 && w 4 % 64 == 0 && [5, 6, 7, 8].all (fun i => w i % 64 == 0)

/-- Whether a gazetteer entry is in bitmap form. -/
def isBitmap (e : List Byte) : Bool := bitsOf (wordAt e 0 8) 2 2 == 1

/-- Read everything a descriptor names; none where an address is misaligned, which is a refusal and no fault. -/
def readTeam (a : Nat) : M (Option TeamImage) := do
  let desc ← loadSys a 128
  if !descReadable desc then pure none
  else
    let w (i : Nat) : Nat := wordAt desc (8 * i) 8
    let tmpls ← [5, 6, 7, 8].foldlM (fun (acc : List (Option (List Byte))) i =>
      if w i == 0 then pure (acc ++ [none])
      else do
        let bs ← loadSys (w i) 192
        pure (acc ++ [some bs])) []
    let n := bitsOf (w 0) 34 26
    let all ← if n == 0 then pure [] else loadSys (w 2) (64 * n)
    let gaz := pieces 64 n all
    if gaz.any (fun e => isBitmap e && wordAt e 8 8 % 64 != 0) then pure none
    else
      let maps ← gaz.foldlM (fun (acc : List (List Byte)) e =>
        if isBitmap e then do
          let bs ← loadSys (wordAt e 8 8) 512
          pure (acc ++ [bs])
        else pure (acc ++ [[]])) []
      let banks ← loadSys (w 3) 128
      pure (some { desc, tmpls, gaz, maps, banks })

/-- A template (R217); none where a field breaks it. -/
def templateOf (bs : List Byte) : Option Template :=
  let w (i : Nat) : Nat := wordAt bs (8 * i) 8
  let depths := (List.range 16).map (fun i => max 1 (wordAt bs (32 + 2 * i) 2))
  let htab := (List.range 16).map (fun i => BitVec.ofNat 64 (w (8 + i)))
  if w 0 % 4 != 0 || w 2 / 32 != 0 || w 3 / 2 ^ 35 != 0 || 256 < sumNat depths || htab.any (fun h => bitsOf h.toNat 11 8 == 0) then none
  else some {
    acode := BitVec.ofNat 64 (w 0), abase := BitVec.ofNat 64 (w 1), mbox := BitVec.ofNat 4 (w 2), worker := bitsOf (w 2) 4 4 == 1
    en := BitVec.ofNat 16 (w 3), soft := BitVec.ofNat 16 (w 3 / 2 ^ 16), vuse := BitVec.ofNat 3 (w 3 / 2 ^ 32)
    depths, htab := htab.map (fun h => h &&& 0xFFFFFFFF000F0F07) }

/-- The members of a gazetteer entry (R218). -/
def gazMembers (e map : List Byte) : List Nat :=
  let w0 := wordAt e 0 8
  let w1 := wordAt e 8 8
  if bitsOf w0 0 0 == 0 then []
  else if isBitmap e then
    (List.range 4096).filter (fun m => (lget 0 map (m / 8)).getLsbD (m % 8))
  else (List.range (bitsOf w1 24 12)).map (fun i => bitsOf w1 11 0 + i * bitsOf w1 36 25)

/-- A gazetteer entry; none where a field that must be zero is not, or a member is at or above TEAM. -/
def gazEntryOf (size : Nat) (e map : List Byte) : Option GazEntry :=
  let w0 := wordAt e 0 8
  let w1 := wordAt e 8 8
  let members := gazMembers e map
  let cmps : Vector Comparator 4 := Vector.ofFn (fun (i : Fin 4) =>
    { addr := word64At e (16 + 8 * i.val), ctl := BitVec.ofNat 32 (wordAt e (48 + 4 * i.val) 4) })
  if w0 / 2 ^ 8 != 0 || bitsOf w0 3 3 != 0 || (!isBitmap e && w1 / 2 ^ 37 != 0) || members.any (size ≤ ·) ||
      (List.range 4).any (fun i => (vget {} cmps i).ctl &&& cmpReserved i != 0) then none
  else some {
    valid := bitsOf w0 0 0 == 1, rebal := bitsOf w0 1 1 == 1, slots := BitVec.ofNat 4 (w0 / 2 ^ 4)
    members := (List.range size).filter members.contains, cmps }

/-- Every element, if every one is there. -/
def allSome {α : Type} : List (Option α) → Option (List α)
  | [] => some []
  | none :: _ => none
  | some a :: r => (allSome r).map (a :: ·)

/-- The team that an image describes, or none where R219 calls it malformed. -/
def teamOfImage (handle : Nat) (im : TeamImage) : Option Team :=
  let w (i : Nat) : Nat := wordAt im.desc (8 * i) 8
  let shape := w 0
  let ctl := w 1
  let t1 := bitsOf shape 4 0 + 1
  let t2 := bitsOf shape 9 5 + 1
  let t3 := bitsOf shape 11 10 + 1
  let ngroup := bitsOf shape 34 26
  let pin := bitsOf shape 24 24 == 1
  let calign := bitsOf shape 25 25 == 1
  let orgx := bitsOf shape 16 12
  let orgy := bitsOf shape 21 17
  let tmpls := im.tmpls.map (fun t => t.map templateOf)
  let banks := (List.range 16).map (fun b => word64At im.banks (8 * b))
  let mboxes := (tmpls.filterMap (fun t => t.bind (fun x => x))).map (·.mbox)
  match allSome ((im.gaz.zip im.maps).map (fun e => gazEntryOf (t1 * t2 * t3) e.1 e.2)) with
  | none => none
  | some gaz =>
    let team : Team :=
      { handle, w := t1, h := t2, s := t3, ngroup, calign, pin, orgx, orgy, orgs := bitsOf shape 23 22
        domain := bitsOf ctl 11 0, qos := bitsOf ctl 13 12
        steal := if bitsOf ctl 22 22 == 1 then some (bitsOf ctl 21 14) else none
        gaz, banks, image := w 4, tmpls := tmpls.map (fun t => t.bind (fun x => x)) }
    let groups (m k : Nat) : Nat := ((List.range ngroup).filter (fun e => team.inGroup e m k)).length
    if shape / 2 ^ 35 != 0 || ctl / 2 ^ 23 != 0 || !((im.desc.drop 72).all (· == 0)) ||
       tmpls.any (fun t => t == some none) || tmpls.all (·.isNone) || !(decide mboxes.Nodup) ||
       (pin && (32 < orgx + t1 || 32 < orgy + t2 || (calign && (orgx % 16 != 0 || orgy % 8 != 0)))) ||
       banks.zipIdx.any (fun b => (imageOk b.1.toNat 0 0 b.2).isNone || (b.1.toNat % 8 == 1 && ctlSubq b.1.toNat != 0)) ||
       team.usedSlots.any (fun x => 4 < groups x.1 x.2) ||
       (match team.steal with | some e => decide (ngroup ≤ e) | none => false) then none
    else some team

/-! ### KLAUNCH (R375) -/

/-- The next handle that no team which has not ended bears. -/
def State.freeHandle (s : State) : Nat :=
  let used := (s.teams.filter (fun t => t.st != .ended)).map (·.handle)
  (((List.range 257).map (fun i => (s.nextHandle + i) % 65536)).find? (fun h => !used.contains h)).getD (s.nextHandle % 65536)

/-- What KLAUNCH answers a descriptor: a reason, or the team it makes. -/
def State.launchCheck (s : State) (im : Option TeamImage) : Except Nat Team :=
  match im.bind (teamOfImage s.freeHandle) with
  | none => .error 1
  | some t =>
    if t.domain == 0 || (s.domEntry t.domain).isNone then .error 2
    else if 32 < t.w || 32 < t.h || 4 < t.s then .error 3
    else if teamCap ≤ (s.teams.filter (fun t => t.st != .ended)).length then .error 4
    else .ok t

/-- The scheduler accepts a team, behind those that wait. -/
def State.acceptTeam (s : State) (t : Team) : State :=
  let (n, s1) := s.fresh
  { s1 with nextHandle := (t.handle + 1) % 65536, teams := s.teams.filter (fun x => x.handle != t.handle) ++ [{ t with queuedAt := n }]
            port := { s.port with launched := true } }

/-- KLAUNCH (R375): the team waits in the scheduler for its placement. -/
def execKlaunch (o : Op) (s : State) : Host.Outcome State Fault Refusal :=
  runScalar 0xFC o (do
    let a ← rdReg o.a
    if a.toNat % 64 != 0 then raise .align a
    else if 2 ^ 56 ≤ a.toNat then raise .rights a
    else
      releaseAll
      let im ← readTeam a.toNat
      let s ← getS
      match s.launchCheck im with
      | .error r => dstRoom o.d (BitVec.ofNat 64 (2 ^ 63 + r))
      | .ok t =>
        modS (·.acceptTeam t)
        dstRoom o.d (BitVec.ofNat 64 t.handle)
      pure .next) s

/-! ### Placement (R220) -/

/-- The placement that a number names: x, y and the stacks as its digits; a pinned team has one. -/
def Team.placeOf (t : Team) (n : Nat) : Place :=
  if t.pin then { planes := (List.range t.s).map (fun i => (t.orgs + i) % 4), x := t.orgx, y := t.orgy }
  else { planes := (List.range t.s).map (fun i => n / 1024 / 4 ^ i % 4), x := n % 32, y := n / 32 % 32 }

/-- Whether a placement fits the device and the team's alignment. -/
def Team.fits (t : Team) (p : Place) : Bool :=
  p.planes.length == t.s && decide p.planes.Nodup && p.x + t.w ≤ 32 && p.y + t.h ≤ 32 &&
    (!t.calign || (p.x % 16 == 0 && p.y % 8 == 0))

/-- The cores of a placement. -/
def Team.coresAt (t : Team) (p : Place) : List Nat := (List.range t.size).map (t.coreAt p)

/-- Whether a mark is one that the scheduler may clear: that of a team that is swapped out. -/
def State.markCleared (s : State) (m : AwayMark) : Bool := (s.team m.team).any (fun t => t.st == .swapped)

/-- Whether the main scheduler places nothing on a core: it is retired, or a slice of its cluster is (R399; DESIGN CHOICE, log entry 41:
which cores a retired slice withdraws is not stated). -/
def State.coreRetired (s : State) (c : Nat) : Bool :=
  s.port.retired.contains (0, c) || s.port.retired.any (fun u => u.1 == 2 && u.2 / 16 == clusterOf c)

/-- Whether a core can become a member core: every slot IDLE with no AWAY mark, not retired, and nothing at work. -/
def State.coreFree (s : State) (c : Nat) : Bool :=
  !s.coreRetired c && s.coreQuiet c &&
    (s.core c).slots.toList.all (fun sl => sl.status == .idle && sl.ident.isNone && sl.reserved.isNone &&
      (match sl.away with | none => true | some m => s.markCleared m))

/-- Whether another resident team holds a core. -/
def State.coreHolder (s : State) (c : Nat) : Option Team := s.teamOnCore c

/-! A partition change (R397, R401): its map, and the partitions whose launches it stops. -/

def PartChange.part (x : PartChange) (k : Nat) : Nat := wordAt x.map k 1
def PartChange.remap (x : PartChange) (k : Nat) : Nat := wordAt x.map (32 + k) 1
def PartChange.group (x : PartChange) (g : Nat) : Nat := wordAt x.map (64 + g) 1

/-- The partition of cluster k now. -/
def State.partOf (s : State) (k : Nat) : Nat := (vget 0 s.port.clusterPart k).toNat

/-- The clusters that a map moves. -/
def State.movingClusters (s : State) (x : PartChange) : List Nat := (List.range 32).filter (fun k => x.part k != s.partOf k)

/-- The partitions that a change concerns: those that a cluster leaves or joins. -/
def State.partsConcerned (s : State) (x : PartChange) : List Nat :=
  (s.movingClusters x).flatMap (fun k => [s.partOf k, x.part k])

/-- Whether a partition change in progress stops launches on a core. -/
def State.launchStopped (s : State) (c : Nat) : Bool :=
  match s.port.parts with
  | x :: _ => (s.partsConcerned x).contains (s.partOf (clusterOf c))
  | [] => false

/-- Whether cores are being freed for another team that waits (R374). -/
def State.clearedFor (s : State) (t : Team) (p : Place) : Bool :=
  match s.port.clearing with
  | none => false
  | some (h, n) => h != t.handle && (s.team h).any (fun u => (u.coresAt (u.placeOf n)).any (fun c => (t.coresAt p).contains c))

/-- Whether a team can be placed now (R220, R374, R399, R401): its cores are free, and no request or change keeps it from them. -/
def State.canPlace (s : State) (t : Team) (p : Place) : Bool :=
  t.fits p && !s.clearedFor t p && (t.coresAt p).all (fun c => (s.coreHolder c).isNone && s.coreFree c && !s.launchStopped c) &&
    !s.port.preempts.any (fun q => match q.scope with
      | 0 => q.arg == t.handle | 1 => (t.coresAt p).contains q.arg | 2 => q.arg == t.domain | _ => true)

/-- The placements of a team, as numbers for `placeOf`. -/
def Team.places (t : Team) : List Nat :=
  if t.pin then [0]
  else
    ((List.range (4 ^ t.s)).filter (fun d => decide ((List.range t.s).map (fun i => d / 4 ^ i % 4)).Nodup)).flatMap (fun d =>
      (List.range (33 - t.h)).flatMap (fun y => (List.range (33 - t.w)).map (fun x => d * 1024 + y * 32 + x)))

def TeamState.waits (t : TeamState) : Bool := t == .queued || t == .swapped

/-- The teams that wait, in the order in which they began to: a team that is swapped out waits behind those that wait then (DESIGN
CHOICE, log entry 55: with the order of their KLAUNCHes it would be placed before them again, and the bound of R374 fail). -/
def State.waiting (s : State) : List Team :=
  let put (l : List Team) (t : Team) : List Team := l.takeWhile (·.queuedAt < t.queuedAt) ++ t :: l.dropWhile (·.queuedAt < t.queuedAt)
  (s.teams.filter (·.st.waits)).foldl put []

/-- Whether every team that has waited for longer cannot be placed now (R374). -/
def State.turnOf (s : State) (h : Nat) : Bool :=
  (s.waiting.takeWhile (fun t => t.handle != h)).all (fun t => !t.places.any (fun n => s.canPlace t (t.placeOf n)))

/-! ### Launch (R221) -/

/-- What the marks of swapped-out teams on a core hold goes into their saves, and the marks are cleared (R368): those of one
team, or all. -/
def State.clearMarks (s : State) (only : Option Nat) (c : Nat) : State :=
  (List.range 4).foldl (fun s k =>
    match (s.slot c k).away with
    | none => s
    | some m =>
      if only.any (· != m.team) then s
      else
      let put (x : CoreSave) : CoreSave :=
        let y := vget {} x.slots k
        let z : Slot := match y.ident with
          | some _ => { y with refused := m.refused, ovf := m.ovf }
          | none => { y with away := some m }
        { x with slots := vput x.slots k z }
      (s.modTeam m.team (fun t => { t with saves := t.saves.map (fun e => if e.1 == m.member then (e.1, put e.2) else e) })).modSlot
        c k (fun x => { x with away := none })) s

/-- Copy IMAGE into a core's local memory, legends included, with domain 0 rights. A block that cannot be read is open; one that is
held, at a MOVING page or the deep guard, holds the launch (R321, R358). -/
def State.copyImage (s : State) (c image : Nat) : Except Denied State :=
  (List.range 2048).foldlM (fun s b =>
    let put (r : List Byte × Legend × State) : State :=
      (r.2.2.modCore c (fun x => { x with mem := Mem.writeN x.mem (64 * b) r.1, leg := LegMap.write x.leg b r.2.1 })).carryPoison
        (.line (image + 64 * b)) (.bank c b) true
    match s.dirBlock 0 (image + 64 * b) with
    | .ok r => .ok (put r)
    | .error (d, _) =>
      if d.fails then
        let (bs, s1) := s.freeBytes 64
        let (w, s2) := s1.free
        .ok (put (bs, w.setWidth 16, s2))
      else .error d) s

/-- BANKCTL of a mailbox bank: QUEUE, 32-byte entries, SUBQ = 15. -/
def mailboxCtl : BitVec 64 := BitVec.ofNat 64 (1 + 2 ^ 27 + 15 * 2 ^ 28)

/-- Apply the BANKS images and make the mailboxes. -/
def State.launchBanks (s : State) (t : Team) (c : Nat) : State :=
  (t.banks.zipIdx).foldl (fun s e =>
    match (t.tmpls.filterMap (fun x => x)).find? (fun x => x.mbox.toNat == e.2) with
    | some x => s.freshBank c e.2 mailboxCtl x.depths
    | none =>
      let ctl := setBits e.1 4 3 0
      if ctl.toNat % 8 == 0 then s.modBank c e.2 (fun b => { b with ctl })
      else s.freshBank c e.2 ctl ((imageOk ctl.toNat 0 0 e.2).getD [])) s

/-- GSLOT of a member slot (R224): its groups in ascending entry number. -/
def Team.gslotOf (t : Team) (m k : Nat) : BitVec 36 :=
  let es := ((List.range t.ngroup).filter (fun e => t.inGroup e m k)).take 4
  BitVec.ofNat 36 (sumNat (es.zipIdx.map (fun e => e.1 * 2 ^ (8 * e.2) + 2 ^ (32 + e.2))))

/-- A slot as the launch leaves it: the state of R32 with the template's registers, WAITING. -/
def launchSlot (t : Team) (x : Template) (m k : Nat) (kvec : BitVec 64) : Slot :=
  let sl : Slot :=
    { regs := { qos := BitVec.ofNat 2 t.qos, gslot := t.gslotOf m k, kvec }
      act := { htab := Vector.ofFn (fun (i : Fin 16) => lget 0 x.htab i.val), en := x.en, soft := x.soft, abase := x.abase
               acode := x.acode, worker := x.worker, mbox := x.mbox }
      ident := some { team := t.handle, member := m, slot := k }, status := .waiting }
  sl.setVuse (x.vuse.setWidth 64)

/-- KVEC of a domain (R353); open where the domain is no longer valid. -/
def State.kvecOf (s : State) (d : Nat) : BitVec 64 × State :=
  match s.domEntry d with
  | some (_, kv, _) => (kv, s)
  | none => let (w, s1) := s.free; (w &&& 0xFFFFFFFFFFFFFFFC, s1)

/-- Grant the matrix unit to a domain (R157, R158). -/
def MatrixUnit.grant (u : MatrixUnit) (d : Nat) : MatrixUnit :=
  if u.domain == BitVec.ofNat 12 d then { u with en := true } else { en := true, domain := BitVec.ofNat 12 d }

/-- The launch on member m's core c. -/
def State.launchCore (s : State) (t : Team) (m c : Nat) (kvec : BitVec 64) : Except Denied State :=
  let s1 := (s.clearMarks none c).wipeCore c
  (if t.image == 0 then .ok s1 else s1.copyImage c t.image).map (fun s2 => (s2.launchBanks t c).modCore c (fun x =>
    { x with
      mu := x.mu.grant t.domain
      slots := Vector.ofFn (fun (k : Fin 4) =>
        match lget none t.tmpls k.val with | some y => launchSlot t y m k.val kvec | none => {}) }))

/-- A waiting team becomes resident: no cores are kept for it any longer. -/
def State.placed (s : State) (h : Nat) (f : Team → Team) : State :=
  (s.modTeam h f).modPort (fun p => { p with clearing := if p.clearing.any (·.1 == h) then none else p.clearing })

/-- TEAM_LAUNCH (R220, R221): a waiting team is placed, and every member core is set up before any firing starts. -/
def execTeamLaunch (team place : Nat) (s : State) : Host.Outcome State Fault Refusal :=
  .next (match s.team team with
    | none => s
    | some t =>
      let p := t.placeOf place
      if t.st != .queued || !s.canPlace t p || !s.turnOf team then s
      else
        let (kvec, s0) := s.kvecOf t.domain
        match (List.range t.size).foldlM (fun s m => s.launchCore t m (t.coreAt p m) kvec) s0 with
        | .error d => s.park d
        | .ok s1 => (s1.placed team (fun t => { t with st := .resident, place := some p, since := s.port.count })).rekey team)

/-! ### Swaps (R372, R373) -/

/-- The job cards of a member that have not started, in whichever scheduler they stand. -/
def State.memberCards (s : State) (h m : Nat) : List Card :=
  s.clusters.flatMap (fun z => z.2.cards.filter (fun x => x.phase == .queued && x.ident.team == h && x.ident.member == m))

/-- What a swap-out keeps of a member core, with its unstarted job cards (R372) and the accesses of its slots that a slice held (log
entry 59). -/
def Core.save (x : Core) (cards : List Card) : CoreSave :=
  { slots := x.slots.map (fun sl => match sl.ident with
      | some _ => { sl.saved with refused := sl.refused, ovf := sl.ovf, sq := sl.sq, owed := sl.owed, pend := sl.pend }
      | none => { ({} : Slot) with away := sl.away })
    queues := x.queues, qerr := x.qerr, qbad := x.qbad, mem := x.mem, leg := x.leg, banks := x.banks, mu := { x.mu with seqRange := none }
    deque := x.deque.map (fun t => { t with upTo := 0 }), streams := x.streams, qfault := x.qfault, cards }

/-- The AWAY mark that a swapped-out slot keeps (R368). -/
def Slot.swapMark (sl : Slot) : Option AwayMark :=
  match sl.ident with
  | some i => some { team := i.team, member := i.member, refused := sl.refused, ovf := sl.ovf }
  | none => sl.away

/-- Whether a member core can be saved: its actors halted, no message of theirs on its way, nothing at work. -/
def State.coreHalted (s : State) (h c : Nat) : Bool :=
  s.coreQuiet c && (s.core c).slots.toList.all (fun sl => sl.guest.isNone && sl.reserved.isNone &&
    (match sl.ident with | some i => i.team == h && sl.halted && !sl.ni.any (·.isFlying) | none => true))

/-- TEAM_SWAP_OUT (R372): a pre-empted team is saved, its cores are wiped, and its slots keep AWAY marks. Its unstarted cards stay in
their schedulers with their edges (R303), and the save that R372 makes of them is a copy (DEDUCED, log entry 57). -/
def execTeamSwapOut (team : Nat) (s : State) : Host.Outcome State Fault Refusal :=
  .next (match s.team team with
    | none => s
    | some t =>
      if t.st != .resident || !s.port.preempts.any (fun p => p.scope == 0 && p.arg == team) || !t.cores.all (s.coreHalted team) then s
      else
        let saves := (List.range t.size).filterMap (fun m =>
          (t.coreOfMember m).map (fun c => (m, (s.core c).save (s.memberCards team m))))
        let s1 := t.cores.foldl (fun s c =>
          (s.wipeCore c).modCore c (fun x => { x with slots := x.slots.map (fun sl => { ({} : Slot) with away := sl.swapMark }) })) s
        let (n, s2) := s1.fresh
        ((s2.modTeam team (fun t => { t with st := .swapped, place := none, saves, queuedAt := n })).modPort (fun p =>
          { p with preempts := p.preempts.filter (fun q => !(q.scope == 0 && q.arg == team)) })).rekey team)

/-- A store that was queued when its team was swapped out, at the team's new place. -/
def StoreReq.relocate (r : StoreReq) (s : State) (c k : Nat) : StoreReq :=
  let q : StoreReq := match r.chk with
    | .ok t kind => if !t.isLocal then r else match s.locate c k r.addr 1 with
        | some (.loc d core _ _) => { r with chk := .ok { dev := d, core, isLocal := true } kind }
        | _ => r
    | _ => r
  { q.fromCore s.ownDev c with counted := (q.fromCore s.ownDev c).counted || (q.op == .merged && q.counted) }

/-- The stores of a slot, at its team's new place. -/
def State.relocateStores (s : State) (c k : Nat) : State :=
  s.modSlot c k (fun x => { x with
    sq := x.sq.map (·.relocate s c k)
    pend := match x.pend with | some (.stores l n) => some (.stores (l.map (·.relocate s c k)) n) | p => p })

/-- A slot whose team is swapped in: it continues as ARESTORE has it (R370), and what a slice held of its accesses is sent again. -/
def State.swapSlot (s : State) (c k : Nat) (sl : Slot) : State :=
  match sl.ident with
  | none => s.setSlot c k sl
  | some i =>
    let ni := sl.ni.map (fun e =>
      { e.again (max 1 sl.act.backoff.toNat) with msg := { e.msg with source := s.physActor c i.slot } })
    let status := if sl.pend.isSome then .stalled .storeQueue else if sl.firing.isSome then .ready else .waiting
    ((s.placeSlot c k { sl with ni, status }).relocateStores c k).sendBack c k

/-- Restore member m on core c. -/
def State.swapCore (s : State) (x : CoreSave) (c : Nat) : State :=
  let s1 := (s.wipeCore c).modCore c (fun y =>
    { y with queues := x.queues, qerr := x.qerr, qbad := x.qbad, qfault := x.qfault, mem := x.mem, leg := x.leg, banks := x.banks
             mu := x.mu, deque := x.deque, streams := x.streams })
  (List.range 4).foldl (fun s k => s.swapSlot c k (vget {} x.slots k)) s1

/-- The cores whose slots bear a mark of a team. -/
def State.markedCores (s : State) (h : Nat) : List Nat :=
  (s.cores.filter (fun e => e.2.slots.toList.any (fun sl => match sl.away with | some m => m.team == h | none => false))).map Prod.fst

/-- TEAM_SWAP_IN (R372): a swapped-out team is restored at a placement. -/
def execTeamSwapIn (team place : Nat) (s : State) : Host.Outcome State Fault Refusal :=
  .next (match s.team team with
    | none => s
    | some t0 =>
      let p := t0.placeOf place
      if t0.st != .swapped || !s.canPlace t0 p || !s.turnOf team then s
      else
        let s0 := (s.markedCores team).foldl (fun s c => s.clearMarks (some team) c) s
        let s1 := (t0.coresAt p).foldl (fun s c => s.clearMarks none c) s0
        match s1.team team with
        | none => s
        | some t =>
          let s2 := s1.placed team (fun t => { t with st := .resident, place := some p, since := s.port.count, saves := [] })
          (t.saves.foldl (fun s e => s.swapCore e.2 (t.coreAt p e.1)) s2).rekey team)

/-! ### The quantum (R374) -/

/-- Whether a placement is free but for resident teams that have each held their cores for QUANTUM counts: those teams. -/
def State.evictable (s : State) (t : Team) (p : Place) : Option (List Nat) :=
  if !t.fits p || (t.coresAt p).any s.coreRetired then none
  else
    let hs := (t.coresAt p).filterMap s.coreHolder
    if hs.all (fun h => s.port.quantum.toNat ≤ (s.port.count - h.since).toNat) && !hs.isEmpty then
      some (s.teams.map (·.handle) |>.filter (fun h => hs.any (fun x => x.handle == h)))
    else none

/-- A quantum ends: where the team that has waited for the longest cannot be placed, the teams of the first placement that can be
freed are pre-empted for it, and no other team takes those cores before it. -/
def State.quantumEnd (s : State) : State :=
  let s1 := s.modPort (fun p => { p with quantumLeft := p.quantum.toNat })
  match s1.waiting.head? with
  | none => s1
  | some t =>
    if t.places.any (fun n => s1.canPlace t (t.placeOf n)) then s1
    else match t.places.findSome? (fun n => (s1.evictable t (t.placeOf n)).map (fun hs => (n, hs))) with
      | none => s1
      | some (n, hs) =>
        (hs.foldl (fun s h => if s.port.preempts.contains { scope := 0, arg := h } then s else s.preempt { scope := 0, arg := h }) s1).modPort
          (fun p => { p with clearing := some (t.handle, n) })

/-- QUANTUM_EXPIRY (R374). -/
def execQuantumExpiry (s : State) : Host.Outcome State Fault Refusal :=
  .next (if s.port.quantumLeft == 0 then s.quantumEnd else s)

end Sys2Proof.Machine
end

