-- ==== Sys2Proof/Machine/Deep.lean ====
section
/-! DEFINITION. The deep level (R305-R323): DEEP, kernels and their leases, the instructions of a stack vector core, row
accesses, and the arbitration of a channel. -/

namespace Sys2Proof.Machine

/-! ### Kernels and their SVCs (R316, R318, R320) -/

/-- The SVCs of a kernel's mask, in rank order. -/
def Kernel.svcs (k : Kernel) : List Nat := ((List.range 32).filter k.mask.getLsbD).map (fun c => 32 * k.stack + c)
/-- Those that have not reached DEND. -/
def Kernel.live (k : Kernel) : List Nat := k.svcs.filter (fun n => !k.ended.contains n)
def Kernel.rankOf (k : Kernel) (svc : Nat) : Nat := (k.svcs.takeWhile (· != svc)).length

/-- The kernel that an SVC works for. -/
def State.svcKernel (s : State) (n : Nat) : Option Kernel := (s.svc n).kernel.bind s.kernel

/-- Whether an SVC may issue: it runs code, no test halts it (R398), and its kernel is running and has met no fault. -/
def State.svcIssues (s : State) (n : Nat) : Bool :=
  (s.svc n).status == .running && !s.port.tests.any (fun t => t.kind == 1 && t.num == n) &&
    (match s.svcKernel n with | some k => k.st == .running && k.status == 0 | none => true)

/-- An SVC that no kernel holds: only its cycle counter goes on. -/
def Svc.freed (v : Svc) : Svc := { ({} : Svc) with cyc := v.cyc }

/-- Whether a kernel has an edge to an earlier one: the conditions of R287 over virtual blocks. -/
def Kernel.after (x y : Kernel) : Bool :=
  x.reads.any (fun r => y.writes.any r.meets) || x.writes.any (fun r => (y.reads ++ y.writes).any r.meets)

def State.haltKernel (s : State) (t : Nat) : State := s.modKernel t (fun k => { k with st := .halting })

/-! ### DEEP (R318, R319) -/

def kernelCap : Nat := 256

/-- Whether a store of the slot that has been sent is still on its way to a global line (R265). -/
def State.storeOnWay (s : State) (c k line : Nat) : Bool :=
  s.net.any (fun p => p.src == (c, k) && !p.isLocal && (match p.body with | .store r => r.part.overlaps (.glob line 64) | _ => false))

/-- The place of the slot's accesses to a line among its own (R265, R266, R269): a load of its page kind. -/
def blockOrder (a : Nat) : M Unit := do
  let s ← getS
  let (c, k) := s.at_
  if s.storeOnWay c k a then stallOn .storeQueue
  else match s.protWalk (s.checkDom c k) a with
    | some e => loadOrder e.kind { dev := (e.home a).1, core := (e.home a).2, isLocal := false } [.glob a 64]
    | none => loadOrder .rc { dev := s.ownDev, core := c, isLocal := false } [.glob a 64]

/-- 64 bytes that DEEP loads with the slot's rights: ALIGN, then RIGHTS and PAGE. -/
def loadBlock (a : BitVec 64) : M (List Byte) := do
  if a.toNat % 64 != 0 then raise .align a
  else if 2 ^ 56 ≤ a.toNat then raise .rights a
  else
    blockOrder a.toNat
    let s ← getS
    let (c, k) := s.at_
    match s.dirRead (s.checkDom c k) a.toNat 64 (some c) (s.slot c k).regs.qos.toNat with
    | .ok (bs, s1) =>
      if s.poison.contains (.line a.toNat) then raise .machinecheck a
      else
        modS (fun _ => s1)
        pure bs
    | .error (d, _) => match d.cause with
      | some cause => raise cause a
      | none => askFor (fun s => (s.park d).stallCur (d.wait .memReply))

/-- A global region of a footprint. -/
def footRegion (r : RegDesc) : Region := { isLocal := false, base := r.base, blocks := r.blocks, addr := r.base }

/-- Whether a card's words break R318. -/
def cardBad (w : Nat → Nat) : Bool :=
  w 0 % 64 != 0 || 2 ^ 56 ≤ w 0 || bitsOf (w 3) 31 0 == 0 || bitsOf (w 3) 63 35 != 0 || 5 ≤ bitsOf (w 4) 37 35 ||
    bitsOf (w 4) 63 50 != 0 || w 6 != 0 || w 7 != 0

/-- DEEP (R319). -/
def execDeep (o : Op) (s : State) : Host.Outcome State Fault Refusal :=
  runScalar 0xE7 o (do
    homeOnly
    let a0 ← rdReg o.a
    let a := a0 + byteOffset o
    let off ← recordSite a 64
    let ill := packWord0 0xE7 o
    let s ← getS
    let (c, k) := s.at_
    let w (i : Nat) : Nat := Mem.word (s.core c).mem (off + 8 * i) 8
    let done := BitVec.ofNat 64 (w 5)
    if cardBad w then raise .illegal ill
    else if !s.addressOk (((s.teamOf c k).map Team.size).getD 0) done.toNat then raise .rights done
    else
      let foot ← loadBlock (BitVec.ofNat 64 (w 2))
      let args ← if w 1 == 0 then pure (zeroBytes 64) else loadBlock (BitVec.ofNat 64 (w 1))
      let descs := (List.range 8).map (fun i => decodeRegion (wordAt foot (8 * i) 8))
      let regs := descs.map (fun d => d.getD none)
      if descs.any Option.isNone || regs.any (fun r => r.any (·.isLocal)) then raise .illegal ill
      else
        releaseAll
        let s ← getS
        if kernelCap ≤ (s.kernels.filter (fun x => x.st != .ended)).length then stallOn .accept
        else
          let part (l : List (Option RegDesc)) : List Region := l.filterMap (fun r => r.map footRegion)
          let x : Kernel := {
            ticket := s.nextTicket, card := a, ident := (s.slot c k).ident, dom := s.checkDom c k, code := w 0
            coden := bitsOf (w 4) 49 38, args := (List.range 8).map (fun i => word64At args (8 * i))
            reads := part (regs.take 4), writes := part (regs.drop 4), mask := BitVec.ofNat 32 (w 3), stack := bitsOf (w 3) 34 32
            expiry := bitsOf (w 4) 31 0, prio := bitsOf (w 4) 34 32, rm := BitVec.ofNat 3 (bitsOf (w 4) 37 35), done }
          let edges := (s.kernels.filter (fun y => y.st != .ended && x.after y)).map (·.ticket)
          modS (fun s => { s with
            nextTicket := s.nextTicket + 1
            kernels := s.kernels ++ [{ x with edges, st := if edges.isEmpty then .ready else .queued }] })
          dstRoom o.d (BitVec.ofNat 64 (x.ticket % 2 ^ 32))
          pure .next) s

/-! ### Row accesses (R310-R314) -/

/-- The checks of a line (R310): its frame. A walk that meets a MOVING leaf waits for PLBINV. The reads of the stack's translation
are of class 3 (R261). -/
def rowLine (a : BitVec 64) (write : Bool) : M Nat := fun s =>
  let i := s.svcAt
  let v := s.svc i
  let line := a.toNat
  if line % 256 != 0 then .error (.trap .align a)
  else match s.svcKernel i with
    | none => .error (.trap .rights a)
    | some k =>
      let inFoot (b : Nat) : Bool := k.writes.any (·.holds b) || (!write && k.reads.any (·.holds b))
      if !((List.range 4).all (fun j => inFoot (line + 64 * j))) then .error (.trap .rights a)
      else if v.moving == some line then .error (.stall .memReply)
      else match s.protWalk k.dom line with
        | none => .error (.trap .page a)
        | some e => match s.walkTokens (i / 64) (s.xlatReads (512 + i / 32) line) with
          | none => .error (.stall .memReply)
          | some s0 => match s0.translate (512 + i / 32) line with
          | (.fail, _) => .error (.trap .page a)
          | (.moving, s1) => .error (.hold (s1.modSvc i (fun x => { x with moving := some line })))
          | (.pa p _, s1) =>
            if !(if write then e.w else e.r) || channelOf p != i then .error (.trap .rights a) else .ok (p, s1)

/-- The checks of a buffer range (R310). -/
def bufferSpan (b : BitVec 64) (n : Nat) : M Nat :=
  if b.toNat % 64 != 0 then raise .align b
  else if bufferBytes < b.toNat + n then raise .rights b
  else pure b.toNat

/-- Enter a row access: it retires at issue and stands in the row scoreboard (R311). -/
def enterRow (r : RowAccess) : M Flow := do
  let v ← curSvc
  if 8 ≤ v.rows.length then stallOn .range
  else
    modCurSvc (fun x => { x with rows := x.rows ++ [r] })
    pure .next

/-- RDROW (R314). -/
def execRdrow (o : Op) (s : State) : Host.Outcome State Fault Refusal :=
  runScalar 0xE8 o (do
    let a ← rdReg o.a
    let b ← rdReg o.b
    let line := a + byteOffset o
    let pa ← rowLine line false
    let off ← bufferSpan b 256
    enterRow { line := line.toNat, pa, off, write := false }) s

/-- WRROW (R314). -/
def execWrrow (o : Op) (s : State) : Host.Outcome State Fault Refusal :=
  runScalar 0xE9 o (do
    let a ← rdReg o.a
    let b ← rdReg o.b
    let line := a + byteOffset o
    let pa ← rowLine line true
    let off ← bufferSpan b 256
    enterRow { line := line.toNat, pa, off, write := true }) s

/-- The lines of a SCANROW with their frames. -/
def scanLines (ls : List Nat) : M (List (Nat × Nat)) :=
  ls.foldlM (fun acc l => do
    let pa ← rowLine (BitVec.ofNat 64 l) false
    pure (acc ++ [(l, pa)])) []

/-- Enter a SCANROW: it retires at issue (R311), and its waves follow. -/
def enterScan (o : Op) (off : Nat) (sc : Scan) : M Flow := do
  let v ← curSvc
  if 8 ≤ v.rows.length then stallOn .range
  else
    let s ← getS
    let r : RowAccess := { line := 0, pa := 0, off, write := false, scan := some sc }
    holdIn ((s.noteIssue.modSvc s.svcAt (fun x => { x with rows := x.rows ++ [r], scan := none })).advance o.len .next)

/-- SCANROW (R314): its checks are made before any line is read. After a pre-emption it reissues from the line that DPROG counts, and
the lines that remain are checked again. -/
def execScanrow (o : Op) (s : State) : Host.Outcome State Fault Refusal :=
  runScalar 0xEA o (do
    let v ← curSvc
    match v.scan with
    | some sc =>
      let b ← rdReg o.b
      let rest ← scanLines ((sc.lines.drop sc.next).map Prod.fst)
      let off ← bufferSpan b (256 * sc.lines.length)
      enterScan o off { lines := sc.lines.take sc.next ++ rest, next := sc.next, wave := sc.next, read := sc.next }
    | none =>
      let a ← rdReg o.a
      let b ← rdReg o.b
      let n := (← rdReg o.c).toNat
      if n == 0 || 256 < n then raise .illegal (packWord0 0xEA o)
      else if a.toNat % 8 != 0 then raise .align a
      else if bufferBytes < a.toNat + 8 * n then raise .rights a
      else
        let bs ← bufferLoad a (8 * n)
        let lines ← scanLines ((List.range n).map (fun i => wordAt bs (8 * i) 8))
        let off ← bufferSpan b (256 * n)
        enterScan o off { lines }) s

/-- Whether the caches' copies of a line can be written back: the links to its channel carry traffic (R382). -/
def State.rowClear (s : State) (line : Nat) : Bool := s.l2.all (fun l => l.line != line || s.canWriteBack l)

/-- Write a line's frame from a buffer, with its legends and errors. What the caches hold of the line, filled for a block of it that is
no footprint's, leaves them first (R321). -/
def State.rowOut (s : State) (n line pa off : Nat) : State :=
  let s := (s.l2.filter (fun l => l.line == line)).foldl (fun s l => s.evictL2 l.line l.slice) s
  let v := s.svc n
  let s1 : State := { s with
    hbm := Mem.writeN s.hbm pa (Mem.readN v.mem off 256)
    hbmLeg := (List.range 4).foldl (fun l i => LegMap.write l (pa / 64 + i) (LegMap.read v.leg (off / 64 + i))) s.hbmLeg }
  let clean := s1.poison.filter (fun p => match p with
    | .line a => !(line ≤ a && a < line + 256) | .frame a => !(pa ≤ a && a < pa + 256) | _ => true)
  let bad := ((List.range 4).filter (fun i => s1.poison.contains (.buffer n (off / 64 + i)))).map (fun i => Poison.line (line + 64 * i))
  { s1 with poison := clean ++ bad }

/-- ROW_ACCESS_PERFORMED (R311): the oldest row access of an SVC, once its channel has served it. -/
def execRowAccessPerformed (svc : Nat) (s : State) : Host.Outcome State Fault Refusal :=
  .next (match (s.svc svc).rows with
    | [] => s
    | r :: rest =>
      if !r.served || r.scan.isSome || (r.write && !s.rowClear r.line) then s
      else
        let s1 := if r.write then s.rowOut svc r.line r.pa r.off else s.rowIn svc r.line r.pa r.off
        s1.modSvc svc (fun v => { v with rows := rest }))

/-- The end of the wave that begins at line `next`: the lines that fall in at most LIMIT banks. -/
def waveEnd (limit : Nat) (next : Nat) : List (Nat × Nat) → List Nat → Nat
  | [], _ => next
  | (_, pa) :: r, banks =>
    let bs := if banks.contains (Config.dramBank pa) then banks else Config.dramBank pa :: banks
    if limit < bs.length then next else waveEnd limit (next + 1) r bs

/-- The SCANROW that is the oldest row access of an SVC. -/
def Svc.headScan (v : Svc) : Option (RowAccess × Scan) := v.rows.head?.bind (fun r => r.scan.map (fun sc => (r, sc)))

/-- A wave is done: DPROG counts its lines, and the SCANROW is over with the last. -/
def Svc.waveDone (v : Svc) (sc : Scan) : Svc :=
  if sc.lines.length ≤ sc.wave then { v with rows := v.rows.drop 1, dprog := 0 }
  else { v.setHeadScan { sc with next := sc.wave } with dprog := BitVec.ofNat 9 sc.wave }

/-- SCANROW_WAVE (R314): a wave's activation begins within the channel's LIMIT, once the older row accesses are performed; or the wave,
whose lines the channel has read, is complete. Between waves a SCANROW that no later instruction follows stops with its SVC. -/
def execScanrowWave (svc : Nat) (s : State) : Host.Outcome State Fault Refusal :=
  .next (match (s.svc svc).headScan with
    | none => s
    | some (_, sc) =>
      if sc.next < sc.wave then (if sc.read < sc.wave then s else s.modSvc svc (·.waveDone sc))
      else if !sc.past && !s.svcIssues svc then s
      else
        let wave := waveEnd (max 1 (s.channel svc).limit) sc.next (sc.lines.drop sc.next) []
        s.modSvc svc (·.setHeadScan { sc with wave }))

/-- LIMIT of a channel changes (R314, R402). A wave in activation keeps the lines already activated, a number the spec leaves
open, those already read among them; the others are issued again, and WAVES counts it. -/
def State.setLimit (s : State) (ch limit : Nat) : State :=
  let u := s.channel ch
  let s1 := s.modChannel ch (fun u => { u with limit })
  match (s.svc ch).headScan with
  | none => s1
  | some (_, sc) =>
    if u.limit ≤ limit || sc.wave ≤ sc.next then s1
    else
      let (w, s2) := s1.free
      let cut := sc.read + w.toNat % (sc.wave - sc.read + 1)
      let s3 := s2.modSvc ch (·.setHeadScan { sc with wave := cut })
      if cut < sc.wave then s3.modChannel ch (fun u => { u with waves := if u.waves == BitVec.allOnes 32 then u.waves else u.waves + 1 })
      else s3

/-! ### DOT16 (R315) -/

/-- The 64 bytes and the legend of a buffer block. -/
def Svc.block (v : Svc) (off : Nat) : List FVal :=
  let l := LegMap.read v.leg (off / 64)
  (Mem.readN v.mem off 64).map (fun b => decodeElem b.toNat l)

/-- One lane: four groups of sixteen products, ascending. -/
def dotLane (a : List FVal) (b : List (List FVal)) (n acc rm : Nat) : Nat × Flags :=
  let col := b.map (fun r => lget fzero r n)
  (List.range 4).foldl (fun (x : Nat × Flags) g =>
    let (v, f) := exactGroupSum x.1 (group16 a g) (group16 col g) rm
    (v, x.2 ||| f)) (acc, 0)

/-- DOT16 (R315). -/
def execDot16 (o : Op) (s : State) : Host.Outcome State Fault Refusal :=
  runLanes 0xEB o (do
    let a ← rdReg o.a
    let b ← rdReg o.b
    if a.toNat % 64 != 0 then raise .align a
    else if b.toNat % 64 != 0 then raise .align b
    else if bufferBytes < a.toNat + 64 then raise .rights a
    else if bufferBytes < b.toNat + 4096 then raise .rights b
    else
      let v ← curSvc
      let s ← getS
      let offs := a.toNat :: (List.range 64).map (fun k => b.toNat + 64 * k)
      if v.rowHeld a.toNat 64 false || v.rowHeld b.toNat 4096 false then stallOn .range
      else match offs.find? (fun x => s.poison.contains (.buffer s.svcAt (x / 64))) with
        | some x => raise .machinecheck (BitVec.ofNat 64 x)
        | none =>
          match offs.find? (fun x => !isB8 (legFmt (LegMap.read v.leg (x / 64)))) with
          | some x => raise .format (BitVec.ofNat 64 x)
          | none =>
            let old ← rdV (regNum o.d)
            let rm ← roundMode
            let mask ← laneMaskM o 32
            let h := if o.m.getLsbD 0 then 32 else 0
            let ra := v.block a.toNat
            let rb := (List.range 64).map (fun k => v.block (b.toNat + 64 * k))
            let res := ((lanes 32 old 32).zipIdx.zip mask).map (fun e =>
              if e.2 then dotLane ra rb (h + e.1.2) e.1.1 rm else (e.1.1, 0))
            setFlags (res.foldl (fun f x => f ||| x.2) 0)
            dstLanes o.d 32 mask (res.map Prod.fst)
            pure .next) s

/-! ### DARG, DEND, DYIELD (R316) -/

/-- DARG (R316). -/
def execDarg (o : Op) (s : State) : Host.Outcome State Fault Refusal :=
  runScalar 0xEE o (do
    let s ← getS
    let i := i18f o 3 0
    let k := s.svcKernel s.svcAt
    let v : BitVec 64 := match k with
      | none => 0
      | some k =>
        if i < 8 then lget 0 k.args i
        else if i == 8 then BitVec.ofNat 64 (k.rankOf s.svcAt)
        else if i == 9 then BitVec.ofNat 64 k.svcs.length
        else BitVec.ofNat 64 (k.ticket % 2 ^ 32)
    wrX (regNum o.d) v
    pure .next) s

/-- An SVC's part of its kernel is over: its flags and its code are recorded, and it is free. -/
def State.svcDone (s : State) (n code : Nat) : State :=
  let v := s.svc n
  match v.kernel with
  | none => s.modSvc n (fun v => { v with status := .ended code })
  | some t =>
    (s.modKernel t (fun k => { k with
      ended := k.ended ++ [n], flags := k.flags ||| v.thr.flags, code0 := if v.rank == 0 then code else k.code0 })).modSvc n (·.freed)

/-- DEND (R316): it waits for the row accesses of the SVC. -/
def execDend (o : Op) (s : State) : Host.Outcome State Fault Refusal :=
  runScalar 0xEC o (do
    let v ← curSvc
    if !v.rows.isEmpty then stallOn .fence
    else
      modS (fun s => s.svcDone s.svcAt (i18f o 15 0))
      pure .ended) s

/-- The READY kernels that wait for an SVC that a kernel holds. -/
def State.waitingFor (s : State) (k : Kernel) : List Kernel :=
  s.kernels.filter (fun y => y.st == .ready && y.ticket != k.ticket && y.svcs.any (fun i => (s.svc i).kernel == some k.ticket))

/-- DYIELD (R316): the lease check. -/
def execDyield (o : Op) (s : State) : Host.Outcome State Fault Refusal :=
  runScalar 0xED o (do
    let s ← getS
    match s.svcKernel s.svcAt with
    | none => pure .next
    | some k =>
      let ws := s.waitingFor k
      if ws.any (fun y => k.prio ≤ y.prio) then
        modS (fun s => (s.haltKernel k.ticket).modKernel k.ticket (fun x => { x with behind := ws.map (·.ticket) }))
        pure .next
      else pure .next) s

/-! ### Leases (R306, R320, R321) -/

/-- A place in the grant order of R320: by PRIO, highest first, then by ticket. -/
def grantBefore (a b : Nat × Nat) : Bool := decide (b.1 < a.1) || (a.1 == b.1 && decide (a.2 < b.2))

/-- The place of a READY kernel: its own, or that of a kernel that yielded to it, and so waits for it, where that comes first (R316). -/
def State.grantPlace (s : State) : Nat → Kernel → Nat × Nat
  | 0, k => (k.prio, k.ticket)
  | f + 1, k => (s.kernels.filter (fun x => x.st == .ready && x.behind.contains k.ticket)).foldl (fun best x =>
      let p := s.grantPlace f x
      if grantBefore p best then p else best) (k.prio, k.ticket)

/-- The running or halting kernels that hold an SVC of a kernel's mask. -/
def State.svcHolders (s : State) (k : Kernel) : List Kernel := k.svcs.filterMap s.svcKernel

/-- Whether a READY kernel can be granted (R320): no READY kernel that it yielded to remains, no request keeps it from running, none of
its SVCs or their channels is retired (R399), and each of its SVCs is free, is being freed, or is held by a running kernel of lower PRIO. -/
def State.grantable (s : State) (k : Kernel) : Bool :=
  k.st == .ready && !s.kernels.any (fun x => x.st == .ready && k.behind.contains x.ticket) &&
  !s.port.preempts.any (fun p => s.concerns p k.dom) && !k.live.any (fun i => s.port.retired.contains (1, i) || s.port.retired.contains (3, i)) &&
  (s.svcHolders k).all (fun h => h.st == .halting || (h.st == .running && h.status == 0 && h.prio < k.prio))

/-- Whether kernel x is granted before kernel k, where both can be: by the places of R320 with the precedence of R316. -/
def State.goesFirst (s : State) (x k : Kernel) : Bool :=
  let n := s.kernels.length
  let (px, pk) := (s.grantPlace n x, s.grantPlace n k)
  grantBefore px pk || (px == pk && grantBefore (x.prio, x.ticket) (k.prio, k.ticket))

/-- The context of an SVC that a kernel resumes with. -/
def Svc.resume (v : Svc) (x : SvcSave) : Svc :=
  { v with
    thr := x.thr, w := x.w, mem := x.mem, leg := x.leg, dprog := x.dprog, status := x.status, scan := x.scan }

/-- A kernel takes every SVC of its mask (R320): it is CLEANING at its first grant, and goes on RUNNING after a pre-emption. One that
had reached DEND is held and runs nothing. -/
def State.grantKernel (s : State) (k : Kernel) : State :=
  let s1 := k.svcs.foldl (fun s n => s.modSvc n (fun v =>
    let g : Svc := { v.freed with kernel := some k.ticket, rank := k.rankOf n, left := if k.expiry == 0 then none else some k.expiry }
    match k.saves.find? (fun x => x.1 == n) with
    | some x => g.resume x.2
    | none => g)) s
  let s2 := s1.modKernel k.ticket (fun x => { x with st := if x.begun then .running else .cleaning, saves := [], behind := [] })
  let s3 : State := { s2 with kernels := s2.kernels.map (fun x => { x with behind := x.behind.filter (· != k.ticket) }) }
  s3.traceMeridian 0x05 (BitVec.ofNat 48 k.ticket) (BitVec.ofNat 64 (k.mask.toNat + 2 ^ 32 * k.stack))

/-- LEASE_GRANT (R320): of the READY kernels that can be granted, the first takes its SVCs once they are free; running kernels of lower
PRIO that hold one are pre-empted for it. -/
def execLeaseGrant (n : Nat) (s : State) : Host.Outcome State Fault Refusal :=
  .next (match s.kernel n with
    | none => s
    | some k =>
      if !s.grantable k || s.kernels.any (fun x => x.ticket != n && s.grantable x && s.goesFirst x k) then s
      else
        let holders := s.svcHolders k
        if holders.isEmpty then s.grantKernel k
        else holders.foldl (fun s h => if h.st == .running && h.status == 0 && h.prio < k.prio then s.haltKernel h.ticket else s) s)

/-- Whether a line holds a block of one of the regions. -/
def lineIn (rs : List Region) (line : Nat) : Bool := (List.range 4).any (fun i => rs.any (·.holds (line + 64 * i)))

/-- A line of a read footprint is written back and stays clean in its slice; its L1 copies leave. -/
def State.cleanLine (s : State) (l : L2Line) : State :=
  let parts := s.cores.flatMap (fun e =>
    if clusterOf e.1 == l.slice / 16 then (e.2.l1.filter (fun x => line256 x.line == l.line)).map (fun x => (e.1, x)) else [])
  let s1 := parts.foldl (fun s p => (s.writeBackL1 p.1 p.2).dropL1 p.1 p.2.line) s
  match s1.l2.find? (fun x => x.line == l.line && x.slice == l.slice) with
  | none => s1
  | some x =>
    let s2 := s1.writeBackL2 x
    { s2 with l2 := s2.l2.map (fun y => if y.line == l.line && y.slice == l.slice then { y with dirty := 0, legDirty := 0 } else y) }

/-- The footprints are cleaned (R321). -/
def State.cleanFoot (s : State) (k : Kernel) : State :=
  let s1 := (s.l2.filter (fun l => lineIn k.writes l.line)).foldl (fun s l => s.evictL2 l.line l.slice) s
  (s1.l2.filter (fun l => lineIn k.reads l.line)).foldl (fun s l => s.cleanLine l) s1

/-- An SVC begins a kernel (R306). -/
def Svc.start (v : Svc) (code : List Byte) (rm : BitVec 3) : Svc :=
  { v with thr := { rm }, w := Vector.replicate 32 0, mem := Mem.writeN [] 0 code, leg := [], dprog := 0, status := .running }

/-- Whether the links carry traffic that a kernel's cleaning and the reading of its code need (R382). -/
def State.cleanable (s : State) (k : Kernel) : Bool :=
  s.l2.all (fun l => !(lineIn k.writes l.line || lineIn k.reads l.line) || s.canWriteBack l) &&
    (List.range (k.coden + 1)).all (fun i => match s.authorize k.dom (k.code + 64 * i) (·.r) with
      | .ok (dev, h) => dev != s.ownDev || s.stacksJoined (coreStack h) (k.stack / 2)
      | .error _ => true)

/-- CLEANING_DONE (R320, R321): the footprint is cleaned and guarded, the code is copied and every SVC runs; where the code
image cannot be read the kernel ends with STATUS LOAD. -/
def execCleaningDone (n : Nat) (s : State) : Host.Outcome State Fault Refusal :=
  .next (match s.kernel n with
    | none => s
    | some k =>
      if k.st != .cleaning || !s.cleanable k then s
      else match s.dirRead k.dom k.code (64 * (k.coden + 1)) with
        | .error (d, _) => if d.fails then s.modKernel n (fun k => { k with st := .halting, status := 2 }) else s.park d
        | .ok (code, s1) =>
          let s2 := s1.cleanFoot k
          let bad := (List.range (k.coden + 1)).filter (fun i => s2.poison.contains (.line (k.code + 64 * i)))
          let s3 := k.live.foldl (fun s i => s.modSvc i (·.start code k.rm)) s2
          let s4 : State := { s3 with
            poison := s3.poison.filter (fun p => match p with | .buffer m _ => !k.live.contains m | _ => true) ++
              k.live.flatMap (fun i => bad.map (Poison.buffer i)) }
          s4.modKernel n (fun k => { k with st := .running, guard := true, begun := true }))

/-- KERNEL_LEASE_EXPIRY (R320). -/
def execKernelLeaseExpiry (n : Nat) (s : State) : Host.Outcome State Fault Refusal :=
  .next (match s.kernel n with
    | none => s
    | some k =>
      if k.st != .running || k.status != 0 then s
      else match k.live.find? (fun i => (s.svc i).left == some 0) with
        | none => s
        | some i => (s.haltKernel n).traceMeridian 0x06 (BitVec.ofNat 48 k.ticket) (BitVec.ofNat 64 i))

/-- The SCANROW at which an SVC stands between waves: its only row access, with no later instruction issued (R314). -/
def Svc.heldScan (v : Svc) : Option Scan :=
  match v.rows with
  | [r] => r.scan.bind (fun sc => if !sc.past && decide (sc.wave ≤ sc.next) then some sc else none)
  | _ => none

/-- Whether nothing of an SVC is under way: its row accesses are performed, or it stands between the waves of a SCANROW. -/
def Svc.settled (v : Svc) : Bool := v.rows.isEmpty || v.heldScan.isSome

/-- The context of an SVC (R320): where it stands at a SCANROW, the PC stays there, and the SCANROW reissues (R314). -/
def Svc.save (v : Svc) : SvcSave :=
  let thr := if v.heldScan.isSome then { v.thr with pc := v.thr.pc - 8 } else v.thr
  { thr, w := v.w, mem := v.mem, leg := v.leg, scan := v.heldScan.orElse (fun _ => v.scan), dprog := v.dprog, status := v.status }

def SvcStatus.isFault : SvcStatus → Bool
  | .faulted _ _ _ => true
  | _ => false

/-- The SVCs that a kernel holds are free. -/
def State.freeSvcs (s : State) (k : Kernel) : State :=
  (k.svcs.filter (fun i => (s.svc i).kernel == some k.ticket)).foldl (fun s i => s.modSvc i (·.freed)) s

/-- KERNEL_SAVED (R320): every SVC of a halting kernel has halted; their contexts are saved and the kernel is READY. -/
def execKernelSaved (n : Nat) (s : State) : Host.Outcome State Fault Refusal :=
  .next (match s.kernel n with
    | none => s
    | some k =>
      if k.st != .halting || k.status != 0 || k.live.isEmpty || !k.live.all (fun i => (s.svc i).settled && !(s.svc i).status.isFault) then s
      else
        let saves := k.live.map (fun i => (i, (s.svc i).save))
        let s1 := s.freeSvcs k
        s1.modKernel n (fun k => { k with st := .ready, saves, preempts := min 0xFFFF (k.preempts + 1) }))

/-- KERNEL_FAULT (R317): a fault of an SVC ends its kernel; every SVC halts. -/
def execKernelFault (n : Nat) (s : State) : Host.Outcome State Fault Refusal :=
  .next (match s.kernel n with
    | none => s
    | some k =>
      if k.status != 0 || !(k.st == .running || k.st == .halting) then s
      else match k.live.findSome? (fun i => match (s.svc i).status with | .faulted c pc v => some (c, i, pc, v) | _ => none) with
        | none => s
        | some f => s.modKernel n (fun k => { k with status := 1, fault := some f }))

/-- The completion's payload (R320). -/
def Kernel.payload (k : Kernel) : BitVec 256 :=
  let f : Nat × Nat × Nat × Nat := match k.fault with
    | some (c, i, pc, v) => (c.code, i, pc.toNat, v.toNat)
    | none => (0, 0, 0, 0)
  BitVec.ofNat 256 (k.card.toNat + 2 ^ 64 * (k.status + 2 ^ 4 * k.flags.toNat + 2 ^ 11 * f.1 + 2 ^ 19 * f.2.1) + 2 ^ 96 * k.code0 +
    2 ^ 112 * k.preempts + 2 ^ 128 * f.2.2.1 + 2 ^ 192 * f.2.2.2)

/-- KERNEL_END (R320, R321): every SVC has ended, or the kernel has met a fault, and its row writes are performed; the guard
lifts, the kernels that waited for it may be READY, and the completion is sent. -/
def execKernelEnd (n : Nat) (s : State) : Host.Outcome State Fault Refusal :=
  .next (match s.kernel n with
    | none => s
    | some k =>
      if !(k.st == .running || k.st == .halting) || (k.status == 0 && !k.live.isEmpty) || !k.live.all (fun i => (s.svc i).settled) then s
      else
        let flags := k.live.foldl (fun f i => f ||| (s.svc i).thr.flags) k.flags
        let s1 := s.freeSvcs k
        let k1 : Kernel := { k with st := .ended, guard := false, flags, completed := true }
        let s2 := s1.modKernel n (fun _ => k1)
        let s3 : State := { s2 with kernels := s2.kernels.map (fun x =>
          let edges := x.edges.filter (· != n)
          { x with edges, st := if x.st == .queued && edges.isEmpty then .ready else x.st }) }
        let i := k.ident.getD { team := 65536, member := 0, slot := 0 }
        let core := ((s.team i.team).bind (fun t => t.coreOfMember i.member)).getD 0
        (s3.completion unitMain n i core i.slot k.dom k.done k1.payload).traceMeridian 0x07 (BitVec.ofNat 48 k.ticket)
          (BitVec.ofNat 64 k1.status))

/-! ### Channels (R262, R322) -/

/-- The walk whose line a read of a channel brings. -/
def State.readWalk (s : State) (ch line slice : Nat) : Option Walk :=
  s.walks.find? (fun w => w.line == line && w.slice == slice && w.pa.any (fun p => channelOf p == ch))

/-- Whether the deep guard keeps every block of a line from being read. -/
def State.guardedLine (s : State) (line : Nat) : Bool := (List.range 4).all (fun i => s.guardHeld (line + 64 * i) false)

/-- Whether a normal command can be served: of a read, the link to its slice's stack carries traffic (R382), and its line has room
(R254). -/
def State.normalReady (s : State) (ch : Nat) (x : NormalCmd) : Bool :=
  match x with
  | .write _ => true
  | .read line slice =>
    (s.readWalk ch line slice).isNone || s.guardedLine line ||
      (s.stacksJoined (coreStack (clusterLow (slice / 16))) (ch / 64) && (s.l2Room (clusterLow (slice / 16)) line).isSome)

/-- Serve a normal command: a read fills the line of its miss, unless the deep guard came between (R321); a write-back has been
written. -/
def State.serveCmd (s : State) (ch : Nat) (x : NormalCmd) (cls : Nat) : State :=
  match x with
  | .write n => s.modChannel ch (·.spend cls n)
  | .read line slice =>
    let s1 := s.modChannel ch (·.spend cls 4)
    match s1.readWalk ch line slice with
    | none => s1
    | some w =>
      let s2 : State := { s1 with walks := s1.walks.filter (fun x => !(x.line == line && x.slice == slice)) }
      let core := clusterLow (slice / 16)
      if s2.guardedLine line || s2.lineReady core line then s2
      else match s2.l2Room core line with
        | none => s1
        | some s3 => s3.fillL2 core line (w.pa.getD 0)

/-- Serve the next normal command of a channel that can be. -/
def State.serveNormal (s : State) (ch : Nat) : State :=
  let u := s.channel ch
  let ready := u.normal.zipIdx.filter (fun x => s.normalReady ch x.1.1)
  match (u.serves (ready.map (fun x => x.1.2))).bind (fun i => ready[i]?) with
  | none => s
  | some ((x, cls), i) => (s.modChannel ch (fun u => { u with normal := ldel u.normal i })).serveCmd ch x cls

/-- ARB_SLOT (R322). -/
def execArbSlot (channel : Nat) (s : State) : Host.Outcome State Fault Refusal :=
  let u := s.channel channel
  let normal := u.normal.any (fun x => s.normalReady channel x.1)
  let deep := (s.svc channel).command.isSome
  .next (if !normal && !deep then s
    else
      let u0 : Channel := { u with dn := if normal then u.dn else 0, dd := if deep then u.dd else 0 }
      let s0 := s.modChannel channel (fun _ => u0)
      if !deep then s0.serveNormal channel
      else if !normal then s0.serveDeep channel
      else if u0.wn == 0 && u0.wd == 0 then s0.serveNormal channel
      else
        let u1 := u0.weigh
        if u1.dn < u1.dd then (s0.modChannel channel (fun _ => { u1 with dd := u1.dd - 1 })).serveDeep channel
        else (s0.modChannel channel (fun _ => { u1 with dn := u1.dn - 1 })).serveNormal channel)

/-- TOKEN_REFILL (R262): the period of a slice (0 to 511) or of a channel (512 and above) ends. -/
def execTokenRefill (unit : Nat) (s : State) : Host.Outcome State Fault Refusal :=
  .next (if unit < 512 then s.modSlice unit (·.refill) else if unit < 768 then s.modChannel (unit - 512) (·.refill) else s)

end Sys2Proof.Machine
end

