-- ==== Sys2Proof/Machine/Port.lean ====
section
/-! DEFINITION. The Meridian and the port die apart from the host's commands: resets (R390), ownership's lapse (R389), errors
and the Surveyor's tests (R398-R400), lost devices (R385), links (R382), power and heat (R402), and partition changes (R401). -/

namespace Sys2Proof.Machine

/-! ### Masters (R389, R394, R395) -/

/-- Whether a number names a master. -/
def isMaster (m : Nat) : Bool := m < 3 || (0x100 ≤ m && m < 0x200)

/-- Whether a master is connected: the endpoints and the I3C port until their link drops, a fabric peer once it has been heard. -/
def Port.isConnected (p : Port) (m : Nat) : Bool :=
  if p.masters.any (fun e => e.1 == m) then (p.master m).connected else m < 3

/-- The connected masters, by number. -/
def Port.connectedMasters (p : Port) : List Nat :=
  ([0, 1, 2] ++ (p.masters.map Prod.fst).filter (fun m => 3 ≤ m)).filter p.isConnected

/-- Whether the link by which a master's commands come carries traffic (R382, R398): the host link of endpoints 0 and 1, the fabric
port of a peer; the I3C port is neither. -/
def State.masterUp (s : State) (m : Nat) : Bool := if m < 2 then s.linkUp 4 else if m < 0x100 then true else s.fabricUp (m - 0x100)

/-- OWNER events to every connected master: the new owner, or 0xFFFF for none, and its nonce (R394). -/
def Port.ownerEvents (p : Port) : Port :=
  let (b0, b1) : Nat × Nat := match p.own.owner with | some (m, n) => (m, n.toNat) | none => (0xFFFF, 0)
  p.connectedMasters.foldl (fun p m => p.send m 7 0 0 (BitVec.ofNat 64 b0) (BitVec.ofNat 64 b1) []) p

/-- Ownership lapses once the lease count has passed LEASE (R389). -/
def State.lapse (s : State) : State :=
  if s.port.own.owner.isSome && BitVec.ult s.port.own.lease s.port.leaseCount then
    s.modPort (fun p => { p with own := { p.own with owner := none } }.ownerEvents)
  else s

/-- OWNERSHIP_LAPSE (R389). -/
def execOwnershipLapse (s : State) : Host.Outcome State Fault Refusal := .next s.lapse

/-- HOST_LINK_DROP (R387): what is on a master's link is lost, and the master is connected or not from now on. -/
def execHostLinkDrop (master connected : Nat) (s : State) : Host.Outcome State Fault Refusal :=
  .next (if !isMaster master then s
    else s.modPort (fun p => ({ p with held := p.held.filter (fun c => c.master != master) } : Port).modMaster master
      (fun x => { x with connected := connected != 0, link := [] })))

/-! ### Resets (R390) -/

/-- A reset: everything is wiped and every unit holds its reset state. The ownership record stays but at power-on, with its
lease restarted; the fuses stay; the links keep what was already sent on them. -/
def State.deviceReset (s : State) (keepOwner : Bool) : State :=
  { State.reset with
    port := {
      own := if keepOwner then s.port.own else {}
      lifecycle := s.port.lifecycle
      leaf := s.port.leaf
      held := s.port.held
      masters := s.port.masters.map (fun e => (e.1, ({ connected := e.2.connected, link := e.2.link } : Master))) }
    agenda := s.agenda
    freeCtr := s.freeCtr }

/-- POWER_ON_RESET (R389, R390). -/
def execPowerOnReset (s : State) : Host.Outcome State Fault Refusal := .next (s.deviceReset false)

/-- WATCHDOG_RESET (R390). -/
def execWatchdogReset (s : State) : Host.Outcome State Fault Refusal := .next (s.deviceReset true)

/-- UNIT of a record (R400). -/
def unitCode (kind num : Nat) : BitVec 16 := BitVec.ofNat 16 (kind * 4096 + num % 4096)

/-- THERMAL_TRIP (R402): the device is reset after a record of KIND device lost for itself. -/
def execThermalTrip (s : State) : Host.Outcome State Fault Refusal :=
  .next ((s.recordError (unitCode 5 s.ownDev) 3 2 0 0 0).deviceReset true)

/-! ### Power (R402) -/

/-- Whether every core's clock has been lowered as far as R402 lowers it. -/
def State.clocksLow (s : State) : Bool := (List.range 4096).all (fun c => (s.core c).clock ≤ 3200)

/-- POWER_LIMIT_ACTION (R402): 0 begins or ends the refusal of rebalancing steps; once it has begun, 1 lowers a core's clock
by 100 MHz, down to 3.2 GHz, and once every clock is there 2 lowers THROTTLE.LIMIT of channel arg mod 256 to arg / 256. -/
def execPowerLimitAction (action arg : Nat) (s : State) : Host.Outcome State Fault Refusal :=
  .next (match action with
    | 0 => s.modPort (fun p => { p with power := arg != 0 })
    | 1 =>
      let mhz := (s.core arg).clock
      if !s.port.power || 4096 ≤ arg || mhz < 3300 then s
      else (s.modCore arg (fun x => { x with clock := mhz - 100 })).traceMeridian 0x0D (BitVec.ofNat 48 arg) (BitVec.ofNat 64 (mhz - 100))
    | 2 =>
      let ch := arg % 256
      let limit := arg / 256
      if !s.port.power || limit == 0 || (s.channel ch).limit ≤ limit || !s.clocksLow then s else s.setLimit ch limit
    | _ => s)

/-! ### Errors and the Surveyor (R398-R400) -/

/-- What an uncorrectable error of a unit makes erroneous, by the address as the unit holds it (log entry 12): of a link lane and of
the Meridian, the block that was on its way. -/
def State.errorAt (s : State) (kind num addr : Nat) : State :=
  let mark (p : Poison) : State := if s.poison.contains p then s else { s with poison := s.poison ++ [p] }
  match kind with
  | 0 =>
    if addr / 2 ^ 56 == 0xFC then mark (.bank num (addr % 0x20000 / 64))
    else if addr / 2 ^ 56 == 0xFF then
      s.modSlot num (addr / 128 % 4) (fun x => { x with poisonX := (addr % 128, BitVec.ofNat 64 addr) :: x.poisonX })
    else if ((s.core num).l1Find addr).isNone && (s.core num).icache.any (fun b => b.block == addr / 32 * 32) then
      mark (.code num (addr / 32 * 32))
    else mark (.line (line64 addr))
  | 1 => if addr / 2 ^ 56 == 0xFF then mark (.reg num (addr % 128)) else mark (.buffer num (addr % bufferBytes / 64))
  | 2 => mark (.line (line64 addr))
  | 3 => mark (.frame (line64 addr))
  | _ =>
    if addr / 2 ^ 56 == 0xFE then mark (.bank (bitsOf addr 47 36) (addr % 0x20000 / 64))
    else if addr < 2 ^ 56 then mark (.line (line64 addr)) else s

/-- The number of units of a kind (R400). -/
def unitCount (kind : Nat) : Nat :=
  match kind with | 0 => 4096 | 1 => 256 | 2 => 512 | 3 => 256 | 4 => 4096 | 5 => 1 | _ => 0

/-- ERROR_DETECTED (R398): a test of the unit begins; a core is halted for it under the bound of R365, an SVC and a link stop.
An uncorrected error's data is erroneous from now on (R332). -/
def execErrorDetected (unit addr unc : Nat) (s : State) : Host.Outcome State Fault Refusal :=
  let kind := unit / 4096
  let num := unit % 4096
  .next (if unitCount kind ≤ num then s
    else
      let s1 := if unc != 0 then s.errorAt kind num addr else s
      let s2 := s1.modPort (fun p => { p with
        tests := p.tests ++ [{ kind, num, addr := BitVec.ofNat 64 addr, unc := unc != 0, count := p.count }] })
      if kind == 0 && !s2.port.preempts.contains { scope := 1, arg := num } then s2.preempt { scope := 1, arg := num } else s2)

/-- CLASS and ACTION of a test's result: 0 pass, 1 fail with a spare, 2 fail with none (R399). A link lane or the Meridian is
never retired. -/
def testVerdict (t : UnitTest) (outcome : Nat) : Nat × Nat :=
  match outcome with
  | 0 => (0, if t.unc then 1 else 0)
  | 1 => (1, 2)
  | _ => (1, if t.kind < 4 then 3 else 0)

/-- A unit is retired (R399): nothing is placed on it any more, and the team of a retired core is pre-empted. -/
def State.retireUnit (s : State) (kind num : Nat) : State :=
  let s1 := s.modPort (fun p => { p with retired := if p.retired.contains (kind, num) then p.retired else p.retired ++ [(kind, num)] })
  if kind != 0 then s1
  else match s1.teamOnCore num with
    | some t => if s1.port.preempts.contains { scope := 0, arg := t.handle } then s1 else s1.preempt { scope := 0, arg := t.handle }
    | none => s1

/-- SURVEYOR_TEST_DONE (R399, R400): test n ends; its error is classed, and recorded. -/
def execSurveyorTestDone (n outcome : Nat) (s : State) : Host.Outcome State Fault Refusal :=
  .next (match s.port.tests[n]? with
    | none => s
    | some t =>
      let (cls, action) := testVerdict t outcome
      let r : ErrRec := { count := t.count, unit := unitCode t.kind t.num, kind := t.unc.toNat, cls, action, addr := t.addr, stores := 0 }
      let s1 := s.modPort (fun p => { p with tests := ldel p.tests n, errors := lastN 256 (p.errors ++ [r]) }.send p.eventMaster 6 0 0 0 0 r.bytes)
      let s2 := if action == 3 then s1.retireUnit t.kind t.num else s1
      if t.kind == 0 && !s2.port.tests.any (fun u => u.kind == 0 && u.num == t.num) then s2.withdraw { scope := 1, arg := t.num } else s2)

/-- LINK_RETRAIN (R382): phase 0 begins a link's retraining, during which its traffic waits; any other phase ends it. -/
def execLinkRetrain (link phase : Nat) (s : State) : Host.Outcome State Fault Refusal :=
  .next (s.modPort (fun p => { p with
    linksDown := if phase == 0 then (if p.linksDown.contains link then p.linksDown else p.linksDown ++ [link])
      else p.linksDown.filter (· != link) }))

/-! ### Lost devices (R385) -/

/-- Complete the request that packet i makes to a lost device. -/
def State.completeLost (s : State) (i : Nat) (p : Packet) : State :=
  match p.body with
  | .store r => (s.dropPacket i).reply p (.ack r.id false)
  | .load rid part a n size leg pair _ xa => s.loadArrives i p rid part a n size leg pair xa
  | .atomic rid code a z b c rm tend xa => s.atomicArrives i p rid code a z b c rm tend xa
  | .bank rid _ addr .. => s.bankLost i p rid addr
  | .bspan rid addr .. => s.bankLost i p rid addr
  | .msg _ entry => (s.dropPacket i).answerMsg p entry 4
  | .drainBlock d .. => (s.dropPacket i).drainAck p d false
  | _ => s.dropPacket i

/-- Complete the requests to a device, oldest first; the number bounds them. -/
def State.completeAll (s : State) (d : Nat) : Nat → State
  | 0 => s
  | n + 1 =>
    match s.net.findIdx? (fun p => p.dev == d) with
    | none => s
    | some i =>
      match s.net[i]? with
      | none => s
      | some p => (s.completeLost i p).completeAll d n

/-- DEVICE_LOST (R385): another device is declared lost, every outstanding request to it completes, and the stores among them
are counted in the error record. -/
def execDeviceLost (device : Nat) (s : State) : Host.Outcome State Fault Refusal :=
  .next (if 256 ≤ device || device == s.ownDev || s.isLost device then s
    else
      let stores := (s.net.filter (fun p => p.dev == device && (match p.body with | .store _ => true | _ => false))).length
      let s1 := s.modPort (fun p => { p with lostDevs := p.lostDevs ++ [device] })
      (s1.completeAll device s1.net.length).recordError (unitCode 5 device) 3 2 0 0 (BitVec.ofNat 64 stores))

/-- DEVICE_REINSTATE (R385): the owner reinstates a lost device. -/
def execDeviceReinstate (device : Nat) (s : State) : Host.Outcome State Fault Refusal :=
  .next (if s.port.own.owner.isNone then s
    else s.modPort (fun p => { p with lostDevs := p.lostDevs.filter (· != device) }))

/-! ### Partitions (R401) -/

/-- Whether R397 calls a map malformed. -/
def State.mapBad (s : State) (x : PartChange) : Bool :=
  (List.range 32).any (fun k => 16 ≤ x.part k || 16 ≤ x.group k || (32 ≤ x.remap k && x.remap k != 0xFF)) ||
    (s.movingClusters x).any (fun k => x.remap k == 0xFF) ||
    (List.range 32).any (fun k =>
      let r := x.remap k
      r < 32 && ((s.movingClusters x).contains r || s.partOf r != s.partOf k))

/-- The domains that belong to those partitions. -/
def State.domainsConcerned (s : State) (x : PartChange) : List Nat :=
  (List.range 4096).filter (fun d => (s.partsConcerned x).contains (aget 0 s.port.domPart d).toNat && (s.domEntry d).isSome)

/-- Write one byte of physical memory: into the cached line of its frame where there is one (R358). -/
def State.setPhysByte (s : State) (pa : Nat) (b : Byte) : State :=
  match s.l2.find? (fun l => l.pa == line256 pa) with
  | none => { s with hbm := Mem.write s.hbm pa b }
  | some l =>
    let va := l.line + pa % 256 / 64 * 64
    match s.l1Of va with
    | some (c, _) => s.writeHome c (va + pa % 64) [some b]
    | none =>
      { s with l2 := s.l2.map (fun x =>
          if x.pa == l.pa then { x with data := bvSetByte x.data (pa % 256) b, dirty := x.dirty ||| (1 <<< (pa % 256 / 64)) } else x) }

def State.setPhysWord (s : State) (pa v : Nat) : State :=
  ((natToBytes 8 v).zipIdx).foldl (fun s e => s.setPhysByte (pa + e.2) e.1) s

/-- The core of a cluster at the place that a core has in its own. -/
def coreInCluster (k core : Nat) : Nat := clusterLow k + core % 1024 / 32 % 8 * 32 + core % 16

/-- A protection leaf under a change: its home cluster or core replaced where it names a moving cluster of this device. -/
def State.remapLeaf (s : State) (x : PartChange) (w : Nat) : Nat :=
  let moving := s.movingClusters x
  if bitsOf w 53 46 != s.ownDev then w
  else if bitsOf w 54 54 == 1 then
    let k := bitsOf w 38 34
    if moving.contains k then w - k * 2 ^ 34 + x.remap k * 2 ^ 34 else w
  else
    let c := bitsOf w 45 34
    if moving.contains (clusterOf c) then w - c * 2 ^ 34 + coreInCluster (x.remap (clusterOf c)) c * 2 ^ 34 else w

/-- Apply a function to the entries of a table that are valid, with their addresses. -/
def State.eachEntry (s : State) (table n : Nat) (f : State → Nat → Nat → State) : State :=
  (List.range n).foldl (fun s i => match s.tableEntry table i with | some w => f s (table + 8 * i) w | none => s) s

/-- Rewrite the leaves of a protection table (R355, R401). `old` is the state whose partitions the change leaves. -/
def State.rewriteTable (s old : State) (x : PartChange) (root : Nat) : State :=
  let leaf (s : State) (a w : Nat) : State :=
    let v := old.remapLeaf x w
    if v == w then s else s.setPhysWord a v
  let level4 (s : State) (t : Nat) : State := s.eachEntry t 512 (fun s a w => if bitsOf w 62 61 == 1 then leaf s a w else s)
  let level3 (s : State) (t : Nat) : State := s.eachEntry t 2048 (fun s a w =>
    if bitsOf w 62 61 == 1 then leaf s a w else match pointerOf w 4096 with | some u => level4 s u | none => s)
  let level2 (s : State) (t : Nat) : State := s.eachEntry t 1024 (fun s _ w =>
    match pointerOf w 16384 with | some u => level3 s u | none => s)
  s.eachEntry root 1024 (fun s _ w => match pointerOf w 8192 with | some u => level2 s u | none => s)

/-- The slices of the moving clusters write back and invalidate every line. -/
def State.flushClusters (s : State) (ks : List Nat) : State :=
  (s.l2.filter (fun l => ks.contains (l.slice / 16))).foldl (fun s l => s.evictL2 l.line l.slice) s

/-- The resident teams with a core in a moving cluster. -/
def State.teamsMoving (s : State) (ks : List Nat) : List Nat :=
  (s.teams.filter (fun t => t.st == .resident && t.cores.any (fun c => ks.contains (clusterOf c)))).map (·.handle)

/-- Answer a partition change: its master, or the actor that asked through the command actor. -/
def State.answerPart (s : State) (x : PartChange) (status : Nat) (reply : State → Msg → Nat → State) : State :=
  match x.msg with
  | some m => reply s m status
  | none => s.modPort (fun p => p.send x.master 1 x.seq status 0 0 [])

/-- The steps of a partition change, once nothing of the moving clusters is resident and no access that an old entry checked
has yet to be performed: slices, leaves, entries, and the new partitions. -/
def State.changeParts (s : State) (x : PartChange) : State :=
  let ks := s.movingClusters x
  let ds := s.domainsConcerned x
  let s1 := s.flushClusters ks
  let s2 := ds.foldl (fun t d => match t.domEntry d with | some (root, _, _) => t.rewriteTable s x root | none => t) s1
  let s3 := ds.foldl (fun t d => t.invalidate (.dom d) false) s2
  s3.modPort (fun p => { p with
    clusterPart := Vector.ofFn (fun (k : Fin 32) => BitVec.ofNat 4 (x.part k.val))
    groupPart := Vector.ofFn (fun (g : Fin 32) => BitVec.ofNat 4 (x.group g.val)) })

/-- The oldest partition change goes on (R401): malformed, it is answered; else the teams on its moving clusters are
pre-empted to be swapped out, and once that is done, and the moving slices can write back (R382), it is made. -/
def State.partStep (s : State) (reply : State → Msg → Nat → State) : State :=
  match s.port.parts with
  | [] => s
  | x :: rest =>
    let drop (s : State) : State := s.modPort (fun p => { p with parts := rest })
    if s.mapBad x then (drop s).answerPart x 6 reply
    else
      let ts := s.teamsMoving (s.movingClusters x)
      if ts.isEmpty then
        if (s.domainsConcerned x).any (fun d => s.accessesUnder (.dom d)) ||
            s.l2.any (fun l => (s.movingClusters x).contains (l.slice / 16) && !s.canWriteBack l) then s
        else (drop (s.changeParts x)).answerPart x 0 reply
      else ts.foldl (fun s h =>
        if s.port.preempts.contains { scope := 0, arg := h } then s else s.preempt { scope := 0, arg := h }) s

end Sys2Proof.Machine
end

