-- ==== Sys2Proof/Machine/Host.lean ====
section
/-! DEFINITION. The host's commands (R386-R397): their sequence numbers, who may send them, what each does, and the command
actor's messages (R396). -/

namespace Sys2Proof.Machine

/-! ### Statuses and answers (R394) -/

def stOk : Nat := 0
def stNotOwner : Nat := 1
def stRefused : Nat := 2
def stDenied : Nat := 3
def stBadImage : Nat := 4
def stLost : Nat := 5
def stMalformed : Nat := 6

/-- The ANSWER to a command. -/
def State.answer (s : State) (m : Nat) (seq : BitVec 32) (status : Nat) (b0 b1 : Nat) (payload : List Byte) : State :=
  s.modPort (fun p => p.send m 1 seq status (BitVec.ofNat 64 b0) (BitVec.ofNat 64 b1) payload)

def State.answerCmd (s : State) (c : HostCmd) (status : Nat) : State := s.answer c.master c.seq status 0 0 []

/-- The LEN bytes of a command's payload. -/
def cmdData (c : HostCmd) : List Byte := padTo c.len (c.payload.take c.len)

def State.isOwner (s : State) (m : Nat) : Bool := s.port.own.owner.any (fun o => o.1 == m)

/-! ### Arrival (R387, R393) -/

/-- The CLAIMs of the present count of the Meridian, if one of them made the owner (R389). -/
def Port.contest (p : Port) : Option (List (Nat × BitVec 32)) :=
  match p.claimed with
  | some (n, l) => if n == p.count then some l else none
  | none => none

/-- Decide a command on arrival: one with the next number is taken by `body`, any other is answered DUP or GAP. A command of
the master whose CLAIM made it owner is not taken in the same count, in which another CLAIM may still win. -/
def State.onArrival (s : State) (c : HostCmd) (body : State → State) : State :=
  let m := c.master
  if s.port.contest.isSome && s.isOwner m then s
  else if !isMaster m || (3 ≤ m && s.port.masters.any (fun e => e.1 == m && !e.2.connected)) || (m < 3 && !s.port.isConnected m) then s
  else
    let last := (s.port.master m).cmdseq
    if c.seq == last + 1 then body (s.modPort (·.modMaster m (fun x => { x with cmdseq := c.seq })))
    else if (last - c.seq).toNat < 2 ^ 31 then s.modPort (fun p => p.send m 2 c.seq 0 0 0 [])
    else s.modPort (fun p => p.send m 3 c.seq 0 (last.setWidth 64) 0 [])

/-- A command: its form, its sender's right to it, then its effect. `form` answers whether LEN, the unassigned bits and the
ranges are as R393 requires. -/
def hostCommand (c : HostCmd) (form : Bool) (ownerOnly : Bool) (body : State → State) (s : State) : Host.Outcome State Fault Refusal :=
  .next (s.onArrival c (fun s =>
    if 4096 < c.len || !form then s.answerCmd c stMalformed
    else if ownerOnly && !s.isOwner c.master then s.answerCmd c stNotOwner
    else body s))

/-- A command whose OPC is not in the table. -/
def State.unknownCommand (s : State) (c : HostCmd) : State := s.onArrival c (fun s => s.answerCmd c stMalformed)

/-! ### HREAD and HWRITE (R388) -/

/-- The first part of a range that a domain's rights deny. -/
def State.firstDenied (s : State) (dom a n : Nat) (write : Bool) : Option Nat :=
  ((parts64 a n).find? (fun p => match s.authorize dom p.1 (fun e => if write then e.w else e.r) with
    | .ok _ => false
    | .error _ => true)).map Prod.fst

/-- The first part of a range that is homed on a lost device, with the device (R385). -/
def State.firstLost (s : State) (dom a n : Nat) : Option (Nat × Nat) :=
  (parts64 a n).findSome? (fun p => match s.authorize dom p.1 (fun _ => true) with
    | .ok (dev, _) => if s.isLost dev then some (p.1, dev) else none
    | .error _ => none)

/-- Bring every line of a range in: the first part without a translation, or held at its slice. -/
def State.reachAll (s : State) (dom a n : Nat) (write : Bool) : Except (Denied × Nat) State :=
  (parts64 a n).foldl (fun acc p => match acc with
    | .error e => .error e
    | .ok s => match s.reach dom p.1 write with
      | .ok (_, s1) => .ok s1
      | .error d => .error (d, p.1)) (.ok s)

/-- A host access: checked block by block before any byte is performed, then performed at the home L1s; it waits at the deep
guard or at a MOVING page. One that meets a lost device is denied and, where it writes, listed (R385, log entry 36). -/
def State.hostAccess (s0 : State) (w : HostWait) : State :=
  let c := w.cmd
  let dom := c.a0.toNat % 4096
  let a := c.a1.toNat
  let n := c.a2.toNat
  let s := (parts64 a n).foldl (fun s p => s.portFill dom p.1) s0
  match s.firstDenied dom a n w.write with
  | some x => s.answer c.master c.seq stDenied x 0 []
  | none => match s.firstLost dom a n with
  | some (x, dev) => (if w.write then s.listLost dev else s).answer c.master c.seq stDenied x 0 []
  | none =>
    match s.reachAll dom a n w.write with
    | .error (d, x) =>
      if d.fails then s.answer c.master c.seq stDenied x 0 [] else (s.park d).modPort (fun p => { p with waits := p.waits ++ [w] })
    | .ok s1 =>
      if w.write then
        match s1.dirWrite dom 65 a (cmdData c) with
        | .ok s2 => s2.answerCmd c stOk
        | .error (_, x, s2) => s2.answer c.master c.seq stDenied x 0 []
      else
        match s1.dirRead dom a n with
        | .ok (bs, s2) => s2.answer c.master c.seq stOk 0 0 bs
        | .error (_, x) => s1.answer c.master c.seq stDenied x 0 []

/-- Whether the arguments of HREAD or HWRITE are as R393 requires. -/
def accessForm (c : HostCmd) : Bool :=
  c.a0.toNat < 4096 && c.a1.toNat < 2 ^ 56 && 1 ≤ c.a2.toNat && c.a2.toNat ≤ 4096

/-- HREAD (R388). -/
def execHread (cmd : HostCmd) (s : State) : Host.Outcome State Fault Refusal :=
  hostCommand cmd (cmd.len == 0 && accessForm cmd) false (fun s => s.hostAccess { cmd, write := false }) s

/-- HWRITE (R388). -/
def execHwrite (cmd : HostCmd) (s : State) : Host.Outcome State Fault Refusal :=
  hostCommand cmd (accessForm cmd && cmd.len == cmd.a2.toNat) true (fun s => s.hostAccess { cmd, write := true }) s

/-- The accesses that wait are tried again, in order. -/
def State.retryWaits (s : State) : State :=
  s.port.waits.foldl (fun s w => s.hostAccess w) (s.modPort (fun p => { p with waits := [] }))

/-! ### HSEND and messages of the port die (R388, R393, R396) -/

/-- Put a message into the port die's NI, from domain 0. -/
def State.portSend (s : State) (source : BitVec 28) (team : Option Nat) (a : BitVec 64) (payload : BitVec 256)
    (owner : Option (Nat × Nat)) : State :=
  let (id, s1) := s.fresh
  let e : NiEntry := {
    id, addr := a, dc := s1.keyOf team a.toNat, sys := adrSys a.toNat, team
    msg := { source, dest := a.setWidth 28, payload }, st := .release, owner }
  s1.modNi unitPort (fun l => l ++ [e])

/-- HSEND (R388, R393): its answer comes when the message is accepted or returned. -/
def execHsend (cmd : HostCmd) (s : State) : Host.Outcome State Fault Refusal :=
  hostCommand cmd (cmd.len == 32 && cmd.a0.toNat < 2 ^ 28 && cmd.a1 == 0 && cmd.a2 == 0) true (fun s =>
    if !s.addressOk 0 cmd.a0.toNat then s.answerCmd cmd stRefused
    else s.portSend (s.sysActor 0xFFF) none cmd.a0 (bytesBv 256 (cmdData cmd)) (some (cmd.master, cmd.seq.toNat))) s

/-! ### Ownership (R389) -/

/-- A CLAIM of this count is decided: its master owns the device. -/
def Port.owned (p : Port) (m : Nat) (n : BitVec 32) (claims : List (Nat × BitVec 32)) : Port :=
  { p with own := { p.own with owner := some (m, n) }, leaseCount := 0, claimed := some (p.count, claims) }

/-- The number of the last OWNER event of a master. -/
def Master.lastOwner (x : Master) : Option (BitVec 32) := (x.ring.reverse.find? (fun e => e.evt == 7)).map (·.seq)

/-- The answers to a master's CLAIMs of a count once a lower master's CLAIM of the same count wins instead. -/
def Master.undone (x : Master) (own : Nat) (claims : List (Nat × BitVec 32)) (m : Nat) (n : BitVec 32) : Master :=
  let f (e : Event) : Event :=
    if e.evt == 1 && claims.contains (own, e.cseq) then { e with status := stNotOwner, b0 := n.setWidth 64, b1 := BitVec.ofNat 64 m } else e
  { x with ring := x.ring.map f, link := x.link.map f }

/-- As `undone`, for a master that had the count's OWNER event: what that event tells too. -/
def Master.outdone (x : Master) (own : Nat) (claims : List (Nat × BitVec 32)) (m : Nat) (n : BitVec 32) : Master :=
  let y := x.undone own claims m n
  let last := x.lastOwner
  let f (e : Event) : Event := if e.evt == 7 && some e.seq == last then { e with b0 := BitVec.ofNat 64 m, b1 := n.setWidth 64 } else e
  { y with ring := y.ring.map f, link := y.link.map f }

/-- CLAIM (R389): the first wins while there is no owner; the owner's own restarts its lease. Every answer carries the
winner's nonce and number. Of CLAIMs in one count of the Meridian the lowest master wins: one that comes after a higher master's
takes its place, with what the masters are told of that count (log entry 13). -/
def execClaim (cmd : HostCmd) (s : State) : Host.Outcome State Fault Refusal :=
  hostCommand cmd (cmd.len == 0 && cmd.a0.toNat < 2 ^ 32 && cmd.a1 == 0 && cmd.a2 == 0) false (fun s =>
    let n : BitVec 32 := cmd.a0.setWidth 32
    let mine : Nat × BitVec 32 := (cmd.master, cmd.seq)
    match s.port.own.owner with
    | none =>
      ((s.modPort (·.owned cmd.master n [mine])).answer cmd.master cmd.seq stOk n.toNat cmd.master []).modPort
        (fun p => { p.ownerEvents with told := p.connectedMasters })
    | some (m, n0) =>
      match s.port.contest with
      | some claims =>
        if m < cmd.master then
          (s.answer cmd.master cmd.seq stNotOwner n0.toNat m []).modPort (fun p => { p with claimed := some (p.count, claims ++ [mine]) })
        else
          let s1 := s.modPort (fun p => { p.owned cmd.master n (claims ++ [mine]) with
            masters := p.masters.map (fun e => (e.1, if p.told.contains e.1 then e.2.outdone e.1 claims cmd.master n else e.2.undone e.1 claims cmd.master n)) })
          s1.answer cmd.master cmd.seq stOk n.toNat cmd.master []
      | none =>
        let s1 := s.answer cmd.master cmd.seq (if m == cmd.master then stOk else stNotOwner) n0.toNat m []
        if m == cmd.master then s1.modPort (fun p => { p with leaseCount := 0 }) else s1) s

/-- RENEW (R389). -/
def execRenew (cmd : HostCmd) (s : State) : Host.Outcome State Fault Refusal :=
  hostCommand cmd (cmd.len == 0 && cmd.a0 == 0 && cmd.a1 == 0 && cmd.a2 == 0) true (fun s =>
    (s.modPort (fun p => { p with leaseCount := 0 })).answerCmd cmd stOk) s

/-- YIELD (R389): the record keeps its nonce, which the spec does not give the new owner, and the lease begins anew (log entry
13). -/
def execYield (cmd : HostCmd) (s : State) : Host.Outcome State Fault Refusal :=
  hostCommand cmd (cmd.len == 0 && cmd.a0.toNat < 2 ^ 16 && cmd.a1 == 0 && cmd.a2 == 0) true (fun s =>
    let m := cmd.a0.toNat
    if !isMaster m || !s.port.isConnected m then s.answerCmd cmd stRefused
    else
      let s1 := s.modPort (fun p => { p with
        own := { p.own with owner := p.own.owner.map (fun o => (m, o.2)) }, leaseCount := 0 })
      (s1.answerCmd cmd stOk).modPort (·.ownerEvents)) s

/-- LEASESET (R389). -/
def execLeaseset (cmd : HostCmd) (s : State) : Host.Outcome State Fault Refusal :=
  hostCommand cmd (cmd.len == 0 && cmd.a0 != 0 && cmd.a1 == 0 && cmd.a2 == 0) true (fun s =>
    (s.modPort (fun p => { p with own := { p.own with lease := cmd.a0 } })).answerCmd cmd stOk) s

/-! ### The firmware image and the life cycle (R391, R392, R397) -/

def keyBytes : Nat := 56
def signatureBytes : Nat := 2508

/-- Whether a body followed by a key and a signature verifies: the key's digest is the fused one, and the signature holds. -/
def verifies (bs : List Byte) : Bool :=
  let n := bs.length - (keyBytes + signatureBytes)
  let key := (bs.drop n).take keyBytes
  decide (keyBytes + signatureBytes ≤ bs.length) && Config.sha256 key == Config.fusedDigest &&
    Config.lmsVerifies key (bs.drop (n + keyBytes)) (bs.take n)

/-- A team that the image launches, as KLAUNCH would with domain 0 rights. -/
def State.fwLaunch (s : State) (a : BitVec 64) : State :=
  match readTeam a.toNat s with
  | .ok (im, s1) => (match s1.launchCheck im with | .ok t => s1.acceptTeam t | .error _ => s1)
  | .error _ => s

/-- A verified image runs (R391): memory, DOMTAB and PTROOT, and the partitions are what it makes of them. -/
def State.runImage (s : State) : State :=
  let d := Config.sha256 (s.port.image.take (s.port.image.length - (keyBytes + signatureBytes)))
  let s1 : State := { s with
    hbm := (Config.fwMemory d).foldl (fun m e => Mem.write m e.1 e.2) s.hbm
    domtab := Config.fwDomtab d
    ptroot := Config.fwPtroot d
    port := { s.port with
      running := some d
      clusterPart := Vector.ofFn (fun (k : Fin 32) => Config.fwClusterPart d k.val)
      groupPart := Vector.ofFn (fun (g : Fin 32) => Config.fwGroupPart d g.val)
      domPart := (List.range 4096).map (fun i => (i, Config.fwDomainPart d i)) } }
  (Config.fwTeams d).foldl (fun s a => s.fwLaunch a) s1

def imageCap : Nat := 0x1000000

/-- IMAGE (R391, R393): chunks in order; the last one is verified and the image runs, or it is discarded. -/
def execImage (cmd : HostCmd) (s : State) : Host.Outcome State Fault Refusal :=
  hostCommand cmd (1 ≤ cmd.len && cmd.a1.toNat < 2 && cmd.a2 == 0) false (fun s =>
    if s.port.running.isSome then s.answerCmd cmd stRefused
    else if cmd.a0.toNat != s.port.image.length || imageCap < s.port.image.length + cmd.len then s.answerCmd cmd stMalformed
    else
      let s1 := s.modPort (fun p => { p with image := p.image ++ cmdData cmd })
      if cmd.a1 == 0 then s1.answerCmd cmd stOk
      else if verifies s1.port.image then s1.runImage.answerCmd cmd stOk
      else (s1.modPort (fun p => { p with image := [] })).answerCmd cmd stBadImage) s

/-- The cartouche with a leaf index of the attestation key; the digest of an image is open while none runs (R392, R397). -/
def State.cartouche (s : State) (leaf : Nat) : List Byte × State :=
  let (dig, s1) : List Byte × State := match s.port.running with
    | some d => (bvBytes 32 d, s)
    | none => s.freeBytes 32
  (bvBytes 16 Config.serial ++ natToBytes 4 s.port.lifecycle.toNat ++ natToBytes 4 leaf ++ dig ++ zeroBytes 8, s1)

/-- The ATTEST answer over a nonce (R392, R397). The leaf that signs is open. -/
def State.attestation (s : State) (nonce : BitVec 32) : List Byte × State :=
  let (w, s1) := s.free
  let leaf := w.toNat % 2 ^ 32
  let (cart, s2) := s1.cartouche leaf
  (cart ++ bvBytes keyBytes Config.attestKey ++ bvBytes signatureBytes (Config.attestSignature leaf (cart ++ bvBytes 4 nonce)),
   s2.modPort (fun p => { p with leaf }))

/-- ATTEST (R392). -/
def execAttest (cmd : HostCmd) (s : State) : Host.Outcome State Fault Refusal :=
  hostCommand cmd (cmd.len == 0 && cmd.a0.toNat < 2 ^ 32 && cmd.a1 == 0 && cmd.a2 == 0) false (fun s =>
    let (bs, s1) := s.attestation (cmd.a0.setWidth 32)
    s1.answer cmd.master cmd.seq stOk 0 0 bs) s

def tokenBytes : Nat := 32 + keyBytes + signatureBytes

/-- Whether R392 has a change of the life cycle. -/
def lifeStep (old new : Nat) : Bool := (old == 0 && new == 1) || (old == 1 && new == 2) || (old == 2 && new == 3) || (old == 3 && new == 1)

/-- Whether a token's body names this device and the target. -/
def tokenFor (bs : List Byte) (target : Nat) : Bool :=
  bs.take 16 == bvBytes 16 Config.serial && wordAt bs 16 1 == target && ((bs.take 32).drop 17).all (· == 0)

/-- LCSET (R392): a change of the table, with its token where one is needed, wipes and resets the device. -/
def execLcset (cmd : HostCmd) (s : State) : Host.Outcome State Fault Refusal :=
  let new := cmd.a0.toNat
  let lenOk := match new with | 0 => cmd.len == 0 || cmd.len == tokenBytes | 2 => cmd.len == 0 | _ => cmd.len == tokenBytes
  hostCommand cmd (new < 4 && lenOk && cmd.a1 == 0 && cmd.a2 == 0) true (fun s =>
    if !lifeStep s.port.lifecycle.toNat new || (new != 2 && !(tokenFor (cmdData cmd) new && verifies (cmdData cmd))) then s.answerCmd cmd stRefused
    else ((s.answerCmd cmd stOk).modPort (fun p => { p with lifecycle := BitVec.ofNat 2 new })).deviceReset true) s

/-! ### Partitions, tracing, the quantum and the identifier (R393) -/

/-- A message of the command actor's answer (R396). -/
def State.actorReply (s : State) (m : Msg) (status : Nat) (b0 : Nat) : State :=
  let a : BitVec 64 := match m.tr with
    | some (_, x) => x.setWidth 64 ||| 15
    | none => m.source.setWidth 64 ||| 15
  let opc := m.payload.toNat % 2 ^ 16
  s.portSend (s.sysActor 0xFFE) (m.tr.map Prod.fst) a (BitVec.ofNat 256 (opc + 2 ^ 16 * status + 2 ^ 64 * b0)) none

def partReply (s : State) (m : Msg) (status : Nat) : State := s.actorReply m status 0

/-- PARTSET (R401): it is answered when its steps are done. -/
def execPartset (cmd : HostCmd) (s : State) : Host.Outcome State Fault Refusal :=
  hostCommand cmd (cmd.len == 96 && cmd.a0 == 0 && cmd.a1 == 0 && cmd.a2 == 0) true (fun s =>
    (s.modPort (fun p => { p with parts := p.parts ++ [{ map := cmdData cmd, master := cmd.master, seq := cmd.seq }] })).partStep partReply) s

/-- The commands that a master and an actor can both give: whether the arguments are as R393 requires. -/
def dompartForm (a0 a1 a2 : BitVec 64) : Bool := 1 ≤ a0.toNat && a0.toNat < 4096 && a1.toNat < 16 && a2 == 0
def tracesetForm (a0 a1 a2 : BitVec 64) : Bool :=
  let log := a1.toNat / 2 ^ 8
  a0.toNat < 2 ^ 16 && !a0.getLsbD 0 &&
    (if a1.getLsbD 0 then a1.toNat % 256 == 1 && 12 ≤ log && log ≤ 30 && a2.toNat % 2 ^ log == 0 else a1 == 0 && a2 == 0)
def quantumForm (a0 a1 a2 : BitVec 64) : Bool := 1 ≤ a0.toNat && a0.toNat < 2 ^ 32 && a1 == 0 && a2 == 0

/-- DOMPART's effect: a domain belongs to a partition. -/
def State.setDomPart (s : State) (a0 a1 : BitVec 64) : State :=
  s.modPort (fun p => { p with domPart := aput p.domPart a0.toNat (a1.setWidth 4) })
/-- TRACESET's effect: the event types that are enabled, and where they go. -/
def State.setTrace (s : State) (a0 a1 a2 : BitVec 64) : State :=
  s.modPort (fun p => { p with funnel := { p.funnel with
    enable := a0.setWidth 16, toRing := a1.getLsbD 0, logSize := a1.toNat / 2 ^ 8, base := a2, pos := 0 } })
/-- QUANTUM's effect: the quantum from the next one on. -/
def State.setQuantum (s : State) (a0 : BitVec 64) : State := s.modPort (fun p => { p with quantum := a0.setWidth 32 })

/-- DOMPART (R393, R401). -/
def execDompart (cmd : HostCmd) (s : State) : Host.Outcome State Fault Refusal :=
  hostCommand cmd (cmd.len == 0 && dompartForm cmd.a0 cmd.a1 cmd.a2) true (fun s => (s.setDomPart cmd.a0 cmd.a1).answerCmd cmd stOk) s

/-- TRACESET (R348, R393). -/
def execTraceset (cmd : HostCmd) (s : State) : Host.Outcome State Fault Refusal :=
  hostCommand cmd (cmd.len == 0 && tracesetForm cmd.a0 cmd.a1 cmd.a2) true (fun s =>
    (s.setTrace cmd.a0 cmd.a1 cmd.a2).answerCmd cmd stOk) s

/-- QUANTUM (R374, R393). -/
def execQuantum (cmd : HostCmd) (s : State) : Host.Outcome State Fault Refusal :=
  hostCommand cmd (cmd.len == 0 && quantumForm cmd.a0 cmd.a1 cmd.a2) true (fun s => (s.setQuantum cmd.a0).answerCmd cmd stOk) s

/-- DEVIDSET (R383, R393). -/
def execDevidset (cmd : HostCmd) (s : State) : Host.Outcome State Fault Refusal :=
  hostCommand cmd (cmd.len == 0 && cmd.a0.toNat < 256 && cmd.a1 == 0 && cmd.a2 == 0) true (fun s =>
    if s.port.launched then s.answerCmd cmd stRefused
    else (s.modPort (fun p => { p with devid := some (cmd.a0.setWidth 8) })).answerCmd cmd stOk) s

/-! ### REPLAY and RESET (R387, R390) -/

/-- REPLAY (R387): the events that the ring still holds are sent again with their numbers; the answer tells of the first one
that has left it. -/
def execReplay (cmd : HostCmd) (s : State) : Host.Outcome State Fault Refusal :=
  hostCommand cmd (cmd.len == 0 && cmd.a0.toNat < 2 ^ 32 && cmd.a1.toNat < 2 ^ 32 && cmd.a2 == 0) false (fun s =>
    let a : BitVec 32 := cmd.a0.setWidth 32
    let n := (cmd.a1.setWidth 32 - a).toNat
    let x := s.port.master cmd.master
    let again := if n < 2 ^ 31 then x.ring.filter (fun e => (e.seq - a).toNat ≤ n) else []
    let lost := n < 2 ^ 31 && (x.evseq - a).toNat < 2 ^ 31 && !x.ring.any (fun e => e.seq == a)
    let s1 := s.modPort (·.modMaster cmd.master (fun x => { x with link := x.link ++ again }))
    s1.answer cmd.master cmd.seq (if lost then stLost else stOk) (if lost then a.toNat else 0) 0 []) s

/-- RESET (R390, R393): answered before the reset begins. -/
def execReset (cmd : HostCmd) (s : State) : Host.Outcome State Fault Refusal :=
  hostCommand cmd (cmd.len == 0 && cmd.a0 == 0 && cmd.a1 == 0 && cmd.a2 == 0) true (fun s =>
    (s.answerCmd cmd stOk).deviceReset true) s

/-! ### The command actor (R396) -/

/-- How a message to the command actor is performed, or what holds it: the deep guard or a MOVING page. -/
def State.actorCommand (s : State) (m : Msg) : Except Denied State :=
  let p := m.payload.toNat
  let opc := p % 2 ^ 16
  let a0 : BitVec 64 := BitVec.ofNat 64 (bitsOf p 127 64)
  let a1 : BitVec 64 := BitVec.ofNat 64 (bitsOf p 191 128)
  let a2 : BitVec 64 := BitVec.ofNat 64 (bitsOf p 255 192)
  let reply (s : State) (st b0 : Nat) : Except Denied State := .ok (s.actorReply m st b0)
  let reserved := bitsOf p 63 16 != 0
  if m.dom != 0 then reply s stRefused 0
  else match opc with
    | 0x30 => if reserved || !tracesetForm a0 a1 a2 then reply s stMalformed 0 else reply (s.setTrace a0 a1 a2) stOk 0
    | 0x31 => if reserved || !quantumForm a0 a1 a2 then reply s stMalformed 0 else reply (s.setQuantum a0) stOk 0
    | 0x24 => if reserved || !dompartForm a0 a1 a2 then reply s stMalformed 0 else reply (s.setDomPart a0 a1) stOk 0
    | 0x23 =>
      if reserved || 2 ^ 56 ≤ a0.toNat || a1 != 0 || a2 != 0 then reply s stMalformed 0
      else match s.firstDenied 0 a0.toNat 96 false with
        | some x => reply s stDenied x
        | none => match s.dirRead 0 a0.toNat 96 with
          | .error (d, x) => if d.fails then reply s stDenied x else .error d
          | .ok (bs, s1) =>
            .ok ((s1.modPort (fun p => { p with parts := p.parts ++ [{ map := bs, msg := some m }] })).partStep partReply)
    | 0x21 =>
      if reserved || 2 ^ 32 ≤ a0.toNat || 2 ^ 56 ≤ a1.toNat || a2 != 0 then reply s stMalformed 0
      else match s.firstDenied 0 a1.toNat 2628 true with
        | some x => reply s stDenied x
        | none => match s.firstLost 0 a1.toNat 2628 with
        | some (x, dev) => reply (s.listLost dev) stDenied x
        | none => match s.reachAll 0 a1.toNat 2628 true with
          | .error (d, x) => if d.fails then reply s stDenied x else .error d
          | .ok s1 =>
            let (bs, s2) := s1.attestation (a0.setWidth 32)
            match s2.dirWrite 0 43 a1.toNat bs with
            | .ok s3 => reply s3 stOk 0
            | .error (_, x, s3) => reply s3 stDenied x
    | _ => reply s stRefused 0

/-- COMMAND_ACTOR_MESSAGE (R396): packet i reaches the command actor, which accepts channel 0 only. -/
def execCommandActorMessage (i : Nat) (s : State) : Host.Outcome State Fault Refusal :=
  .next (match s.packetAt i with
    | none => s
    | some p =>
      match p.body with
      | .msg m entry =>
        if p.dev != s.ownDev || !m.dest.getLsbD 27 || p.core != 0xFFE || s.msgBehind i p then s
        else if m.dest.toNat % 16 != 0 then (s.dropPacket i).answerMsg p entry 4
        else match ((s.dropPacket i).answerMsg p entry 0).actorCommand m with
          | .ok s1 => s1
          | .error d => s.park d
      | _ => s)

/-! ### A count of the Meridian (R389, R374, R393) -/

/-- One back-off of a retry entry counts down. -/
def NiEntry.count (e : NiEntry) : NiEntry := match e.st with | .backoff n => { e with st := .backoff (n - 1) } | _ => e

/-- A count of the Meridian's counter: the lease, the quantum and the back-offs of its own NIs go on; host accesses and a
partition change that wait are tried again. -/
def State.meridianTick (s : State) : State :=
  let s0 := if s.port.quantumLeft == 0 then s.quantumEnd else s
  let s1 := (s0.modPort (fun p => { p with
    count := p.count + 1
    leaseCount := p.leaseCount + 1
    quantumLeft := p.quantumLeft - 1
    ni := p.ni.map (·.count)
    kcompl := p.kcompl.map (·.count) })).lapse
  s1.retryWaits.partStep partReply

end Sys2Proof.Machine
end

