-- ==== Sys2Proof/Machine/ScalarFp.lean ====
section
/-! DEFINITION. Scalar floating point (R93-R99). -/

namespace Sys2Proof.Machine

/-- A two-source FP instruction: its result, zero-extended, and its flags (R93, R94). -/
def fpOp2 (code : Nat) (o : Op) (f : Fmt → Nat → Nat → Nat → Nat × Flags) (s : State) : Host.Outcome State Fault Refusal :=
  runScalar code o (do
    let rm ← roundMode
    let a ← srcX (immRaw o) o.a
    let b ← srcX (immRaw o) o.b
    let r := f (fmtOf o.t.toNat) rm a.toNat b.toNat
    setFlags r.2
    dstX o.d (BitVec.ofNat 64 r.1)
    pure .next) s

/-- FSGN's result (R99): a with the sign that the mode selects. -/
def fpSign (f : Fmt) (mode a b : Nat) : Nat :=
  let mag := a % f.signBit
  let sa := f.signBit ≤ a % 2 ^ f.width
  let sb := f.signBit ≤ b % 2 ^ f.width
  f.signed (match mode with | 0 => sb | 1 => !sb | 2 => sa != sb | _ => false) mag

/-- FCVT's result (R97): T is the destination, M[2:0] the source, M[3] unsigned. -/
def fpConvert (rm t m a : Nat) : Nat × Flags :=
  let src := m % 8
  let uns := 8 ≤ m
  let x : FVal :=
    if src < 4 then
      FVal.ofInt (if uns then ((a % 2 ^ intWidth src : Nat) : Int) else toSigned (intWidth src) a)
    else (fmtOf src).decode a
  if t < 4 then roundInt (intWidth t) (!uns) rm x else roundIeee (fmtOf t) rm x

/-- FADD (R94). -/
def execFadd (o : Op) (s : State) : Host.Outcome State Fault Refusal :=
  fpOp2 0x50 o fpAdd s

/-- FSUB (R94). -/
def execFsub (o : Op) (s : State) : Host.Outcome State Fault Refusal :=
  fpOp2 0x51 o fpSub s

/-- FMUL (R94). -/
def execFmul (o : Op) (s : State) : Host.Outcome State Fault Refusal :=
  fpOp2 0x52 o fpMul s

/-- FDIV (R94). -/
def execFdiv (o : Op) (s : State) : Host.Outcome State Fault Refusal :=
  fpOp2 0x54 o fpDiv s

/-- FFMA (R94). -/
def execFfma (o : Op) (s : State) : Host.Outcome State Fault Refusal :=
  runScalar 0x53 o (do
    let rm ← roundMode
    let a ← srcX (immRaw o) o.a
    let b ← srcX (immRaw o) o.b
    let c ← srcX (immRaw o) o.c
    let r := fpFma (fmtOf o.t.toNat) rm a.toNat b.toNat c.toNat
    setFlags r.2
    dstX o.d (BitVec.ofNat 64 r.1)
    pure .next) s

/-- A one-source FP instruction. -/
def fpOp1 (code : Nat) (o : Op) (f : Nat → Nat → Nat × Flags) (s : State) : Host.Outcome State Fault Refusal :=
  runScalar code o (do
    let rm ← roundMode
    let a ← srcX (immRaw o) o.a
    let r := f rm a.toNat
    setFlags r.2
    dstX o.d (BitVec.ofNat 64 r.1)
    pure .next) s

/-- FSQRT (R94). -/
def execFsqrt (o : Op) (s : State) : Host.Outcome State Fault Refusal :=
  fpOp1 0x55 o (fpSqrt (fmtOf o.t.toNat)) s

/-- FMIN (R95). -/
def execFmin (o : Op) (s : State) : Host.Outcome State Fault Refusal :=
  fpOp2 0x56 o (fun f _ a b => fpMinMax f false a b) s

/-- FMAX (R95). -/
def execFmax (o : Op) (s : State) : Host.Outcome State Fault Refusal :=
  fpOp2 0x57 o (fun f _ a b => fpMinMax f true a b) s

/-- FCMP (R96). -/
def execFcmp (o : Op) (s : State) : Host.Outcome State Fault Refusal :=
  fpOp2 0x58 o (fun f _ a b => let r := fpCond f o.m.toNat a b; (if r.1 then 1 else 0, r.2)) s

/-- FCVT (R97). -/
def execFcvt (o : Op) (s : State) : Host.Outcome State Fault Refusal :=
  fpOp1 0x59 o (fun rm a => fpConvert rm o.t.toNat o.m.toNat a) s

/-- FCLASS (R98). -/
def execFclass (o : Op) (s : State) : Host.Outcome State Fault Refusal :=
  fpOp1 0x5A o (fun _ a => (fpClass (fmtOf o.t.toNat) a, 0)) s

/-- FSGN (R99): a bit operation, with no flag. -/
def execFsgn (o : Op) (s : State) : Host.Outcome State Fault Refusal :=
  fpOp2 0x5B o (fun f _ a b => (fpSign f o.m.toNat a b, 0)) s

end Sys2Proof.Machine
end

