-- ==== Sys2Proof/Machine/Dispatch.lean ====
section
/-! DEFINITION. One arm for each constructor of Instr: a direct call of its meaning. -/

namespace Sys2Proof.Machine

/-- What an instruction or event of the opcode table does to a state. -/
def exec (i : Instr) (s : State) : Host.Outcome State Fault Refusal :=
  match i with
  | .add o => Sys2Proof.Machine.execAdd o s
  | .sub o => Sys2Proof.Machine.execSub o s
  | .mul o => Sys2Proof.Machine.execMul o s
  | .mulh o => Sys2Proof.Machine.execMulh o s
  | .mulhn o => Sys2Proof.Machine.execMulhn o s
  | .div o => Sys2Proof.Machine.execDiv o s
  | .divn o => Sys2Proof.Machine.execDivn o s
  | .rem o => Sys2Proof.Machine.execRem o s
  | .remn o => Sys2Proof.Machine.execRemn o s
  | .and o => Sys2Proof.Machine.execAnd o s
  | .or o => Sys2Proof.Machine.execOr o s
  | .xor o => Sys2Proof.Machine.execXor o s
  | .andn o => Sys2Proof.Machine.execAndn o s
  | .orn o => Sys2Proof.Machine.execOrn o s
  | .shl o => Sys2Proof.Machine.execShl o s
  | .shr o => Sys2Proof.Machine.execShr o s
  | .sra o => Sys2Proof.Machine.execSra o s
  | .rol o => Sys2Proof.Machine.execRol o s
  | .ror o => Sys2Proof.Machine.execRor o s
  | .min o => Sys2Proof.Machine.execMin o s
  | .max o => Sys2Proof.Machine.execMax o s
  | .minn o => Sys2Proof.Machine.execMinn o s
  | .maxn o => Sys2Proof.Machine.execMaxn o s
  | .clz o => Sys2Proof.Machine.execClz o s
  | .ctz o => Sys2Proof.Machine.execCtz o s
  | .popc o => Sys2Proof.Machine.execPopc o s
  | .brev o => Sys2Proof.Machine.execBrev o s
  | .bswap o => Sys2Proof.Machine.execBswap o s
  | .bext o => Sys2Proof.Machine.execBext o s
  | .bins o => Sys2Proof.Machine.execBins o s
  | .sel o => Sys2Proof.Machine.execSel o s
  | .setCond o => Sys2Proof.Machine.execSetCond o s
  | .pset o => Sys2Proof.Machine.execPset o s
  | .pand o => Sys2Proof.Machine.execPand o s
  | .por o => Sys2Proof.Machine.execPor o s
  | .pxor o => Sys2Proof.Machine.execPxor o s
  | .pnot o => Sys2Proof.Machine.execPnot o s
  | .li o => Sys2Proof.Machine.execLi o s
  | .lea o => Sys2Proof.Machine.execLea o s
  | .mkaddr o => Sys2Proof.Machine.execMkaddr o s
  | .mkact o => Sys2Proof.Machine.execMkact o s
  | .ext o => Sys2Proof.Machine.execExt o s
  | .br o => Sys2Proof.Machine.execBr o s
  | .jRelative o => Sys2Proof.Machine.execJRelative o s
  | .jAbsolute o => Sys2Proof.Machine.execJAbsolute o s
  | .jalRelative o => Sys2Proof.Machine.execJalRelative o s
  | .jalAbsolute o => Sys2Proof.Machine.execJalAbsolute o s
  | .jr o => Sys2Proof.Machine.execJr o s
  | .jalr o => Sys2Proof.Machine.execJalr o s
  | .loop o => Sys2Proof.Machine.execLoop o s
  | .loopc o => Sys2Proof.Machine.execLoopc o s
  | .nop o => Sys2Proof.Machine.execNop o s
  | .brk o => Sys2Proof.Machine.execBrk o s
  | .fadd o => Sys2Proof.Machine.execFadd o s
  | .fsub o => Sys2Proof.Machine.execFsub o s
  | .fmul o => Sys2Proof.Machine.execFmul o s
  | .ffma o => Sys2Proof.Machine.execFfma o s
  | .fdiv o => Sys2Proof.Machine.execFdiv o s
  | .fsqrt o => Sys2Proof.Machine.execFsqrt o s
  | .fmin o => Sys2Proof.Machine.execFmin o s
  | .fmax o => Sys2Proof.Machine.execFmax o s
  | .fcmp o => Sys2Proof.Machine.execFcmp o s
  | .fcvt o => Sys2Proof.Machine.execFcvt o s
  | .fclass o => Sys2Proof.Machine.execFclass o s
  | .fsgn o => Sys2Proof.Machine.execFsgn o s
  | .ld o => Sys2Proof.Machine.execLd o s
  | .st o => Sys2Proof.Machine.execSt o s
  | .ldp o => Sys2Proof.Machine.execLdp o s
  | .stp o => Sys2Proof.Machine.execStp o s
  | .vld o => Sys2Proof.Machine.execVld o s
  | .vst o => Sys2Proof.Machine.execVst o s
  | .vlds o => Sys2Proof.Machine.execVlds o s
  | .vsts o => Sys2Proof.Machine.execVsts o s
  | .lgld o => Sys2Proof.Machine.execLgld o s
  | .lgst o => Sys2Proof.Machine.execLgst o s
  | .pref o => Sys2Proof.Machine.execPref o s
  | .fence o => Sys2Proof.Machine.execFence o s
  | .drain o => Sys2Proof.Machine.execDrain o s
  | .amadd o => Sys2Proof.Machine.execAmadd o s
  | .amand o => Sys2Proof.Machine.execAmand o s
  | .amor o => Sys2Proof.Machine.execAmor o s
  | .amxor o => Sys2Proof.Machine.execAmxor o s
  | .ammin o => Sys2Proof.Machine.execAmmin o s
  | .ammax o => Sys2Proof.Machine.execAmmax o s
  | .amminn o => Sys2Proof.Machine.execAmminn o s
  | .ammaxn o => Sys2Proof.Machine.execAmmaxn o s
  | .amswap o => Sys2Proof.Machine.execAmswap o s
  | .amcas o => Sys2Proof.Machine.execAmcas o s
  | .amfadd o => Sys2Proof.Machine.execAmfadd o s
  | .vadd o => Sys2Proof.Machine.execVadd o s
  | .vsub o => Sys2Proof.Machine.execVsub o s
  | .vmul o => Sys2Proof.Machine.execVmul o s
  | .vmulh o => Sys2Proof.Machine.execVmulh o s
  | .vand o => Sys2Proof.Machine.execVand o s
  | .vor o => Sys2Proof.Machine.execVor o s
  | .vxor o => Sys2Proof.Machine.execVxor o s
  | .vshl o => Sys2Proof.Machine.execVshl o s
  | .vshr o => Sys2Proof.Machine.execVshr o s
  | .vsra o => Sys2Proof.Machine.execVsra o s
  | .vmin o => Sys2Proof.Machine.execVmin o s
  | .vmax o => Sys2Proof.Machine.execVmax o s
  | .vabs o => Sys2Proof.Machine.execVabs o s
  | .vfadd o => Sys2Proof.Machine.execVfadd o s
  | .vfsub o => Sys2Proof.Machine.execVfsub o s
  | .vfmul o => Sys2Proof.Machine.execVfmul o s
  | .vfma o => Sys2Proof.Machine.execVfma o s
  | .vfmin o => Sys2Proof.Machine.execVfmin o s
  | .vfmax o => Sys2Proof.Machine.execVfmax o s
  | .vfdiv o => Sys2Proof.Machine.execVfdiv o s
  | .vfsqrt o => Sys2Proof.Machine.execVfsqrt o s
  | .vexp2 o => Sys2Proof.Machine.execVexp2 o s
  | .vlog2 o => Sys2Proof.Machine.execVlog2 o s
  | .vrcp o => Sys2Proof.Machine.execVrcp o s
  | .vrsq o => Sys2Proof.Machine.execVrsq o s
  | .vcmp o => Sys2Proof.Machine.execVcmp o s
  | .vfcmp o => Sys2Proof.Machine.execVfcmp o s
  | .vsel o => Sys2Proof.Machine.execVsel o s
  | .vbcast o => Sys2Proof.Machine.execVbcast o s
  | .vext o => Sys2Proof.Machine.execVext o s
  | .vins o => Sys2Proof.Machine.execVins o s
  | .vperm o => Sys2Proof.Machine.execVperm o s
  | .vslide o => Sys2Proof.Machine.execVslide o s
  | .vredadd o => Sys2Proof.Machine.execVredadd o s
  | .vredmax o => Sys2Proof.Machine.execVredmax o s
  | .vredmin o => Sys2Proof.Machine.execVredmin o s
  | .vfred o => Sys2Proof.Machine.execVfred o s
  | .vcvt o => Sys2Proof.Machine.execVcvt o s
  | .vamax o => Sys2Proof.Machine.execVamax o s
  | .vscaleq o => Sys2Proof.Machine.execVscaleq o s
  | .vquant o => Sys2Proof.Machine.execVquant o s
  | .vdeq o => Sys2Proof.Machine.execVdeq o s
  | .vpopc o => Sys2Proof.Machine.execVpopc o s
  | .vpfx o => Sys2Proof.Machine.execVpfx o s
  | .vcompr o => Sys2Proof.Machine.execVcompr o s
  | .vexpnd o => Sys2Proof.Machine.execVexpnd o s
  | .vgath o => Sys2Proof.Machine.execVgath o s
  | .vscat o => Sys2Proof.Machine.execVscat o s
  | .bpers o => Sys2Proof.Machine.execBpers o s
  | .bspan o => Sys2Proof.Machine.execBspan o s
  | .bput o => Sys2Proof.Machine.execBput o s
  | .bputu o => Sys2Proof.Machine.execBputu o s
  | .bget o => Sys2Proof.Machine.execBget o s
  | .bpeek o => Sys2Proof.Machine.execBpeek o s
  | .btake o => Sys2Proof.Machine.execBtake o s
  | .bfind o => Sys2Proof.Machine.execBfind o s
  | .binc o => Sys2Proof.Machine.execBinc o s
  | .bcnt o => Sys2Proof.Machine.execBcnt o s
  | .bclr o => Sys2Proof.Machine.execBclr o s
  | .blatch o => Sys2Proof.Machine.execBlatch o s
  | .bstat o => Sys2Proof.Machine.execBstat o s
  | .send o => Sys2Proof.Machine.execSend o s
  | .chcnt o => Sys2Proof.Machine.execChcnt o s
  | .chdrop o => Sys2Proof.Machine.execChdrop o s
  | .hen o => Sys2Proof.Machine.execHen o s
  | .hdis o => Sys2Proof.Machine.execHdis o s
  | .hset o => Sys2Proof.Machine.execHset o s
  | .done o => Sys2Proof.Machine.execDone o s
  | .fork o => Sys2Proof.Machine.execFork o s
  | .tend o => Sys2Proof.Machine.execTend o s
  | .bar o => Sys2Proof.Machine.execBar o s
  | .bara o => Sys2Proof.Machine.execBara o s
  | .barw o => Sys2Proof.Machine.execBarw o s
  | .self o => Sys2Proof.Machine.execSelf o s
  | .mlda o => Sys2Proof.Machine.execMlda o s
  | .mldb o => Sys2Proof.Machine.execMldb o s
  | .mldbs o => Sys2Proof.Machine.execMldbs o s
  | .mzero o => Sys2Proof.Machine.execMzero o s
  | .mmul o => Sys2Proof.Machine.execMmul o s
  | .mmuls o => Sys2Proof.Machine.execMmuls o s
  | .mgemm o => Sys2Proof.Machine.execMgemm o s
  | .mdrain o => Sys2Proof.Machine.execMdrain o s
  | .mchain o => Sys2Proof.Machine.execMchain o s
  | .mst o => Sys2Proof.Machine.execMst o s
  | .msync o => Sys2Proof.Machine.execMsync o s
  | .mstat o => Sys2Proof.Machine.execMstat o s
  | .jobCopy o => Sys2Proof.Machine.execJobCopy o s
  | .jobGather o => Sys2Proof.Machine.execJobGather o s
  | .jobScatter o => Sys2Proof.Machine.execJobScatter o s
  | .jobReduce o => Sys2Proof.Machine.execJobReduce o s
  | .jobBcast o => Sys2Proof.Machine.execJobBcast o s
  | .gather o => Sys2Proof.Machine.execGather o s
  | .srec o => Sys2Proof.Machine.execSrec o s
  | .sstart o => Sys2Proof.Machine.execSstart o s
  | .sstop o => Sys2Proof.Machine.execSstop o s
  | .qcnt o => Sys2Proof.Machine.execQcnt o s
  | .qflush o => Sys2Proof.Machine.execQflush o s
  | .deep o => Sys2Proof.Machine.execDeep o s
  | .rdrow o => Sys2Proof.Machine.execRdrow o s
  | .wrrow o => Sys2Proof.Machine.execWrrow o s
  | .scanrow o => Sys2Proof.Machine.execScanrow o s
  | .dot16 o => Sys2Proof.Machine.execDot16 o s
  | .dend o => Sys2Proof.Machine.execDend o s
  | .dyield o => Sys2Proof.Machine.execDyield o s
  | .darg o => Sys2Proof.Machine.execDarg o s
  | .sget o => Sys2Proof.Machine.execSget o s
  | .sset o => Sys2Proof.Machine.execSset o s
  | .trap o => Sys2Proof.Machine.execTrap o s
  | .kret o => Sys2Proof.Machine.execKret o s
  | .plbinv o => Sys2Proof.Machine.execPlbinv o s
  | .ibar o => Sys2Proof.Machine.execIbar o s
  | .cyc o => Sys2Proof.Machine.execCyc o s
  | .fget o => Sys2Proof.Machine.execFget o s
  | .fclr o => Sys2Proof.Machine.execFclr o s
  | .gkill o => Sys2Proof.Machine.execGkill o s
  | .aevict o => Sys2Proof.Machine.execAevict o s
  | .arestore o => Sys2Proof.Machine.execArestore o s
  | .klaunch o => Sys2Proof.Machine.execKlaunch o s
  | .travpop o => Sys2Proof.Machine.execTravpop o s
  | .sfrqpop o => Sys2Proof.Machine.execSfrqpop o s
  | .samppop o => Sys2Proof.Machine.execSamppop o s
  | .mseqWrite o => Sys2Proof.Machine.execMseqWrite o s
  | .munitWrite o => Sys2Proof.Machine.execMunitWrite o s
  | .travctlWrite o => Sys2Proof.Machine.execTravctlWrite o s
  | .sampctlWrite o => Sys2Proof.Machine.execSampctlWrite o s
  | .amodeWrite o => Sys2Proof.Machine.execAmodeWrite o s
  | .vuseWrite o => Sys2Proof.Machine.execVuseWrite o s
  | .cmpctlWrite o => Sys2Proof.Machine.execCmpctlWrite o s
  | .strecWrite o => Sys2Proof.Machine.execStrecWrite o s
  | .qosbudWrite o => Sys2Proof.Machine.execQosbudWrite o s
  | .darbWrite o => Sys2Proof.Machine.execDarbWrite o s
  | .forcedIssue core => Sys2Proof.Machine.execForcedIssue core s
  | .firingStart core slot => Sys2Proof.Machine.execFiringStart core slot s
  | .taskTake core slot => Sys2Proof.Machine.execTaskTake core slot s
  | .stealWaitExpiry core slot => Sys2Proof.Machine.execStealWaitExpiry core slot s
  | .qstall core slot => Sys2Proof.Machine.execQstall core slot s
  | .vectorWake core slot => Sys2Proof.Machine.execVectorWake core slot s
  | .messageArrival n => Sys2Proof.Machine.execMessageArrival n s
  | .sendLaunch unit n => Sys2Proof.Machine.execSendLaunch unit n s
  | .messageAnswer n => Sys2Proof.Machine.execMessageAnswer n s
  | .returnDelivery unit n => Sys2Proof.Machine.execReturnDelivery unit n s
  | .retryBackoffExpiry unit n => Sys2Proof.Machine.execRetryBackoffExpiry unit n s
  | .remoteStoreArrival n => Sys2Proof.Machine.execRemoteStoreArrival n s
  | .storeAck n => Sys2Proof.Machine.execStoreAck n s
  | .remoteLoadArrival n => Sys2Proof.Machine.execRemoteLoadArrival n s
  | .loadReply n => Sys2Proof.Machine.execLoadReply n s
  | .remoteBankOpArrival n => Sys2Proof.Machine.execRemoteBankOpArrival n s
  | .bankOpReply n => Sys2Proof.Machine.execBankOpReply n s
  | .atomicArrival n => Sys2Proof.Machine.execAtomicArrival n s
  | .atomicReply n => Sys2Proof.Machine.execAtomicReply n s
  | .storeLeavesQueue core slot => Sys2Proof.Machine.execStoreLeavesQueue core slot s
  | .combiningBufferSend core slot n => Sys2Proof.Machine.execCombiningBufferSend core slot n s
  | .plbFillComplete core n => Sys2Proof.Machine.execPlbFillComplete core n s
  | .translationWalkComplete n => Sys2Proof.Machine.execTranslationWalkComplete n s
  | .l2Eviction n => Sys2Proof.Machine.execL2Eviction n s
  | .storefault core slot => Sys2Proof.Machine.execStorefault core slot s
  | .matrixOpComplete core => Sys2Proof.Machine.execMatrixOpComplete core s
  | .mgemmStepComplete core => Sys2Proof.Machine.execMgemmStepComplete core s
  | .mgemmRestart core => Sys2Proof.Machine.execMgemmRestart core s
  | .drainBlockArrival n => Sys2Proof.Machine.execDrainBlockArrival n s
  | .drainWake core n => Sys2Proof.Machine.execDrainWake core n s
  | .migrationArrival n => Sys2Proof.Machine.execMigrationArrival n s
  | .waypointForward n => Sys2Proof.Machine.execWaypointForward n s
  | .migrateBack core slot => Sys2Proof.Machine.execMigrateBack core slot s
  | .barrierComplete team entry => Sys2Proof.Machine.execBarrierComplete team entry s
  | .tendDecrementReply n => Sys2Proof.Machine.execTendDecrementReply n s
  | .jobStart cluster n => Sys2Proof.Machine.execJobStart cluster n s
  | .jobEnd cluster n => Sys2Proof.Machine.execJobEnd cluster n s
  | .collectiveInstanceComplete team entry bcast => Sys2Proof.Machine.execCollectiveInstanceComplete team entry bcast s
  | .gatherLaneReply core n => Sys2Proof.Machine.execGatherLaneReply core n s
  | .streamPush core k => Sys2Proof.Machine.execStreamPush core k s
  | .rangeRetire core n => Sys2Proof.Machine.execRangeRetire core n s
  | .leaseGrant n => Sys2Proof.Machine.execLeaseGrant n s
  | .cleaningDone n => Sys2Proof.Machine.execCleaningDone n s
  | .kernelLeaseExpiry n => Sys2Proof.Machine.execKernelLeaseExpiry n s
  | .kernelSaved n => Sys2Proof.Machine.execKernelSaved n s
  | .kernelEnd n => Sys2Proof.Machine.execKernelEnd n s
  | .kernelFault n => Sys2Proof.Machine.execKernelFault n s
  | .rowAccessPerformed svc => Sys2Proof.Machine.execRowAccessPerformed svc s
  | .scanrowWave svc => Sys2Proof.Machine.execScanrowWave svc s
  | .arbSlot channel => Sys2Proof.Machine.execArbSlot channel s
  | .tokenRefill unit => Sys2Proof.Machine.execTokenRefill unit s
  | .preemptionRequest scope arg => Sys2Proof.Machine.execPreemptionRequest scope arg s
  | .slotHalt core slot => Sys2Proof.Machine.execSlotHalt core slot s
  | .preemptionWithdraw scope arg => Sys2Proof.Machine.execPreemptionWithdraw scope arg s
  | .teamSwapOut team => Sys2Proof.Machine.execTeamSwapOut team s
  | .teamSwapIn team place => Sys2Proof.Machine.execTeamSwapIn team place s
  | .quantumExpiry => Sys2Proof.Machine.execQuantumExpiry s
  | .teamLaunch team place => Sys2Proof.Machine.execTeamLaunch team place s
  | .teamEnd team => Sys2Proof.Machine.execTeamEnd team s
  | .pcSample core => Sys2Proof.Machine.execPcSample core s
  | .errorDetected unit addr unc => Sys2Proof.Machine.execErrorDetected unit addr unc s
  | .surveyorTestDone n outcome => Sys2Proof.Machine.execSurveyorTestDone n outcome s
  | .linkRetrain link phase => Sys2Proof.Machine.execLinkRetrain link phase s
  | .deviceLost device => Sys2Proof.Machine.execDeviceLost device s
  | .powerLimitAction action arg => Sys2Proof.Machine.execPowerLimitAction action arg s
  | .thermalTrip => Sys2Proof.Machine.execThermalTrip s
  | .powerOnReset => Sys2Proof.Machine.execPowerOnReset s
  | .watchdogReset => Sys2Proof.Machine.execWatchdogReset s
  | .ownershipLapse => Sys2Proof.Machine.execOwnershipLapse s
  | .hread cmd => Sys2Proof.Machine.execHread cmd s
  | .hwrite cmd => Sys2Proof.Machine.execHwrite cmd s
  | .hsend cmd => Sys2Proof.Machine.execHsend cmd s
  | .claim cmd => Sys2Proof.Machine.execClaim cmd s
  | .renew cmd => Sys2Proof.Machine.execRenew cmd s
  | .yield cmd => Sys2Proof.Machine.execYield cmd s
  | .leaseset cmd => Sys2Proof.Machine.execLeaseset cmd s
  | .image cmd => Sys2Proof.Machine.execImage cmd s
  | .attest cmd => Sys2Proof.Machine.execAttest cmd s
  | .lcset cmd => Sys2Proof.Machine.execLcset cmd s
  | .partset cmd => Sys2Proof.Machine.execPartset cmd s
  | .dompart cmd => Sys2Proof.Machine.execDompart cmd s
  | .traceset cmd => Sys2Proof.Machine.execTraceset cmd s
  | .quantum cmd => Sys2Proof.Machine.execQuantum cmd s
  | .devidset cmd => Sys2Proof.Machine.execDevidset cmd s
  | .replay cmd => Sys2Proof.Machine.execReplay cmd s
  | .reset cmd => Sys2Proof.Machine.execReset cmd s
  | .commandActorMessage n => Sys2Proof.Machine.execCommandActorMessage n s
  | .deviceReinstate device => Sys2Proof.Machine.execDeviceReinstate device s
  | .hostLinkDrop master connected => Sys2Proof.Machine.execHostLinkDrop master connected s

end Sys2Proof.Machine
end

