-- ==== Sys2Proof/Machine/Issue.lean ====
section
/-! DEFINITION. Issuing one instruction (R46, R332), which slots are READY (R16), and what each turn of a unit does:
a core's cycle and choice (R17, R30), an SVC's, and a host command's arrival. -/

namespace Sys2Proof.Machine

/-- Whether a slot waits with nothing begun: its instruction is tried again. -/
def State.stuck (s : State) (c k : Nat) : Bool :=
  let sl := s.slot c k
  (match sl.status with | .stalled _ => true | _ => false) && sl.pend.isNone && sl.awayAt.isNone && !sl.haltReq && !sl.halted

/-- Run a decoded instruction (R46): its profile and mode, breakpoints, then its meaning. A match that only traces is
recorded once, when the instruction issues. -/
def State.runDecoded (s : State) (i : Instr) : Host.Outcome State Fault Refusal :=
  match opOf i with
  | none => .next s
  | some (code, o) =>
    match rowOf code with
    | none => .next (s.trapCur .illegal (packWord0 code o))
    | some r =>
      if !s.allowed r then .next (s.trapCur .illegal (packWord0 code o))
      else match s.cur with
        | .svc _ => exec i s
        | .slot c k =>
          let pc := s.thread.pc
          let hits := s.breakHits c k pc
          match breakValue hits with
          | some v => .next (s.trapCur .brk v)
          | none =>
            if hits.isEmpty then exec i s
            else match exec i s with
              | .next t => if t.stuck c k then .next t else exec i (s.breakTrace c k pc hits)
              | r => r

/-- Fetch, decode and run the agent's next instruction. -/
def State.fetchRun (s : State) : Host.Outcome State Fault Refusal :=
  match fetchBytes s with
  | .error e => .next (s.conclude .w64 (.error e))
  | .ok (bs, s1) =>
    match decodeBlock s1.prof bs with
    | .error (.illegal v) => .next (s1.trapCur .illegal v)
    | .error (.boundary v) => .next (s1.trapCur .boundary v)
    | .ok (i, _) => s1.runDecoded i

/-- Issue for the agent: a pending STOREFAULT first (R332), then the fault of a matrix sequence's
restart (R174), else its next instruction, unless the deep guard holds an access that the slot has made (R321). -/
def State.issueOne (s : State) : Host.Outcome State Fault Refusal :=
  match s.cur with
  | .svc n => if 256 ≤ n then .fault .noSuchUnit else s.fetchRun
  | .slot c k =>
    if 4096 ≤ c || 4 ≤ k then .fault .noSuchUnit
    else if (s.slot c k).sfPending && !(s.slot c k).draining then execStorefault c k s
    else match (s.slot c k).seqFault with
      | some (cause, v) => .next ((s.modSlot c k (fun x => { x with seqFault := none })).trapCur cause v)
      | none => if s.guardStalls c k then .next (s.stallCur .guard) else s.fetchRun

/-! ### READY and STALLED (R16) -/

/-- Whether a slot is READY or STALLED by its next instruction: it is tried. READY, and what it tries issues in this cycle;
STALLED, and it waits, with what it asks for asked. -/
def State.recheckSlot (s : State) (c k : Nat) : State :=
  let waits := s.stuck c k
  if !waits && !(s.core c).pickable k then s
  else
    let ready := if waits then s.modSlot c k (fun x => { x with status := .ready }) else s
    match ({ ready with cur := .slot c k } : State).issueOne with
    | .next t => if t.stuck c k then { t with cur := s.cur, granted := s.granted } else ready
    | _ => s

/-- A slot whose instruction is in progress goes on: a TEND that pushes, a JOB that waits. -/
def State.continueSlot (s : State) (c k : Nat) : State := (s.tendRetry c k).jobRetry c k

/-- The slots of a core as this cycle finds them. -/
def State.recheck (s : State) (c : Nat) : State := (List.range 4).foldl (fun s k => (s.continueSlot c k).recheckSlot c k) s

/-! ### Turns -/

/-- What one cycle of its core does to a slot: the counts of R17 and R214, a worker's wait (R213). The cycles in which a stalled slot is
halted count toward QWAIT.LIMIT, and the count outlasts the resume (DESIGN CHOICE, log entry 62: R214 says only 'consecutive own
cycles'). -/
def Slot.cycle (sl : Slot) (issued : Bool) : Slot :=
  { sl with
    readyFor := if sl.status == .ready && !issued then sl.readyFor + 1 else 0
    waited := if sl.blockedOn.isSome && sl.pend.isNone then sl.waited + 1 else 0
    stealWait := sl.stealWait - 1
    ni := sl.ni.map (·.count) }

/-- The back-offs of a cluster's scheduler count cycles of its lowest-numbered core (R290). -/
def State.tickCluster (s : State) (c : Nat) : State :=
  if c == clusterLow (clusterOf c) && s.clusters.any (fun e => e.1 == clusterOf c) then
    s.modCluster (clusterOf c) (fun x => { x with compl := x.compl.map (·.count) })
  else s

/-- A cycle of a core ends (R30): due samples are taken, counts rise, and the issue port is free again. -/
def State.endCycle (s1 : State) (c : Nat) : State :=
  let s2 := (s1.modCore c (fun x => { x with samp := { x.samp with count := x.samp.count + 1 } })).sample c
  let s3 := s2.modCore c (fun x =>
    { x with cyc := x.cyc + 1, issued := none,
             slots := Vector.ofFn (fun (i : Fin 4) => (x.slot i.val).cycle (x.issued == some i.val)) })
  ((List.range 4).foldl (fun s k => s.qstallCheck c k) s3).tickCluster c

/-- A cycle of a core: while a slot is READY and none has issued in it, one issues (R17); then it ends. -/
def State.tickCore (s : State) (c : Nat) : State :=
  let s1 := s.recheck c
  if (s1.core c).issued.isNone && (s1.core c).choose.isSome then s1.grant c (s1.core c).choose else s1.endCycle c

/-- A core chooses the slot that issues (R17). -/
def State.pickCore (s : State) (c : Nat) : State :=
  let s1 := s.recheck c
  s1.grant c (s1.core c).choose

/-- A cycle of an SVC (R305, R309). -/
def State.tickSvc (s : State) (n : Nat) : State :=
  s.modSvc n (fun v => { v with cyc := v.cyc + 1, left := v.left.map (· - 1) })

/-- An SVC that runs a kernel's code issues its next instruction. -/
def State.pickSvc (s : State) (n : Nat) : State :=
  if s.svcIssues n then { s with cur := .svc n, granted := true } else s

/-- The next unit to act: the agenda's head, or an open choice (R7, log entry 1). -/
def State.nextTurn (s : State) : Turn × State :=
  match s.agenda with
  | t :: r => (t, { s with agenda := r })
  | [] => (Config.freeTurn s.freeCtr, { s with freeCtr := s.freeCtr + 1 })

/-- A host command by its OPC (R393). -/
def State.hostArrives (s : State) (c : HostCmd) : Host.Outcome State Fault Refusal :=
  match c.opc.toNat with
  | 0x01 => execHread c s | 0x02 => execHwrite c s | 0x03 => execHsend c s
  | 0x10 => execClaim c s | 0x11 => execRenew c s | 0x12 => execYield c s | 0x13 => execLeaseset c s
  | 0x20 => execImage c s | 0x21 => execAttest c s | 0x22 => execLcset c s | 0x23 => execPartset c s | 0x24 => execDompart c s
  | 0x30 => execTraceset c s | 0x31 => execQuantum c s | 0x32 => execDevidset c s
  | 0x40 => execReplay c s | 0x41 => execReset c s
  | _ => .next (s.unknownCommand c)

/-- A command that comes over a link which carries no traffic waits there, and behind it those of the same link (R382, R398). -/
def State.hostTurn (s : State) (c : HostCmd) : Host.Outcome State Fault Refusal :=
  if s.masterUp c.master && !s.port.held.any (fun x => x.master == c.master) then s.hostArrives c
  else .next (s.modPort (fun p => { p with held := p.held ++ [c] }))

/-- A count of the Meridian, with which the oldest command that its link held arrives. -/
def State.portTurn (s : State) : Host.Outcome State Fault Refusal :=
  let s1 := s.meridianTick
  match s1.port.held.findIdx? (fun c => s1.masterUp c.master) with
  | none => .next s1
  | some i => match s1.port.held[i]? with
    | none => .next s1
    | some c => (s1.modPort (fun p => { p with held := ldel p.held i })).hostArrives c

/-- What a turn does. Only the opcode table's events happen of themselves; an instruction of the two profiles runs only
when it is issued. -/
def State.takeTurn (s : State) (t : Turn) : Host.Outcome State Fault Refusal :=
  match t with
  | .tick c => .next (if c < 4096 then s.tickCore c else s)
  | .pick c => .next (if c < 4096 then s.pickCore c else s)
  | .svcTick n => .next (if n < 256 then s.tickSvc n else s)
  | .svcPick n => .next (if n < 256 then s.pickSvc n else s)
  | .meridianTick => s.portTurn
  | .event i => if (opOf i).isNone then exec i s else .next s
  | .host cmd => s.hostTurn cmd
  | .funnel full => .next (s.setFunnel full)
  | .dropBlock c n => .next (s.modCore c (fun x => { x with icache := ldel x.icache n }))

/-! ### A program placed from outside (log entry 10) -/

/-- The team of one actor whose firing runs a placed instruction. -/
def placedTeam : Team :=
  { handle := 0, st := .resident, w := 1, h := 1, s := 1, ngroup := 0, calign := false, pin := true, orgx := 0, orgy := 0
    orgs := 0, place := some { planes := [0], x := 0, y := 0 }, domain := 0, qos := 0, steal := none, gaz := [], banks := []
    image := 0
    tmpls := [some { acode := 0, abase := 0, mbox := 0, worker := false, en := 0, soft := 0, vuse := 3, depths := [], htab := [] },
      none, none, none] }

/-- An actor's firing in slot 0 of core 0, at PC 0, with its code fetched. -/
def State.placeOnCore (s : State) (km : Bool) (code : BitVec 256) : State :=
  { s with
    teams := [placedTeam], poison := [], cur := .slot 0 0, granted := true,
    cores := aput s.cores 0 { s.core 0 with
      icache := [{ block := 0, dom := 0, data := code }]
      slots := vput (s.core 0).slots 0
        { status := .ready, km, ident := some { team := 0, member := 0, slot := 0 }, firing := some .task } } }

/-- A kernel's code at offset 0 of SVC 0's buffer, running at PC 0. -/
def State.placeOnSvc (s : State) (code : List Byte) : State :=
  { s with
    poison := [], cur := .svc 0, granted := true,
    svcs := aput s.svcs 0 { status := .running, mem := Mem.writeN [] 0 code } }

/-- Place the instruction whose bits the opcode table numbers: on an SVC when only the deep profile has it, else in a
firing of core 0, in K mode when only K mode may run it. -/
def State.placeWord (s : State) (nbits w : Nat) : State :=
  let v := w % 2 ^ nbits
  match rowOf (fieldAt v 2 8) with
  | some r => if r.core then s.placeOnCore r.kOnly (BitVec.ofNat 256 v) else s.placeOnSvc (natToBytes 32 v)
  | none => s.placeOnCore false (BitVec.ofNat 256 v)

end Sys2Proof.Machine
end

