-- ==== Sys2Proof/Machine/Step.lean ====
section
/-! DEFINITION. The step: the issue of the instruction that was granted, or else the next unit's turn. -/

namespace Sys2Proof.Machine

/-- One step of the device. -/
def step (s : State) : Host.Outcome State Fault Refusal :=
  if s.granted then ({ s with granted := false } : State).issueOne
  else (s.nextTurn).2.takeTurn (s.nextTurn).1

/-- The state with an instruction where the next step fetches it (log entry 10). -/
def State.withFetchWord (s : State) (nbits w : Nat) : State := s.placeWord nbits w

end Sys2Proof.Machine
end

