-- ==== Sys2Proof/Safety.lean ====
section
/-! DEFINITION. The terms of the claims: when an instruction may run, the state it leaves when it retires, what counts as a
safe run, and results written from the spec's own words (R74-R99). -/

namespace Sys2Proof.Machine

/-! ### Running -/

/-- The agent may run an opcode now: its profile and mode allow it (R46), no store check holds its slot (R337), and no p
register holds an error (R332). -/
def State.mayRun (s : State) (code : Nat) : Bool :=
  match rowOf code with
  | some r => s.allowed r && !s.skidFull && (List.range 32).all (fun n => (s.maskError n).isNone)
  | none => false

/-- The state once an instruction of a length has retired in state t: the issue is noted and the counter moves on. -/
def State.finish (t : State) (len : Len) : State := t.noteIssue.advance len .next

/-- The state once an instruction has transferred control to an address. -/
def State.goto (t : State) (a : BitVec 64) : State := t.noteIssue.advance .w64 (.jump a)

/-- A run is safe while no step stops the machine: every step answers a next state. -/
def SafeFor : Nat → State → Prop
  | 0, _ => True
  | n + 1, s => ∃ t, step s = .next t ∧ SafeFor n t

/-- What a lane instruction without an enabled lane leaves in D: a queue takes an entry of zeros, nothing else changes (R20, R104). -/
def noLane (d : Opd) (s t : State) : Prop :=
  match d with | .queue q => dstX (.queue q) 0 s = .ok ((), t) | _ => t = s

/-- No byte of any memory differs: local memories, buffers, HBM, and the lines that caches hold. -/
def State.sameMemory (s t : State) : Prop :=
  (∀ c, (t.core c).mem = (s.core c).mem ∧ (t.core c).leg = (s.core c).leg ∧ (t.core c).l1 = (s.core c).l1) ∧
  (∀ n, (t.svc n).mem = (s.svc n).mem ∧ (t.svc n).leg = (s.svc n).leg) ∧
  t.hbm = s.hbm ∧ t.hbmLeg = s.hbmLeg ∧ t.l2 = s.l2

/-- What lies outside cores and SVCs is as it was: the other units, the network, the tables, the port die. -/
def State.sameRest (s t : State) : Prop :=
  t.clusters = s.clusters ∧ t.channels = s.channels ∧ t.slices = s.slices ∧ t.teams = s.teams ∧ t.kernels = s.kernels ∧
  t.net = s.net ∧ t.hbm = s.hbm ∧ t.hbmLeg = s.hbmLeg ∧ t.l2 = s.l2 ∧ t.walks = s.walks ∧ t.xlat = s.xlat ∧
  t.domtab = s.domtab ∧ t.ptroot = s.ptroot ∧ t.port = s.port

/-- What an instruction of slot k of core c leaves of everything else: all other cores and slots, the SVCs, the units outside, and of
its own core the caches, the stream records and the rings. -/
def State.sameElse (s t : State) (c k : Nat) : Prop :=
  s.sameRest t ∧ t.svcs = s.svcs ∧ (∀ d, d ≠ c → t.core d = s.core d) ∧ (∀ j, j ≠ k → t.slot c j = s.slot c j) ∧
  let x := s.core c
  let y := t.core c
  y.l1 = x.l1 ∧ y.plb = x.plb ∧ y.icache = x.icache ∧ y.streams = x.streams ∧ y.trav = x.trav ∧ y.samp = x.samp ∧ y.cyc = x.cyc

/-- Of a slot, what only system and actor instructions change: its mode, its actor and its firing. -/
def State.sameActor (s t : State) (c k : Nat) : Prop :=
  (t.slot c k).km = (s.slot c k).km ∧ (t.slot c k).act = (s.slot c k).act ∧ (t.slot c k).ident = (s.slot c k).ident ∧
  (t.slot c k).firing = (s.slot c k).firing

/-- Of a core, its local memory with the legends, its banks, its queues and its deque. -/
def State.sameLocal (s t : State) (c : Nat) : Prop :=
  (t.core c).mem = (s.core c).mem ∧ (t.core c).leg = (s.core c).leg ∧ (t.core c).banks = (s.core c).banks ∧
  (t.core c).queues = (s.core c).queues ∧ (t.core c).deque = (s.core c).deque

/-! ### Results of integer instructions, over n-bit words (R77-R83) -/

/-- A binary operation at any width. -/
abbrev Op2 := (n : Nat) → BitVec n → BitVec n → BitVec n

/-- The high half of the signed and of the unsigned product (R77). -/
def specMulh : Op2 := fun n x y => ((x.signExtend (2 * n) * y.signExtend (2 * n)) >>> n).setWidth n
def specMulhn : Op2 := fun n x y => ((x.setWidth (2 * n) * y.setWidth (2 * n)) >>> n).setWidth n

/-- The two-source instructions of R77 with their opcodes and results; shift counts are the low log2(n) bits of b. -/
def intTable : List ((Op → Instr) × Nat × Op2) := [
  (.add, 0x01, fun _ x y => x + y), (.sub, 0x02, fun _ x y => x - y), (.mul, 0x03, fun _ x y => x * y),
  (.mulh, 0x04, specMulh), (.mulhn, 0x05, specMulhn),
  (.and, 0x0A, fun _ x y => x &&& y), (.or, 0x0B, fun _ x y => x ||| y), (.xor, 0x0C, fun _ x y => x ^^^ y),
  (.andn, 0x0D, fun _ x y => x &&& ~~~y), (.orn, 0x0E, fun _ x y => x ||| ~~~y),
  (.shl, 0x0F, fun n x y => x <<< (y.toNat % n)), (.shr, 0x10, fun n x y => x >>> (y.toNat % n)),
  (.sra, 0x11, fun n x y => x.sshiftRight (y.toNat % n)),
  (.rol, 0x12, fun n x y => x.rotateLeft (y.toNat % n)), (.ror, 0x13, fun n x y => x.rotateRight (y.toNat % n)),
  (.min, 0x14, fun _ x y => if y.slt x then y else x), (.max, 0x15, fun _ x y => if x.slt y then y else x),
  (.minn, 0x16, fun _ x y => if y.ult x then y else x), (.maxn, 0x17, fun _ x y => if x.ult y then y else x)]

/-- The divisions of R78. -/
def divTable : List ((Op → Instr) × Nat × Op2) := [
  (.div, 0x06, fun n x y => if y = 0 then (if x.msb then BitVec.intMin n else BitVec.intMax n) else x.sdiv y),
  (.divn, 0x07, fun n x y => if y = 0 then BitVec.allOnes n else x / y),
  (.rem, 0x08, fun _ x y => if y = 0 then x else x.srem y),
  (.remn, 0x09, fun _ x y => if y = 0 then x else x % y)]

/-- The one-source instructions of R79, R81 and R82. -/
def intTable1 : List ((Op → Instr) × Nat × (Op → (n : Nat) → BitVec n → BitVec n)) := [
  (.clz, 0x18, fun _ n x => BitVec.ofNat n ((List.range n).takeWhile (fun i => !x.getLsbD (n - 1 - i))).length),
  (.ctz, 0x19, fun _ n x => BitVec.ofNat n ((List.range n).takeWhile (fun i => !x.getLsbD i)).length),
  (.popc, 0x1A, fun _ n x => BitVec.ofNat n ((List.range n).filter (fun i => x.getLsbD i)).length),
  (.brev, 0x1B, fun _ _ x => x.reverse),
  (.bswap, 0x1C, fun _ n x => BitVec.ofNat n (bytesToNat (natToBytes (n / 8) x.toNat).reverse)),
  (.bext, 0x1D, fun o n x =>
    let f := x.extractLsb' (i18f o 5 0) (i18f o 11 6 + 1)
    if i18f o 12 12 = 1 then f.signExtend n else f.setWidth n),
  (.ext, 0x2A, fun o n x =>
    let f := x.setWidth (i18f o 5 0 + 1)
    if i18f o 6 6 = 1 then f.signExtend n else f.setWidth n)]

/-- BINS (R81): y with the len bits from pos replaced by the low bits of x. -/
def specBins (n pos len : Nat) (x y : BitVec n) : BitVec n :=
  let mask := ((1#n <<< len) - 1#n) <<< pos
  (y &&& ~~~mask) ||| ((x <<< pos) &&& mask)

/-- The address of MKADDR (R87) and the actor address of MKACT (R88), field by field. -/
def specMkaddr (win : Nat) (a b c : BitVec 64) : BitVec 64 :=
  match win with
  | 0 => 0xFC#8 ++ 0#20 ++ a.setWidth 36
  | 1 => 0xFE#8 ++ c.setWidth 8 ++ b.setWidth 12 ++ a.setWidth 36
  | _ => 0xFD#8 ++ 0#8 ++ b.setWidth 12 ++ a.setWidth 36
def specMkact (o : Op) (a b : BitVec 64) : BitVec 64 :=
  0#36 ++ o.i18.extractLsb' 7 1 ++ o.i18.extractLsb' 6 1 ++ b.setWidth 8 ++ a.setWidth 12 ++ o.i18.extractLsb' 4 2 ++
    o.i18.extractLsb' 0 4

/-- An operation on one integer width applied to 64-bit sources: the low bits are used, the result is zero-extended (R74). -/
def atWidth (f : Op2) (n : Nat) (a b : BitVec 64) : BitVec 64 := (f n (a.setWidth n) (b.setWidth n)).setWidth 64

/-- The conditions of SET, PSET and VCMP (R83). -/
def specCond (m n : Nat) (x y : BitVec n) : Bool :=
  match m with
  | 0 => x == y | 1 => x != y | 2 => x.slt y | 3 => y.sle x | 4 => x.sle y | 5 => y.slt x
  | 6 => x.ult y | 7 => y.ule x | 8 => x.ule y | _ => y.ult x

/-- An instruction's agent runs it with its guard bit set. -/
def State.runs (s : State) (code : Nat) (o : Op) : Prop := s.mayRun code = true ∧ s.thread.guardBit o = true

/-- The scalar floating-point instructions with their opcodes, result and flags (R93-R99): rm is FPCTL.RM, a and b the operands. -/
def fpTable2 : List ((Op → Instr) × Nat × (Op → Nat → Nat → Nat → Nat × Flags)) := [
  (.fadd, 0x50, fun o => fpAdd (fmtOf o.t.toNat)), (.fsub, 0x51, fun o => fpSub (fmtOf o.t.toNat)),
  (.fmul, 0x52, fun o => fpMul (fmtOf o.t.toNat)), (.fdiv, 0x54, fun o => fpDiv (fmtOf o.t.toNat)),
  (.fmin, 0x56, fun o _ => fpMinMax (fmtOf o.t.toNat) false), (.fmax, 0x57, fun o _ => fpMinMax (fmtOf o.t.toNat) true),
  (.fcmp, 0x58, fun o _ a b => ((fpCond (fmtOf o.t.toNat) o.m.toNat a b).1.toNat, (fpCond (fmtOf o.t.toNat) o.m.toNat a b).2)),
  (.fsgn, 0x5B, fun o _ a b => (fpSign (fmtOf o.t.toNat) o.m.toNat a b, 0))]
def fpTable1 : List ((Op → Instr) × Nat × (Op → Nat → Nat → Nat × Flags)) := [
  (.fsqrt, 0x55, fun o => fpSqrt (fmtOf o.t.toNat)), (.fcvt, 0x59, fun o rm => fpConvert rm o.t.toNat o.m.toNat),
  (.fclass, 0x5A, fun o _ a => (fpClass (fmtOf o.t.toNat) a, 0))]

/-- A slot issues with nothing of its own outstanding, nothing held in local memory, no error in data and no watchpoint:
every order and hazard wait of a local access is met. -/
def State.calm (s : State) (c k : Nat) : Prop :=
  s.cur = .slot c k ∧ k < 4 ∧ (s.slot c k).sq = [] ∧ (s.slot c k).comb = [] ∧ (s.slot c k).owed = [] ∧ (s.slot c k).unacked = [] ∧
  (∀ x, (s.core x).ranges = [] ∧ (s.core x).gathers = []) ∧ s.poison = [] ∧ s.comparators c k 2 = []

/-- The pieces of bytes stored at an address: cut where a bank of local memory ends (R267). -/
def bankCut (a : Nat) (bs : List Byte) : List (Nat × List Byte) :=
  let n := 0x2000 - a % 0x2000
  if bs.length ≤ n then [(a, bs)] else [(a, bs.take n), (a + n, bs.drop n)]

/-- The local memory of core c after bytes are written from an offset: masked bytes keep what was there. -/
def State.wroteLocal (s t : State) (c off : Nat) (bs : List (Option Byte)) : Prop :=
  (∀ x, Mem.read (t.core c).mem x = if off ≤ x ∧ x < off + bs.length then (lget none bs (x - off)).getD (Mem.read (s.core c).mem x)
    else Mem.read (s.core c).mem x) ∧
  (∀ d, d ≠ c → (t.core d).mem = (s.core d).mem) ∧ (∀ d, (t.core d).leg = (s.core d).leg ∧ (t.core d).l1 = (s.core d).l1) ∧
  (∀ n, (t.svc n).mem = (s.svc n).mem ∧ (t.svc n).leg = (s.svc n).leg) ∧ t.hbm = s.hbm ∧ t.hbmLeg = s.hbmLeg ∧ t.l2 = s.l2

/-- No ARRAY span reaches any of n bytes from an offset of core c, every bank they lie in is ARRAY and unspanned (R153), and
the memory is in its canonical form. -/
def State.plainArray (s : State) (c off n : Nat) : Prop :=
  Memory.wf (s.core c).mem = true ∧ ∀ i, i < n → s.spanTarget c (off + i) = none ∧ (s.bank c ((off + i) / 0x2000)).pers = 0 ∧
    (s.bank c ((off + i) / 0x2000)).isMember = false

/-- Every memory is in its canonical form (log entry 42): of the cores, of the SVCs, HBM, and what swaps and pre-emptions saved. -/
def State.memWf (s : State) : Prop :=
  (∀ c, Memory.wf (s.core c).mem = true) ∧ (∀ n, Memory.wf (s.svc n).mem = true) ∧ Memory.wf s.hbm = true ∧
  (∀ tm ∈ s.teams, ∀ e ∈ tm.saves, Memory.wf e.2.mem = true) ∧ ∀ k ∈ s.kernels, ∀ e ∈ k.saves, Memory.wf e.2.mem = true

/-- The new value of an atomic over n bits (R276), and whether it is written. -/
def specAtomic (code n : Nat) (old b c : BitVec n) : BitVec n × Bool :=
  match code with
  | 0x70 => (old + b, true) | 0x71 => (old &&& b, true) | 0x72 => (old ||| b, true) | 0x73 => (old ^^^ b, true)
  | 0x74 => (if b.slt old then b else old, true) | 0x75 => (if old.slt b then b else old, true)
  | 0x76 => (if b.ult old then b else old, true) | 0x77 => (if old.ult b then b else old, true)
  | 0x78 => (b, true) | _ => (c, old == b)

/-- The integer atomics with their opcodes. -/
def atomicTable : List ((Op → Instr) × Nat) := [
  (.amadd, 0x70), (.amand, 0x71), (.amor, 0x72), (.amxor, 0x73), (.ammin, 0x74), (.ammax, 0x75), (.amminn, 0x76),
  (.ammaxn, 0x77), (.amswap, 0x78), (.amcas, 0x79)]

/-- The bank instructions other than BSPAN, with their opcodes (R132). -/
def bankTable : List ((Op → Instr) × Nat) := [
  (.bpers, 0xB0), (.bput, 0xB2), (.bputu, 0xB3), (.bget, 0xB4), (.bpeek, 0xB5), (.btake, 0xB6), (.bfind, 0xB7), (.binc, 0xB8),
  (.bcnt, 0xB9), (.bclr, 0xBA), (.blatch, 0xBB), (.bstat, 0xBC)]

/-- The entries of sub-queue i of a QUEUE bank, head first (R135). -/
def State.queueList (s : State) (c b i : Nat) : List Nat :=
  let x := s.bank c b
  (List.range (x.count i)).map (fun j => s.bankWord c b (x.esz * x.entryIx i j) x.esz)

/-- An unspanned QUEUE bank whose sub-queue i is within its depth and its region, in canonical memory. -/
def State.soundQueue (s : State) (c b i : Nat) : Prop :=
  let x := s.bank c b
  b < 16 ∧ x.span = none ∧ i < x.counts.length ∧ i < x.heads.length ∧ 0 < x.depth i ∧ x.count i ≤ x.depth i ∧ x.head i < x.depth i ∧
  x.subBase i + x.depth i ≤ x.units ∧ Memory.wf (s.core c).mem = true

/-- A bank whose structure lies within its bytes: a sub-queue within its region, a MAP or HEAP of at most 512 places, a HIST whose edge
bin has room. -/
def State.bankFits (s : State) (c b i : Nat) : Prop :=
  let x := s.bank c b
  b < 16 ∧ Memory.wf (s.core c).mem = true ∧ (x.pers = 1 → i ≤ x.subq → s.soundQueue c b i) ∧ (x.pers = 3 → x.cap ≤ 512) ∧
  (x.pers = 4 → x.cap ≤ 512 ∧ x.hcount ≤ x.cap) ∧ (x.pers = 5 → ctlMask x.ctl.toNat = 2047 → ctlEdge x.ctl.toNat = 0)

/-- The items of a HEAP bank, each an entry with its sequence (R138). -/
def State.heapItems (s : State) (c b : Nat) : List (Nat × Nat) := (List.range (s.bank c b).hcount).map (s.heapItem c b)

/-- A HEAP bank within its capacity whose items are in heap order (R138), in canonical memory. -/
def State.soundHeap (s : State) (c b : Nat) : Prop :=
  b < 16 ∧ (s.bank c b).cap ≤ 512 ∧ (s.bank c b).hcount ≤ (s.bank c b).cap ∧ Memory.wf (s.core c).mem = true ∧
  ∀ i, 0 < i → i < (s.bank c b).hcount → heapKey (s.heapItem c b ((i - 1) / 2)) ≤ heapKey (s.heapItem c b i)

/-! ### Exact values as rationals (R51, R55, R63) -/

/-- The rational number that a finite value is; 0 for the others. -/
def FVal.toRat : FVal → ℚ
  | .fin neg m e => (if neg then -1 else 1) * ((m : ℚ) * 2 ^ e)
  | _ => 0

/-- k is the non-negative real n, times the sign, rounded to an integer in mode rm (R63): the modes 5 to 7 act as RNE. -/
def roundsTo (rm : Nat) (neg : Bool) (n : ℚ) (k : Nat) : Prop :=
  match rm with
  | 1 => (k : ℤ) = ⌊n⌋
  | 2 => (k : ℤ) = if neg then ⌈n⌉ else ⌊n⌋
  | 3 => (k : ℤ) = if neg then ⌊n⌋ else ⌈n⌉
  | 4 => |(k : ℚ) - n| ≤ 1 / 2 ∧ (|(k : ℚ) - n| = 1 / 2 → n < k)
  | _ => |(k : ℚ) - n| ≤ 1 / 2 ∧ (|(k : ℚ) - n| = 1 / 2 → k % 2 = 0)

/-! ### Results of lane instructions (R101-R123) -/

/-- Lane i of a vector value. -/
def laneAt (w v i : Nat) : BitVec w := BitVec.ofNat w (v / 2 ^ (w * i))

/-- The integer that a lane holds, read as unsigned or as signed. -/
def laneVal {w : Nat} (uns : Bool) (x : BitVec w) : Int := if uns then (x.toNat : Int) else x.toInt

/-- A result clamped to the range of a lane, with SATF when it was clamped (R108). -/
def satLane (w : Nat) (uns : Bool) (i : Int) : Nat × Flags :=
  let lo : Int := if uns then 0 else -(2 : Int) ^ (w - 1)
  let hi : Int := if uns then (2 : Int) ^ w - 1 else (2 : Int) ^ (w - 1) - 1
  ((BitVec.ofInt w (max lo (min hi i))).toNat, if lo ≤ i ∧ i ≤ hi then 0 else flSATF)

/-- The two-source lane instructions (R107-R109): result and flags of one lane under rounding mode rm. -/
def laneTable2 : List ((Op → Instr) × Nat × (Op → (w : Nat) → Nat → BitVec w → BitVec w → Nat × Flags)) := [
  (.vadd, 0x80, fun o w _ x y =>
    if o.m = 0 then ((x + y).toNat, 0) else satLane w (o.m == 2) (laneVal (o.m == 2) x + laneVal (o.m == 2) y)),
  (.vsub, 0x81, fun o w _ x y =>
    if o.m = 0 then ((x - y).toNat, 0) else satLane w (o.m == 2) (laneVal (o.m == 2) x - laneVal (o.m == 2) y)),
  (.vmul, 0x82, fun _ _ _ x y => ((x * y).toNat, 0)),
  (.vmulh, 0x83, fun o w _ x y => ((if o.m = 1 then specMulhn w x y else specMulh w x y).toNat, 0)),
  (.vand, 0x84, fun _ _ _ x y => ((x &&& y).toNat, 0)), (.vor, 0x85, fun _ _ _ x y => ((x ||| y).toNat, 0)),
  (.vxor, 0x86, fun _ _ _ x y => ((x ^^^ y).toNat, 0)),
  (.vshl, 0x87, fun _ w _ x y => ((x <<< (y.toNat % w)).toNat, 0)),
  (.vshr, 0x88, fun _ w _ x y => ((x >>> (y.toNat % w)).toNat, 0)),
  (.vsra, 0x89, fun _ w _ x y => ((x.sshiftRight (y.toNat % w)).toNat, 0)),
  (.vmin, 0x8A, fun o _ _ x y => ((if laneVal (o.m == 1) y < laneVal (o.m == 1) x then y else x).toNat, 0)),
  (.vmax, 0x8B, fun o _ _ x y => ((if laneVal (o.m == 1) x < laneVal (o.m == 1) y then y else x).toNat, 0)),
  (.vfadd, 0x8D, fun o _ rm x y => fpAdd (fmtOf o.t.toNat) rm x.toNat y.toNat),
  (.vfsub, 0x8E, fun o _ rm x y => fpSub (fmtOf o.t.toNat) rm x.toNat y.toNat),
  (.vfmul, 0x8F, fun o _ rm x y => fpMul (fmtOf o.t.toNat) rm x.toNat y.toNat),
  (.vfmin, 0x91, fun o _ _ x y => fpMinMax (fmtOf o.t.toNat) false x.toNat y.toNat),
  (.vfmax, 0x92, fun o _ _ x y => fpMinMax (fmtOf o.t.toNat) true x.toNat y.toNat),
  (.vfdiv, 0x93, fun o _ rm x y => fpDiv (fmtOf o.t.toNat) rm x.toNat y.toNat)]

/-- The one-source lane instructions (R107, R109, R110, R119). -/
def laneTable1 : List ((Op → Instr) × Nat × (Op → (w : Nat) → Nat → BitVec w → Nat × Flags)) := [
  (.vabs, 0x8C, fun o w _ x => (if o.t.toNat < 4 then x.abs.toNat else x.toNat % 2 ^ (w - 1), 0)),
  (.vfsqrt, 0x94, fun o _ rm x => fpSqrt (fmtOf o.t.toNat) rm x.toNat),
  (.vexp2, 0x95, fun o _ _ x => fpExp2 (fmtOf o.t.toNat) x.toNat), (.vlog2, 0x96, fun o _ _ x => fpLog2 (fmtOf o.t.toNat) x.toNat),
  (.vrcp, 0x97, fun o _ _ x => fpRcp (fmtOf o.t.toNat) x.toNat), (.vrsq, 0x98, fun o _ _ x => fpRsq (fmtOf o.t.toNat) x.toNat),
  (.vpopc, 0xAA, fun _ w _ x => (((List.range w).filter (fun i => x.getLsbD i)).length, 0))]

/-- The lane comparisons (R111): the truth of one lane and its flags. -/
def laneCmpTable : List ((Op → Instr) × Nat × (Op → (w : Nat) → BitVec w → BitVec w → Bool × Flags)) := [
  (.vcmp, 0x99, fun o w x y => (specCond o.m.toNat w x y, 0)),
  (.vfcmp, 0x9A, fun o _ x y => fpCond (fmtOf o.t.toNat) o.m.toNat x.toNat y.toNat)]

/-- The lane moves (R112, R120), lane i of L of the result: x and y give the lanes of a and b, p the bits of pC. -/
def laneMoveTable : List ((Op → Instr) × Nat × Bool × (Op → Nat → (Nat → Nat) → (Nat → Nat) → (Nat → Bool) → Nat → Nat)) := [
  (.vsel, 0x9B, true, fun _ _ x y p i => if p i then x i else y i),
  (.vperm, 0x9F, true, fun _ l x y _ i => if y i < l then x (y i) else 0),
  (.vslide, 0xA0, true, fun o l x y _ i =>
    let k := i18f o 7 0
    if o.m = 1 then (if i + k < l then x (i + k) else y (i + k - l)) else (if i < k then y (l - k + i) else x (i - k))),
  (.vcompr, 0xAC, false, fun _ l x _ p i => match ((List.range l).filter p)[i]? with | some j => x j | none => 0),
  (.vexpnd, 0xAD, false, fun _ _ x _ p i => if p i then x ((List.range i).filter p).length else 0)]

/-- The reductions of R113 to an integer, over the integers of the enabled lanes. -/
def laneReduceTable : List ((Op → Instr) × Nat × (List Int → Int)) := [
  (.vredadd, 0xA1, List.sum), (.vredmax, 0xA2, fun l => l.foldl max (l.headD 0)),
  (.vredmin, 0xA3, fun l => l.foldl min (l.headD 0))]

/-- The instructions whose guard acts lane by lane: VLDS, VSTS, GATHER, DOT16 and every vector one but VSCALEQ (R101). -/
def laneCodes : List Nat := [0x66, 0x67, 0xE1, 0xEB] ++ ((List.range 48).map (0x80 + ·)).filter (· != 0xA7)

/-! ### The matrix unit (R156-R178) -/

/-- A matrix instruction finds its unit owned by the slot's domain, no sequence, and a place in the queue; nothing that R162
waits for is outstanding. -/
def State.matrixReady (s : State) (c k : Nat) : Prop :=
  let m := (s.core c).mu
  s.calm c k ∧ s.isGuest = false ∧ (∀ j, (s.slot c j).queued = []) ∧ m.en = true ∧ s.domainOf c k = m.domain.toNat ∧
  mseqActive m.mseq = false ∧ mseqHeld m.mseq = false ∧ m.queue.length < 8

/-- Rows in ARRAY banks of the issuing core (R160). -/
def State.rowsSound (s : State) (c k : Nat) (rows : List (BitVec 64 × Nat)) : Prop :=
  ∀ r ∈ rows, ∃ o, s.rowOff c k r = some o ∧ ∀ a ∈ [o, o + r.2 - 1],
    (s.bank c (a / 0x2000)).pers = 0 ∧ (s.bank c (a / 0x2000)).spanned = false

/-- Every block of the rows has a legend of one mode: binary16, or a binary8 code (R161). -/
def State.legsSound (s : State) (c k : Nat) (rows : List (BitVec 64 × Nat)) (b16 : Bool) : Prop :=
  ∀ r ∈ rows, ∀ o, s.rowOff c k r = some o → ∀ i, i < (r.2 + 63) / 64 →
    legMode (LegMap.read (s.core c).leg ((o + 64 * i) / 64)) = some b16

/-- The instruction issued: its operation is the newest of the queue, with its slot, rounding mode and actor, and nothing of
memory or of the unit's data changed. -/
def State.queuedOp (s t : State) (c k : Nat) (o : Op) (kind : MKind) : Prop :=
  ∃ op, (t.core c).mu = { (s.core c).mu with queue := (s.core c).mu.queue ++ [op] } ∧ op.kind = kind ∧ op.slot = k ∧
    op.rm = s.thread.rm ∧ op.ident = (s.slot c k).ident ∧ s.sameMemory t ∧
    t.thread = { s.thread with pc := s.thread.pc + BitVec.ofNat 64 (lenBytes o.len) }

/-- The 64 decoded elements of a tile's row at an offset (R161, R170, R171). -/
def State.tileElem (s : State) (c off : Nat) (b16 : Bool) (e : Nat) : FVal :=
  let o := off + (if b16 then 2 * e else e)
  decodeElem (Mem.word (s.core c).mem o (if b16 then 2 else 1)) (LegMap.read (s.core c).leg (o / 64))

/-- One element of a product (R163, R315) with its flags: four groups of sixteen, each added exactly and rounded once. -/
def prodElem (acc : BitVec 32) (row col : Nat → FVal) (rm : Nat) : Nat × Flags :=
  (List.range 4).foldl (fun (x : Nat × Flags) g =>
    let r := exactGroupSum x.1 ((List.range 16).map (fun t => row (16 * g + t))) ((List.range 16).map (fun t => col (16 * g + t))) rm
    (r.1, x.2 ||| r.2)) (acc.toNat, 0)

/-- All elements of a product of a row buffer with a macro (R163): the flags of their sums. -/
def prodFlags (acc : Nat → Nat → BitVec 32) (rows cols : Nat → Nat → FVal) (rm : Nat) : Flags :=
  (List.range 16).foldl (fun f i => (List.range 64).foldl (fun f j => f ||| (prodElem (acc i j) (rows i) (cols j) rm).2) f) 0

/-- A row of an accumulator converted to binary8 (R176, R177): the code of each element, the row's legend, and the flags. The scale is
chosen over the row; where it is 0x80 every element is the format's NaN. -/
def rowToB8 (row : Nat → BitVec 32) (f rm : Nat) (sat : Bool) : (Nat → Nat) × Legend × Flags :=
  let v (j : Nat) : FVal := f32.decode (row j).toNat
  let sc := chooseScale ((List.range 64).map v) f
  let q (j : Nat) : Nat × Flags := if sc.1 = 0x80 then (b8Nan f, 0) else quantize f rm sat sc.1 (v j)
  (fun j => (q j).1, BitVec.ofNat 16 (256 * sc.1 + f), (List.range 64).foldl (fun g j => g ||| (q j).2) sc.2)

/-- An element of a drained row in the format of MDRAIN's T (R176): its bits, the row's legend, and the row's flags. -/
def drainRow (t : Nat) (row : Nat → BitVec 32) (f rm : Nat) (sat : Bool) : (Nat → Nat) × Option Legend × Flags :=
  let h (j : Nat) : Nat × Flags := roundIeee f16 rm (f32.decode (row j).toNat)
  match t with
  | 5 => (fun j => (row j).toNat, none, 0)
  | 6 => (fun j => (h j).1, none, (List.range 64).foldl (fun g j => g ||| (h j).2) 0)
  | _ => ((rowToB8 row f rm sat).1, some (rowToB8 row f rm sat).2.1, (rowToB8 row f rm sat).2.2)

/-! ### System registers (R29) -/

/-- System registers of a slot in its actor's own core, with the value that SGET reads, field by field. -/
def sysReads : List (Nat × (State → Nat → Nat → BitVec 64)) := [
  (0x000, fun s c k => 0#53 ++ (s.slot c k).thr.flags ++ 0#1 ++ (s.slot c k).thr.rm), (0x001, fun s c k => 0#61 ++ (s.slot c k).regs.bst),
  (0x003, fun s c k => 0#32 ++ (s.slot c k).regs.livev),
  (0x004, fun s c k => 0#61 ++ BitVec.ofBool (s.slot c k).regs.vuseMode ++ (s.slot c k).regs.vuseN),
  (0x005, fun s c k => 0#62 ++ (s.slot c k).regs.qos), (0x006, fun s c k => 0#32 ++ (s.slot c k).regs.qwaitLimit),
  (0x008, fun s c _ => (s.core c).cyc), (0x010, fun _ c _ => BitVec.ofNat 64 c), (0x013, fun _ _ k => BitVec.ofNat 64 k),
  (0x020, fun s c k => (s.slot c k).regs.xpc), (0x021, fun s c k => 0#55 ++ (s.slot c k).regs.xcause),
  (0x022, fun s c k => (s.slot c k).regs.xval), (0x024, fun s c k => 0#28 ++ (s.slot c k).regs.gslot),
  (0x040, fun s c _ => (s.core c).mu.mseq), (0x103, fun s c k => vget 0 (s.slot c k).regs.latch 3),
  (0x110, fun s c _ => 0#47 ++ BitVec.ofBool (s.core c).mu.en ++ 0#4 ++ (s.core c).mu.domain),
  (0x125, fun s c k => vget 0 (s.slot c k).act.htab 5), (0x131, fun s c k => (s.slot c k).act.abase),
  (0x132, fun s c k => (s.slot c k).act.acode), (0x134, fun s c k => 0#47 ++ (s.slot c k).act.backoff),
  (0x140, fun s c k => 0#29 ++ (s.slot c k).regs.barpend), (0x170, fun s c k => 0#32 ++ (s.slot c k).regs.gstat),
  (0x171, fun s c k => (s.slot c k).regs.gfirst), (0x185, fun s c _ => ((s.core c).stream 1).strerr),
  (0x1A0, fun s c k => (s.slot c k).regs.kvec), (0x1A2, fun s c k => vget 0 (s.slot c k).regs.kscr 1),
  (0x1A9, fun s c k => (s.slot c k).regs.sfrqPc), (0x1AA, fun s c k => (s.slot c k).regs.sfrqInfo),
  (0x1AB, fun s c k => 0#56 ++ (s.slot c k).regs.sfrqLost), (0x1B8, fun s c k => 0#54 ++ (s.slot c k).regs.cmpsel)]

/-- System registers that keep what SSET writes, with the width that they keep of it. -/
def sysKeeps : List (Nat × Nat) :=
  [(0x005, 2), (0x006, 32), (0x020, 64), (0x021, 9), (0x022, 64), (0x131, 64), (0x134, 17), (0x140, 35), (0x170, 32), (0x171, 64),
   (0x1AB, 8), (0x1B8, 10)] ++ (List.range 8).map (fun i => (0x100 + i, 64)) ++ (List.range 4).map (fun i => (0x184 + i, 64)) ++
  (List.range 4).map (fun i => (0x1A1 + i, 64))

/-! ### Commands of the host (R386, R387, R393) -/

/-- A master that is connected, or a fabric peer not heard before. -/
def State.heard (s : State) (m : Nat) : Prop :=
  isMaster m = true ∧ (m < 3 → s.port.isConnected m = true) ∧ ∀ e ∈ s.port.masters, e.1 = m → e.2.connected = true

/-- A command with the next number of its master, which no CLAIM of the present count has just made the owner. -/
def State.nextCommand (s : State) (c : HostCmd) : Prop :=
  s.heard c.master ∧ (s.port.contest.isSome && s.isOwner c.master) = false ∧ c.seq = (s.port.master c.master).cmdseq + 1 ∧ c.len ≤ 4096

/-- The state once the number of a command is taken. -/
def State.taken (s : State) (c : HostCmd) : State := s.modPort (·.modMaster c.master (fun x => { x with cmdseq := c.seq }))

/-- Between two states, an event of a kind was sent to the command's master: its status, its two words and its payload. -/
def State.sent (s t : State) (c : HostCmd) (evt status b0 b1 : Nat) (payload : List Byte) : Prop :=
  ∃ es, ∃ e ∈ es, (t.port.master c.master).link = (s.port.master c.master).link ++ es ∧ e.evt = evt ∧ e.cseq = c.seq ∧
    e.status = status ∧ e.b0 = BitVec.ofNat 64 b0 ∧ e.b1 = BitVec.ofNat 64 b1 ∧ e.payload = payload

/-- Nothing but the port die changed. -/
def State.samePlant (s t : State) : Prop :=
  t.cores = s.cores ∧ t.svcs = s.svcs ∧ t.teams = s.teams ∧ t.kernels = s.kernels ∧ t.net = s.net ∧ t.hbm = s.hbm ∧ t.l2 = s.l2 ∧
  t.domtab = s.domtab ∧ t.ptroot = s.ptroot

/-- Every memory is wiped and no actor, team, kernel or message is left (R390). -/
def State.isWiped (t : State) : Prop :=
  t.cores = [] ∧ t.svcs = [] ∧ t.clusters = [] ∧ t.channels = [] ∧ t.slices = [] ∧ t.teams = [] ∧ t.kernels = [] ∧ t.net = [] ∧
  t.hbm = [] ∧ t.hbmLeg = [] ∧ t.l2 = [] ∧ t.walks = [] ∧ t.xlat = [] ∧ t.poison = [] ∧ t.domtab = 0 ∧ t.ptroot = 0

/-! ### Words that the spec spells out, with the profile that runs them -/

def workedWords : List (Profile × Nat × Instr) := [
  (.core, 0x000040000FC71C04, .add { d := .reg 7, a := .reg 7, b := .imm, i18 := 1 }),
  (.core, 0x000080000FC90484, .pset { d := .reg 1, a := .reg 9, b := .imm, i18 := 2 }),
  (.core, 0x00100000000720A4, .mkact { d := .reg 8, a := .reg 7, i18 := 0x40 }),
  (.core, 0xFFFF000000001914, .loop { d := .reg 6, i18 := 0x3FFFC }),
  (.core, 0x0003800400000100, .br { p := 1, i18 := 14 }),
  (.core, 0x00000140044E4540, .fadd { d := .reg 17, a := .reg 14, b := .reg 17, t := 5 }),
  (.core, 0x0000004000032980, .ld { d := .reg 10, a := .reg 3, t := 1 }),
  (.core, 0x0200180003900184, .st { a := .reg 16, b := .reg 14, m := 6, i18 := 0x800 }),
  (.core, 0x00000C0001C629C0, .amadd { d := .reg 10, a := .reg 6, b := .reg 7, m := 3 }),
  (.core, 0x00003C00000001AC, .fence { m := 15 }),
  (.core, 0x0000014030810E40, .vfma { d := .reg 3, a := .reg 1, b := .reg 2, c := .reg 3, t := 5 }),
  (.core, 0x000015C002C20EA0, .vquant { d := .reg 3, a := .reg 2, b := .reg 11, t := 7, m := 5 }),
  (.core, 0x0000000091C602C8, .bput { a := .reg 6, b := .reg 7, c := .reg 9 }),
  (.core, 0x08000000980312CC, .bputu { d := .reg 4, a := .reg 3, b := .chan 0, c := .reg 9, i18 := 0x2000 }),
  (.core, 0x000030000BC40300, .send { a := .reg 4, b := .chan 15, m := 12 }),
  (.core, 0x000000009346031C, .fork { a := .reg 6, b := .reg 13, c := .reg 9 }),
  (.core, 0x0000400000000324, .bar { i18 := 1 }),
  (.core, 0x00F9000000060358, .mgemm { a := .reg 6, i18 := 0x3E4 }),
  (.core, 0x0000014002CA035C, .mdrain { a := .reg 10, b := .reg 11, t := 5 }),
  (.core, 0x0000000001C60380, .jobCopy { a := .reg 6, b := .reg 7 }),
  (.core, 0x00000400C1060384, .gather { d := .reg 0, a := .reg 6, b := .reg 4, c := .reg 12, m := 1 }),
  (.core, 0x000000000006279C, .deep { d := .reg 9, a := .reg 6 }),
  (.deep, 0x00000400040F17AC, .dot16 { d := .reg 5, a := .reg 15, b := .reg 16, m := 1 }),
  (.deep, 0x00000048634C019C, .vsts { a := .reg 12, b := .reg 13, c := .reg 6, t := 1, p := 2 }),
  (.core, 0x0001C000000003C8, .trap { i18 := 7 }),
  (.core, 0x0002000000002BC0, .sget { d := .reg 10, i18 := 8 }),
  (.core, 0x0000000001C003C4, .sset { b := .reg 7 }),
  (.core, 0x00000000000627F0, .klaunch { d := .reg 9, a := .reg 6 })]

end Sys2Proof.Machine
end

