-- ==== Sys2Proof/Certificates/Slice0/Obligations.lean ====
section
/-! DEFINITION. The claims about the model, for the provers. Where a claim speaks of operands it takes them as the operand
forms give them (R20, R40, R41): `srcX imm o.a s = .ok (a, s1)` says that source a is readable and has that value, and
`dstX o.d v s2 = .ok ((), t)` that the destination takes the result; claims of their own say what these do. -/

open Sys2Proof Sys2Proof.Machine

/-! ### Scalar instructions -/

/-- R74, R77, R81. The two-source integer instructions and BINS. R76, R78. The divisions: the result, and DZ exactly
when the divisor is zero. R79, R81, R82. The one-source integer instructions. -/
def Obligations.IntegerResults : Prop :=
  ((∀ e ∈ intTable, ∀ (o : Op) (s s1 s2 t : State) (a b : BitVec 64), s.runs e.2.1 o →
    srcX (immValue o) o.a s = .ok (a, s1) → srcX (immValue o) o.b s1 = .ok (b, s2) →
    dstX o.d (atWidth e.2.2 (intWidth o.t.toNat) a b) s2 = .ok ((), t) → exec (e.1 o) s = .next (t.finish o.len)) ∧
  (∀ (o : Op) (s s1 s2 t : State) (a b : BitVec 64), s.runs 0x1E o →
    srcX (immValue o) o.a s = .ok (a, s1) → srcX (immValue o) o.b s1 = .ok (b, s2) →
    dstX o.d (atWidth (fun n => specBins n (i18f o 5 0) (i18f o 11 6 + 1)) (intWidth o.t.toNat) a b) s2 = .ok ((), t) →
    exec (.bins o) s = .next (t.finish o.len))) ∧
  (∀ e ∈ divTable, ∀ (o : Op) (s s1 s2 t : State) (a b : BitVec 64), s.runs e.2.1 o →
    srcX (immValue o) o.a s = .ok (a, s1) → srcX (immValue o) o.b s1 = .ok (b, s2) →
    dstX o.d (atWidth e.2.2 (intWidth o.t.toNat) a b)
      (s2.modThread (·.orFlags (if b.setWidth (intWidth o.t.toNat) = 0 then flDZ else 0))) = .ok ((), t) →
    exec (e.1 o) s = .next (t.finish o.len)) ∧
  (∀ e ∈ intTable1, ∀ (o : Op) (s s1 t : State) (a : BitVec 64), s.runs e.2.1 o → srcX (immValue o) o.a s = .ok (a, s1) →
    dstX o.d ((e.2.2 o (intWidth o.t.toNat) (a.setWidth _)).setWidth 64) s1 = .ok ((), t) →
    exec (e.1 o) s = .next (t.finish o.len))

/-- R80, R83. SET, PSET and SEL. R84. The predicate instructions act on all 32 bits. -/
def Obligations.ConditionResults : Prop :=
  (∀ (o : Op) (s s1 s2 t : State) (a b : BitVec 64), o.m.toNat ≤ 9 → s.thread.guardBit o = true →
    srcX (immValue o) o.a s = .ok (a, s1) → srcX (immValue o) o.b s1 = .ok (b, s2) →
    let n := intWidth o.t.toNat
    let holds := specCond o.m.toNat n (a.setWidth n) (b.setWidth n)
    (s.mayRun 0x20 = true → dstX o.d (if holds then 1 else 0) s2 = .ok ((), t) →
      exec (.setCond o) s = .next (t.finish o.len)) ∧
    (s.mayRun 0x21 = true → dstP o.d (if holds then BitVec.allOnes 32 else 0) s2 = .ok ((), t) →
      exec (.pset o) s = .next (t.finish o.len)) ∧
    (s.mayRun 0x1F = true →
      dstX o.d (((if (s2.thread.getP (regNum o.c)).getLsbD 0 then a else b).setWidth n).setWidth 64) s2 = .ok ((), t) →
      exec (.sel o) s = .next (t.finish o.len))) ∧
  (∀ (o : Op) (s s1 s2 t : State) (a b : BitVec 32), s.thread.guardBit o = true → srcP (immValue o) o.a s = .ok (a, s1) →
    (srcP (immValue o) o.b s1 = .ok (b, s2) →
      ∀ e ∈ [(Instr.pand, 0x22, a &&& b), (Instr.por, 0x23, a ||| b), (Instr.pxor, 0x24, a ^^^ b)],
        s.mayRun e.2.1 = true → dstP o.d e.2.2 s2 = .ok ((), t) → exec (e.1 o) s = .next (t.finish o.len)) ∧
    (s.mayRun 0x25 = true → dstP o.d (~~~a) s1 = .ok ((), t) → exec (.pnot o) s = .next (t.finish o.len)))

/-- R85-R88, R91. LI, LEA, MKADDR, MKACT and NOP. -/
def Obligations.ConstantResults : Prop :=
  ∀ (o : Op) (s s1 s2 s3 t : State) (a b c : BitVec 64), s.thread.guardBit o = true →
    (s.mayRun 0x26 = true → srcX (immValue o) o.a s = .ok (a, s1) → dstX o.d a s1 = .ok ((), t) →
      exec (.li o) s = .next (t.finish o.len)) ∧
    (s.mayRun 0x27 = true → srcX (immValue o) o.a s = .ok (a, s1) → srcX (immValue o) o.b s1 = .ok (b, s2) →
      dstX o.d (a + b * 2 ^ o.m.toNat) s2 = .ok ((), t) → exec (.lea o) s = .next (t.finish o.len)) ∧
    (s.mayRun 0x28 = true → srcX 0 o.a s = .ok (a, s1) → srcX 0 o.b s1 = .ok (b, s2) → srcX 0 o.c s2 = .ok (c, s3) →
      dstX o.d (specMkaddr (i18n o) a b c) s3 = .ok ((), t) → exec (.mkaddr o) s = .next (t.finish o.len)) ∧
    (s.mayRun 0x29 = true → srcX 0 o.a s = .ok (a, s1) → srcX 0 o.b s1 = .ok (b, s2) →
      dstX o.d (specMkact o a b) s2 = .ok ((), t) → exec (.mkact o) s = .next (t.finish o.len)) ∧
    (s.mayRun 0x47 = true → exec (.nop o) s = .next (s.finish o.len))

/-- R93-R99. Scalar floating point: the result of the format, rounded as FPCTL.RM says, and its flags ORed into FPCTL. -/
def Obligations.FloatResults : Prop :=
  ∀ (o : Op) (s s1 s2 s3 t : State) (a b c : BitVec 64), s.thread.guardBit o = true → srcX (immRaw o) o.a s = .ok (a, s1) →
    let rm := s.thread.rm.toNat
    (∀ e ∈ fpTable1, s.mayRun e.2.1 = true →
      dstX o.d (BitVec.ofNat 64 (e.2.2 o rm a.toNat).1) (s1.modThread (·.orFlags (e.2.2 o rm a.toNat).2)) = .ok ((), t) →
      exec (e.1 o) s = .next (t.finish o.len)) ∧
    (srcX (immRaw o) o.b s1 = .ok (b, s2) →
      (∀ e ∈ fpTable2, s.mayRun e.2.1 = true →
        dstX o.d (BitVec.ofNat 64 (e.2.2 o rm a.toNat b.toNat).1)
          (s2.modThread (·.orFlags (e.2.2 o rm a.toNat b.toNat).2)) = .ok ((), t) →
        exec (e.1 o) s = .next (t.finish o.len)) ∧
      (s.mayRun 0x53 = true → srcX (immRaw o) o.c s2 = .ok (c, s3) →
        let r := fpFma (fmtOf o.t.toNat) rm a.toNat b.toNat c.toNat
        dstX o.d (BitVec.ofNat 64 r.1) (s3.modThread (·.orFlags r.2)) = .ok ((), t) →
        exec (.ffma o) s = .next (t.finish o.len)))

/-- R35, R39, R89, R90. Control transfers to a 4-byte aligned target; a link register takes the address of the
following instruction, and LOOP and LOOPC write their counter. R35, R89. A transfer whose target is not a multiple of
4 raises ALIGN with the target, and writes no register. -/
def Obligations.Transfers : Prop :=
  (∀ (o : Op) (s t : State) (a : BitVec 64), s.thread.guardBit o = true →
    let pc := s.thread.pc
    let near := pc + o.i18.signExtend 64 * 4
    let far := pc + (o.ext.setWidth 32).signExtend 64 * 4
    let link := pc + BitVec.ofNat 64 (lenBytes o.len)
    let count := ((vget 0 (s.slot s.at_.1 s.at_.2).regs.latch (o.m.toNat % 8)).setWidth 32).setWidth 64
    (s.mayRun 0x40 = true → near.toNat % 4 = 0 → exec (.br o) s = .next (s.goto near)) ∧
    (s.mayRun 0x41 = true → far.toNat % 4 = 0 → exec (.jRelative o) s = .next (s.goto far)) ∧
    (s.mayRun 0x41 = true → o.ext.toNat % 4 = 0 → exec (.jAbsolute o) s = .next (s.goto o.ext)) ∧
    (s.mayRun 0x42 = true → far.toNat % 4 = 0 → wrX (regNum o.d) link s = .ok ((), t) →
      exec (.jalRelative o) s = .next (t.goto far)) ∧
    (s.mayRun 0x42 = true → o.ext.toNat % 4 = 0 → wrX (regNum o.d) link s = .ok ((), t) →
      exec (.jalAbsolute o) s = .next (t.goto o.ext)) ∧
    (s.mayRun 0x43 = true → rdReg o.a s = .ok (a, s) → (a + o.i18.signExtend 64).toNat % 4 = 0 →
      exec (.jr o) s = .next (s.goto (a + o.i18.signExtend 64))) ∧
    (s.mayRun 0x44 = true → rdReg o.a s = .ok (a, s) → (a + o.i18.signExtend 64).toNat % 4 = 0 →
      wrX (regNum o.d) link s = .ok ((), t) → exec (.jalr o) s = .next (t.goto (a + o.i18.signExtend 64))) ∧
    (s.mayRun 0x45 = true → rdReg o.d s = .ok (a, s) → near.toNat % 4 = 0 → wrX (regNum o.d) (a - 1) s = .ok ((), t) →
      exec (.loop o) s = .next (if a - 1 = 0 then t.finish o.len else t.goto near)) ∧
    (s.mayRun 0x46 = true → s.isGuest = false → rdReg o.d s = .ok (a, s) → near.toNat % 4 = 0 →
      wrX (regNum o.d) (a + 1) s = .ok ((), t) →
      exec (.loopc o) s = .next (if (a + 1).ult count then t.goto near else t.finish o.len))) ∧
  (∀ (o : Op) (s : State) (a : BitVec 64), s.thread.guardBit o = true →
    let pc := s.thread.pc
    let near := pc + o.i18.signExtend 64 * 4
    let far := pc + (o.ext.setWidth 32).signExtend 64 * 4
    let reg := a + o.i18.signExtend 64
    (s.mayRun 0x40 = true → near.toNat % 4 ≠ 0 → exec (.br o) s = .next (s.trapCur .align near)) ∧
    (s.mayRun 0x41 = true → far.toNat % 4 ≠ 0 → exec (.jRelative o) s = .next (s.trapCur .align far)) ∧
    (s.mayRun 0x41 = true → o.ext.toNat % 4 ≠ 0 → exec (.jAbsolute o) s = .next (s.trapCur .align o.ext)) ∧
    (s.mayRun 0x42 = true → far.toNat % 4 ≠ 0 → exec (.jalRelative o) s = .next (s.trapCur .align far)) ∧
    (s.mayRun 0x42 = true → o.ext.toNat % 4 ≠ 0 → exec (.jalAbsolute o) s = .next (s.trapCur .align o.ext)) ∧
    (s.mayRun 0x43 = true → rdReg o.a s = .ok (a, s) → reg.toNat % 4 ≠ 0 → exec (.jr o) s = .next (s.trapCur .align reg)) ∧
    (s.mayRun 0x44 = true → rdReg o.a s = .ok (a, s) → reg.toNat % 4 ≠ 0 → exec (.jalr o) s = .next (s.trapCur .align reg)) ∧
    (s.mayRun 0x45 = true → rdReg o.d s = .ok (a, s) → near.toNat % 4 ≠ 0 → exec (.loop o) s = .next (s.trapCur .align near)) ∧
    (s.mayRun 0x46 = true → s.isGuest = false → rdReg o.d s = .ok (a, s) → near.toNat % 4 ≠ 0 →
      exec (.loopc o) s = .next (s.trapCur .align near)))

/-- R15, R43. An instruction whose guard is false issues, moves past itself and does nothing else; the lane
instructions (R101) are not among these. R46, R327. An opcode that the agent's profile or mode does not allow raises
ILLEGAL with word 0. R332. An error in the guard's p register raises MACHINECHECK with the error's address, and so does one in a source
that an integer instruction reads. -/
def Obligations.GuardsAndModes : Prop :=
  (∀ (i : Instr) (code : Nat) (o : Op) (s : State), opOf i = some (code, o) → laneCodes.contains code = false →
    s.mayRun code = true → s.thread.guardBit o = false → exec i s = .next (s.finish o.len)) ∧
  (∀ (i : Instr) (code : Nat) (o : Op) (r : Row) (s : State), opOf i = some (code, o) → rowOf code = some r →
    s.allowed r = false → exec i s = .next (s.trapCur .illegal (packWord0 code o))) ∧
  (∀ (i : Instr) (code : Nat) (o : Op) (r : Row) (s : State) (v : BitVec 64), opOf i = some (code, o) → rowOf code = some r →
    s.allowed r = true → s.skidFull = false → s.maskError o.p.toNat = some v → exec i s = .next (s.trapCur .machinecheck v)) ∧
  (∀ e ∈ intTable, ∀ (o : Op) (s s1 : State) (a v : BitVec 64), s.runs e.2.1 o →
    (srcX (immValue o) o.a s = .error (.trap .machinecheck v) → exec (e.1 o) s = .next (s.trapCur .machinecheck v)) ∧
    (srcX (immValue o) o.a s = .ok (a, s1) → srcX (immValue o) o.b s1 = .error (.trap .machinecheck v) →
      exec (e.1 o) s = .next (s.trapCur .machinecheck v)))

/-- R18-R20, R25, R41, R84, R103, R307. What operands read and write. On a slot x0 reads zero and discards, p0 reads all ones and
discards; any other register gives what was written to it last and leaves the rest alone; a gated v register waits for its group; a
channel or queue gives the bytes of its head and loses it; a queue destination takes the value into a new entry, and a full one stalls;
an immediate is the value, its low bits, or copies of it in every lane. On an SVC the same, over w registers, with no channel and no
queue: no word of the deep profile but a NOP names one. R332. A register, a queue's mark or a channel's entry that holds an error raises
MACHINECHECK with its address. -/
def Obligations.OperandForms : Prop :=
  (∀ (s : State) (c k : Nat) (imm v : BitVec 64) (u : BitVec 32), s.cur = .slot c k → k < 4 →
    srcX imm (.reg 0) s = .ok (0, s) ∧ srcX imm .imm s = .ok (imm, s) ∧ srcP imm .imm s = .ok (imm.setWidth 32, s) ∧
    (∃ t : State, dstX (.reg 0) v s = .ok ((), t) ∧ t.thread = s.thread) ∧
    (∀ n : Fin 32, (s.slot c k).owed.any (fun o => o.dst.coversX n.val) = false → (s.slot c k).poisonAt (poisonKeyX n.val) = none →
      srcX imm (.reg n) s = .ok (s.thread.getX n.val, s) ∧
      ∃ t : State, dstX (.reg n) v s = .ok ((), t) ∧ t.thread.getX n.val = (if n.val = 0 then 0 else v) ∧
        t.thread.p = s.thread.p ∧ ∀ m : Nat, m ≠ n.val → t.thread.getX m = s.thread.getX m) ∧
    (∀ n : Fin 32, n.val ≠ 0 → (s.slot c k).owed.any (fun o => o.dst.coversX n.val) = true →
      srcX imm (.reg n) s = .error (.stall .remoteReply) ∧ dstX (.reg n) v s = .error (.stall .remoteReply)) ∧
    (∀ n : Fin 32, n.val < 8 → (n.val ≠ 0 → (s.slot c k).poisonAt (poisonKeyP n.val) = none) →
      srcP imm (.reg n) s = .ok (if n.val = 0 then BitVec.allOnes 32 else vget 0 s.thread.p n.val, s) ∧
      ∃ t : State, dstP (.reg n) u s = .ok ((), t) ∧ t.thread.getP n.val = (if n.val = 0 then BitVec.allOnes 32 else u) ∧
        t.thread.x = s.thread.x ∧ ∀ m : Nat, m ≠ n.val → t.thread.getP m = s.thread.getP m) ∧
    (∀ (n : Fin 32) (w : Nat), (s.slot c k).regs.gated n.val = false → (s.slot c k).owed.any (fun o => o.dst.coversV n.val) = false →
      (s.slot c k).poisonAt (poisonKeyV n.val) = none → srcV w imm (.reg n) s = .ok ((vget 0 (s.slot c k).v n.val).toNat, s)) ∧
    (∀ (n : Fin 32) (w : Nat), (s.slot c k).regs.gated n.val = true → srcV w imm (.reg n) s = .error (.stall (.vwake (n.val / 8)))) ∧
    (∀ w ∈ [8, 16, 32], ∃ r, srcV w imm .imm s = .ok (r, s) ∧ r < 2 ^ 256 ∧ ∀ i, i < 256 / w → laneAt w r i = imm.setWidth w) ∧
    (∀ (q : Fin 8) (e : BitVec 256) (r : List (BitVec 256)) (w : Nat), s.isGuest = false → (s.core c).qbad = [] → (s.core c).queue q.val = e :: r →
      ∃ t, srcX imm (.queue q) s = .ok (e.setWidth 64, t) ∧ srcP imm (.queue q) s = .ok (e.setWidth 32, t) ∧
        srcV w imm (.queue q) s = .ok (e.toNat, t) ∧ (t.core c).queue q.val = r ∧
        ∀ j : Fin 8, j ≠ q → (t.core c).queue j.val = (s.core c).queue j.val) ∧
    (∀ q : Fin 8, s.isGuest = false → ((s.core c).queue q.val).length + (s.core c).reserved q.val < 16 → (s.core c).owesPush q.val = false →
      (∃ t : State, dstX (.queue q) v s = .ok ((), t) ∧ (t.core c).queue q.val = (s.core c).queue q.val ++ [v.setWidth 256]) ∧
      ∃ t : State, dstP (.queue q) u s = .ok ((), t) ∧ (t.core c).queue q.val = (s.core c).queue q.val ++ [u.setWidth 256]) ∧
    (∀ q : Fin 8, s.isGuest = false → 16 ≤ ((s.core c).queue q.val).length →
      dstX (.queue q) v s = .error (.stall (.queue q.val)) ∧ dstP (.queue q) u s = .error (.stall (.queue q.val))) ∧
    (∀ (ch : Fin 16) (w : Nat), s.isGuest = false → s.poison = [] →
      let mb := (s.slot c k).act.mbox.toNat
      let e : BitVec 256 := bytesBv 256 (Mem.readN (s.core c).mem (mb * 0x2000 + 32 * (s.bank c mb).entryIx ch.val 0) 32)
      (s.bank c mb).count ch.val ≠ 0 →
      ∃ t, srcX imm (.chan ch) s = .ok (e.setWidth 64, t) ∧ srcP imm (.chan ch) s = .ok (e.setWidth 32, t) ∧
        srcV w imm (.chan ch) s = .ok (e.toNat, t) ∧ (t.bank c mb).count ch.val + 1 = (s.bank c mb).count ch.val) ∧
    (∀ (n : Fin 32) (w : Nat) (a : BitVec 64),
      (n.val ≠ 0 → (s.slot c k).owed.any (fun o => o.dst.coversX n.val) = false → (s.slot c k).poisonAt (poisonKeyX n.val) = some a →
        srcX imm (.reg n) s = .error (.trap .machinecheck a)) ∧
      (n.val ≠ 0 → n.val < 8 → (s.slot c k).poisonAt (poisonKeyP n.val) = some a → srcP imm (.reg n) s = .error (.trap .machinecheck a)) ∧
      ((s.slot c k).regs.gated n.val = false → (s.slot c k).owed.any (fun o => o.dst.coversV n.val) = false →
        (s.slot c k).poisonAt (poisonKeyV n.val) = some a → srcV w imm (.reg n) s = .error (.trap .machinecheck a))) ∧
    (∀ (q : Fin 8) (a : BitVec 64), s.isGuest = false → (s.core c).qbad = [(q.val, 0, a)] →
      srcX imm (.queue q) s = .error (.trap .machinecheck a)) ∧
    (∀ ch : Fin 16, s.isGuest = false →
      let mb := (s.slot c k).act.mbox.toNat
      let off := mb * 0x2000 + 32 * (s.bank c mb).entryIx ch.val 0
      (s.bank c mb).count ch.val ≠ 0 → .bank c (off / 64) ∈ s.poison →
      srcX imm (.chan ch) s = .error (.trap .machinecheck (BitVec.ofNat 64 (0xFC * 2 ^ 56 + off))))) ∧
  (∀ (s : State) (i : Nat) (imm v : BitVec 64) (u : BitVec 32), s.cur = .svc i → s.poison = [] →
    srcX imm .imm s = .ok (imm, s) ∧ srcP imm .imm s = .ok (imm.setWidth 32, s) ∧
    (∀ n : Fin 32, srcX imm (.reg n) s = .ok (s.thread.getX n.val, s) ∧
      ∃ t : State, dstX (.reg n) v s = .ok ((), t) ∧ t.thread.getX n.val = (if n.val = 0 then 0 else v) ∧ t.thread.p = s.thread.p ∧
        (t.svc i).w = (s.svc i).w ∧ ∀ m : Nat, m ≠ n.val → t.thread.getX m = s.thread.getX m) ∧
    (∀ n : Fin 32, n.val < 8 → srcP imm (.reg n) s = .ok (if n.val = 0 then BitVec.allOnes 32 else vget 0 s.thread.p n.val, s) ∧
      ∃ t : State, dstP (.reg n) u s = .ok ((), t) ∧ t.thread.getP n.val = (if n.val = 0 then BitVec.allOnes 32 else u) ∧
        t.thread.x = s.thread.x ∧ ∀ m : Nat, m ≠ n.val → t.thread.getP m = s.thread.getP m) ∧
    (∀ (n : Fin 32) (w x : Nat), srcV w imm (.reg n) s = .ok ((vget 0 (s.svc i).w n.val).toNat, s) ∧
      ∃ t : State, dstV (.reg n) x s = .ok ((), t) ∧ vget 0 (t.svc i).w n.val = BitVec.ofNat 1024 x ∧ t.thread = s.thread ∧
        ∀ m : Nat, m ≠ n.val → vget 0 (t.svc i).w m = vget 0 (s.svc i).w m) ∧
    (∀ w ∈ [8, 16, 32], ∃ r, srcV w imm .imm s = .ok (r, s) ∧ r < 2 ^ 1024 ∧ ∀ j, j < 1024 / w → laneAt w r j = imm.setWidth w)) ∧
  (∀ (bs : List Byte) (i : Instr) (n code : Nat) (o : Op), decodeBlock .deep bs = .ok (i, n) → opOf i = some (code, o) → code ≠ 0x47 →
    ∀ x ∈ [o.d, o.a, o.b, o.c], (∀ q, x ≠ .queue q) ∧ ∀ ch, x ≠ .chan ch)

/-- What instructions of each family leave alone. The two-source integer instructions change nothing but the counter, x register or queue
D, and the queues and channels that A and B name; the lane instructions nothing but v register or queue D, its LIVEV bit, flags that they
set, and those. A matrix instruction that enters the queue changes nothing else but the counter; HEN, HDIS and HSET the actor's EN or
SOFT; FORK that pushes a task x register C and the deque; SEND that is accepted the slot's NI list and its count. An operation on an
unspanned bank other than BPERS changes no byte of another bank, no legend, and no other bank's record. -/
def Obligations.InstructionFrames : Prop :=
  (∀ e ∈ intTable, ∀ (o : Op) (s s1 s2 t : State) (a b : BitVec 64) (c k : Nat), s.cur = .slot c k → k < 4 → s.runs e.2.1 o →
    srcX (immValue o) o.a s = .ok (a, s1) → srcX (immValue o) o.b s1 = .ok (b, s2) →
    dstX o.d (atWidth e.2.2 (intWidth o.t.toNat) a b) s2 = .ok ((), t) →
    ∃ u : State, exec (e.1 o) s = .next u ∧ s.sameMemory u ∧ s.sameElse u c k ∧ s.sameActor u c k ∧ (u.core c).mu = (s.core c).mu ∧
      (u.core c).deque = (s.core c).deque ∧ (u.slot c k).regs = (s.slot c k).regs ∧ (u.slot c k).v = (s.slot c k).v ∧
      u.thread.p = s.thread.p ∧ u.thread.rm = s.thread.rm ∧ u.thread.flags = s.thread.flags ∧
      u.thread.pc = s.thread.pc + BitVec.ofNat 64 (lenBytes o.len) ∧
      (∀ m, o.d ≠ .reg m → u.thread.getX m.val = s.thread.getX m.val) ∧
      (∀ q : Fin 8, o.a ≠ .queue q → o.b ≠ .queue q → o.d ≠ .queue q → (u.core c).queue q.val = (s.core c).queue q.val) ∧
      ((∀ ch, o.a ≠ .chan ch ∧ o.b ≠ .chan ch) → ∀ b, u.bank c b = s.bank c b)) ∧
  (∀ e ∈ laneTable2, ∀ (o : Op) (s s1 s2 t : State) (a b c k : Nat), s.cur = .slot c k → k < 4 → s.mayRun e.2.1 = true →
    let w := laneWidth o.t.toNat
    let l := lanesOf s.prof o.t.toNat
    let mask := s.thread.laneMask o l
    srcV w (immValue o) o.a s = .ok (a, s1) → srcV w (immValue o) o.b s1 = .ok (b, s2) →
    let rs := (List.range l).map (fun i => e.2.2 o w s.thread.rm.toNat (laneAt w a i) (laneAt w b i))
    dstLanes o.d w mask (rs.map Prod.fst) (s2.modThread (·.orFlags (laneFlags mask rs))) = .ok ((), t) →
    ∃ u : State, exec (e.1 o) s = .next u ∧ s.sameMemory u ∧ s.sameElse u c k ∧ s.sameActor u c k ∧ (u.core c).mu = (s.core c).mu ∧
      (u.core c).deque = (s.core c).deque ∧ (u.slot c k).regs = { (s.slot c k).regs with livev := (u.slot c k).regs.livev } ∧
      (∀ n : Nat, (∀ r, o.d = .reg r → r.val ≠ n) → vget 0 (u.slot c k).v n = vget 0 (s.slot c k).v n ∧
        (u.slot c k).regs.livev.getLsbD n = (s.slot c k).regs.livev.getLsbD n) ∧
      u.thread = { s.thread with pc := s.thread.pc + BitVec.ofNat 64 (lenBytes o.len), flags := s.thread.flags ||| laneFlags mask rs } ∧
      (∀ q : Fin 8, o.a ≠ .queue q → o.b ≠ .queue q → o.d ≠ .queue q → (u.core c).queue q.val = (s.core c).queue q.val) ∧
      ((∀ ch, o.a ≠ .chan ch ∧ o.b ≠ .chan ch) → ∀ b, u.bank c b = s.bank c b)) ∧
  (∀ f ∈ [Instr.mlda, Instr.mldb, Instr.mldbs, Instr.mzero, Instr.mmul, Instr.mmuls, Instr.mdrain, Instr.mchain, Instr.mst],
    ∀ (o : Op) (s u : State) (c k : Nat), s.cur = .slot c k → k < 4 → exec (f o) s = .next u →
    (u.core c).mu.queue.length = (s.core c).mu.queue.length + 1 →
    s.sameElse u c k ∧ s.sameActor u c k ∧ s.sameLocal u c ∧ (u.slot c k).regs = (s.slot c k).regs ∧ (u.slot c k).v = (s.slot c k).v ∧
    u.thread = { s.thread with pc := s.thread.pc + BitVec.ofNat 64 (lenBytes o.len) } ∧
    ∃ op, (u.core c).mu = { (s.core c).mu with queue := (s.core c).mu.queue ++ [op] }) ∧
  (∀ f ∈ [(Instr.hen, 0xC3), (Instr.hdis, 0xC4), (Instr.hset, 0xC5)], ∀ (o : Op) (s : State) (c k : Nat) (a : BitVec 64),
    s.cur = .slot c k → k < 4 → s.isGuest = false → s.runs f.2 o → rdReg o.a s = .ok (a, s) →
    ∃ u : State, exec (f.1 o) s = .next u ∧ s.sameElse u c k ∧ s.sameLocal u c ∧ (u.core c).mu = (s.core c).mu ∧
      (u.slot c k).regs = (s.slot c k).regs ∧ (u.slot c k).v = (s.slot c k).v ∧ (u.slot c k).km = (s.slot c k).km ∧
      (u.slot c k).ident = (s.slot c k).ident ∧ (u.slot c k).firing = (s.slot c k).firing ∧
      (u.slot c k).act = { (s.slot c k).act with en := (u.slot c k).act.en, soft := (u.slot c k).act.soft } ∧
      (f.2 = 0xC5 → (u.slot c k).act.en = (s.slot c k).act.en) ∧ (f.2 ≠ 0xC5 → (u.slot c k).act.soft = (s.slot c k).act.soft) ∧
      u.thread = { s.thread with pc := s.thread.pc + BitVec.ofNat 64 (lenBytes o.len) }) ∧
  (∀ (o : Op) (s u : State) (c k : Nat), s.cur = .slot c k → k < 4 → (s.slot c k).comb = [] → exec (.fork o) s = .next u →
    (u.core c).deque.length = (s.core c).deque.length + 1 →
    s.sameElse u c k ∧ s.sameActor u c k ∧ s.sameMemory u ∧ (u.core c).mu = (s.core c).mu ∧ (u.core c).banks = (s.core c).banks ∧
    (u.core c).queues = (s.core c).queues ∧ (u.slot c k).regs = (s.slot c k).regs ∧ (u.slot c k).v = (s.slot c k).v ∧
    (∃ x, (u.core c).deque = (s.core c).deque ++ [x]) ∧ u.thread.p = s.thread.p ∧ u.thread.rm = s.thread.rm ∧
    u.thread.flags = s.thread.flags ∧ u.thread.pc = s.thread.pc + BitVec.ofNat 64 (lenBytes o.len) ∧
    ∀ m : Nat, m ≠ regNum o.c → u.thread.getX m = s.thread.getX m) ∧
  (∀ (o : Op) (s u : State) (c k : Nat), s.cur = .slot c k → k < 4 → (s.slot c k).guest = none → (s.slot c k).comb = [] →
    (∀ q, o.b ≠ .queue q) → (∀ ch, o.b ≠ .chan ch) → exec (.send o) s = .next u →
    (u.slot c k).ni.length = (s.slot c k).ni.length + 1 →
    s.sameElse u c k ∧ s.sameActor u c k ∧ s.sameLocal u c ∧ (u.core c).mu = (s.core c).mu ∧ (u.slot c k).regs = (s.slot c k).regs ∧
    (u.slot c k).v = (s.slot c k).v ∧ (u.slot c k).sent = (s.slot c k).sent + 1 ∧
    u.thread = { s.thread with pc := s.thread.pc + BitVec.ofNat 64 (lenBytes o.len) }) ∧
  (∀ (s t : State) (q : BankReq) (r : BankRes), (s.bank q.core q.bank).span = none → (s.bank q.core q.bank).isMember = false →
    s.bankFits q.core q.bank (subOf (s.bank q.core q.bank) q.off) → q.code ≠ 0xB0 → s.bankOp q = .ok (r, t) →
    s.sameRest t ∧ t.svcs = s.svcs ∧ (∀ d, d ≠ q.core → t.core d = s.core d) ∧ (∀ k, t.slot q.core k = s.slot q.core k) ∧
    (t.core q.core).mu = (s.core q.core).mu ∧ (t.core q.core).queues = (s.core q.core).queues ∧ (t.core q.core).leg = (s.core q.core).leg ∧
    (t.core q.core).deque = (s.core q.core).deque ∧ (∀ b, b ≠ q.bank → t.bank q.core b = s.bank q.core b) ∧
    ∀ x, x / 0x2000 ≠ q.bank → Mem.read (t.core q.core).mem x = Mem.read (s.core q.core).mem x)

/-- R50, R55, R56, R63-R67, R69-R71. What the number helpers compute, over the rationals. RoundToGrid's exponent, its integer in each mode,
exactness and tininess. RoundIeee, RoundB8 and RoundInt of a finite value, with its flags; their special values and overflows. A sum of
finite numbers is their exact sum rounded once, and so is an exact group of sixteen, whose zeros leave the accumulator. The scale that
ChooseScale gives puts the largest magnitude into the binade of EmaxOf, or is clamped. That the modes 5 to 7 of MSEQ.RM round as RNE
is the model's choice (DESIGN CHOICE, log entry 53). -/
def Obligations.NumberHelpers : Prop :=
  let NX := flNX
  let ulp (ee : Int) (p : Nat) : ℚ := 2 ^ (ee - p + 1)
  (∀ (rm m p k : Nat) (neg exact tiny : Bool) (e emin ee : Int), m ≠ 0 → 1 ≤ p → roundGrid rm neg m e false p emin = (ee, k, exact, tiny) →
    let x : ℚ := (m : ℚ) * 2 ^ e
    ∃ l : Int, (2 : ℚ) ^ l ≤ x ∧ x < 2 ^ (l + 1) ∧ ee = max l emin ∧ roundsTo rm neg (x / ulp ee p) k ∧
      (exact = true ↔ (k : ℚ) = x / ulp ee p) ∧
      ∀ j, roundsTo rm neg (x / ulp l p) j → (tiny = true ↔ (j : ℚ) * ulp l p < 2 ^ emin)) ∧
  (∀ f ∈ [f16, f32, f64], ∀ (rm m k : Nat) (neg exact tiny : Bool) (e ee : Int), m ≠ 0 →
    roundGrid rm neg m e false f.p f.emin = (ee, k, exact, tiny) →
    let r : ℚ := (k : ℚ) * ulp ee f.p
    let top : ℚ := (f.decode f.maxBits).toRat
    let res := roundIeee f rm (.fin neg m e)
    (r ≤ top → (∃ m' e', f.decode res.1 = .fin neg m' e') ∧ (f.decode res.1).toRat = (if neg then -r else r) ∧
      res.2 = if exact then 0 else if tiny then NX ||| flUF else NX) ∧
    (top < r → res.2 = flOF ||| NX ∧
      ((rm = 1 ∨ (rm = 2 ∧ neg = false) ∨ (rm = 3 ∧ neg = true)) → (f.decode res.1).toRat = if neg then -top else top) ∧
      (¬ (rm = 1 ∨ (rm = 2 ∧ neg = false) ∨ (rm = 3 ∧ neg = true)) → f.decode res.1 = .inf neg))) ∧
  (∀ f ∈ [f16, f32, f64], ∀ (rm : Nat) (neg : Bool) (e : Int),
    (∀ s, roundIeee f rm (.nan s) = (f.nanBits, if s then flNV else 0)) ∧ f.decode f.nanBits = .nan false ∧
    (roundIeee f rm (.inf neg)).2 = 0 ∧ f.decode (roundIeee f rm (.inf neg)).1 = .inf neg ∧
    (roundIeee f rm (.fin neg 0 e)).2 = 0 ∧ ∃ g, f.decode (roundIeee f rm (.fin neg 0 e)).1 = .fin neg 0 g) ∧
  (∀ (f rm m k : Nat) (sat neg exact tiny : Bool) (e ee : Int), isB8 f = true → m ≠ 0 →
    roundGrid rm neg m e false (b8P f) (1 - (b8Bias f : Int)) = (ee, k, exact, tiny) →
    let r : ℚ := (k : ℚ) * ulp ee (b8P f)
    let top : ℚ := (decodeB8 (b8Max f) f).toRat
    let res := roundB8 f rm sat (.fin neg m e)
    let wrong : Prop := b8Unsigned f = true ∧ neg = true ∧ k ≠ 0
    (wrong → res = if sat then (0, flSATF ||| NX) else (b8Nan f, flNV)) ∧
    (¬ wrong → r ≤ top → (decodeB8 res.1 f).toRat = (if neg then -r else r) ∧ (decodeB8 res.1 f).isNan = false ∧
      (decodeB8 res.1 f).isInf = false ∧ (r = 0 → res.1 = 0) ∧ res.2 = if exact then 0 else if tiny then NX ||| flUF else NX) ∧
    (¬ wrong → top < r → sat = true → res.2 = flSATF ||| NX ∧ (decodeB8 res.1 f).toRat = if neg then -top else top) ∧
    (¬ wrong → top < r → sat = false → b8Ext f = false → res = (b8Nan f, flOF ||| NX)) ∧
    (¬ wrong → top < r → sat = false → b8Ext f = true → res.2 = flOF ||| NX ∧
      ((rm = 1 ∨ (rm = 2 ∧ neg = false) ∨ (rm = 3 ∧ neg = true)) → (decodeB8 res.1 f).toRat = if neg then -top else top) ∧
      (¬ (rm = 1 ∨ (rm = 2 ∧ neg = false) ∨ (rm = 3 ∧ neg = true)) → decodeB8 res.1 f = .inf neg))) ∧
  (∀ (n rm m : Nat) (signed neg : Bool) (e : Int), 1 ≤ n → m ≠ 0 →
    let x : ℚ := (m : ℚ) * 2 ^ e
    let lo : Int := if signed then -2 ^ (n - 1) else 0
    let hi : Int := if signed then 2 ^ (n - 1) - 1 else 2 ^ n - 1
    ∃ k : Nat, roundsTo rm neg x k ∧
      let i : Int := if neg then -k else k
      roundInt n signed rm (.fin neg m e) = ((max lo (min hi i) % 2 ^ n).toNat,
        if i < lo ∨ hi < i then flNV else if (k : ℚ) = x then 0 else NX)) ∧
  (∀ f ∈ [f16, f32, f64], ∀ (rm a b m1 m2 : Nat) (n1 n2 : Bool) (e1 e2 : Int), f.decode a = .fin n1 m1 e1 → f.decode b = .fin n2 m2 e2 →
    let sum := (f.decode a).toRat + (f.decode b).toRat
    (sum ≠ 0 → ∃ n m e, (FVal.fin n m e).toRat = sum ∧ fpAdd f rm a b = roundIeee f rm (.fin n m e)) ∧
    (sum = 0 → fpAdd f rm a b = roundIeee f rm (.fin (if m1 = 0 ∧ n1 = n2 then n1 else rm == 2) 0 0))) ∧
  (∀ (acc rm : Nat) (a b : List FVal), a.length = b.length →
    let zero (v : FVal) : Prop := ∃ n e, v = .fin n 0 e
    let nums (l : List FVal) : Prop := ∀ v ∈ l, ∃ n m e, v = .fin n m e
    let prods := (a.zip b).map (fun x => x.1.toRat * x.2.toRat)
    let sum := (f32.decode acc).toRat + prods.sum
    let bad (x : FVal × FVal) : Prop := x.1.isNan = true ∨ x.2.isNan = true ∨ (x.1.isInf = true ∧ zero x.2) ∨ (zero x.1 ∧ x.2.isInf = true)
    (nums a → nums b → (∀ x ∈ a.zip b, zero x.1 ∨ zero x.2) → exactGroupSum acc a b rm = (acc, 0)) ∧
    (nums a → nums b → nums [f32.decode acc] → (∃ x ∈ a.zip b, ¬ zero x.1 ∧ ¬ zero x.2) →
      (sum ≠ 0 → ∃ n m e, (FVal.fin n m e).toRat = sum ∧ exactGroupSum acc a b rm = roundIeee f32 rm (.fin n m e)) ∧
      (sum = 0 → exactGroupSum acc a b rm = (if rm = 2 then 0x80000000 else 0, 0))) ∧
    ((∃ x ∈ a.zip b, bad x) → (exactGroupSum acc a b rm).1 = 0x7FC00000 ∧ (exactGroupSum acc a b rm).2 &&& flNV = flNV)) ∧
  (∀ (vals : List FVal) (f : Nat), (∀ v ∈ vals, ∃ n m e, v = .fin n m e) → isB8 f = true →
    let r := chooseScale vals f
    let s : Int := (BitVec.ofNat 8 r.1).toInt
    ((∀ v ∈ vals, v.toRat = 0) → r = (0x81, 0)) ∧
    ((∃ v ∈ vals, v.toRat ≠ 0) →
      (r.2 = 0 → (∀ v ∈ vals, |v.toRat| < 2 ^ (s + emaxOf f + 1)) ∧ ∃ v ∈ vals, (2 : ℚ) ^ (s + emaxOf f) ≤ |v.toRat|) ∧
      (r.2 ≠ 0 → (r = (0x81, flSCLU) ∧ ∀ v ∈ vals, |v.toRat| < 2 ^ (emaxOf f - 127)) ∨
        (r = (0x7F, flOF) ∧ ∃ v ∈ vals, (2 : ℚ) ^ (emaxOf f + 128) ≤ |v.toRat|))))

/-! ### Traps -/

/-- R328. A trap of a firing in its own slot: the trap registers, K mode, and the program counter at the keeper's
vector; no other register and no memory changes. R330. A trap of the instruction at KVEC in K mode takes no trap: the
slot is to halt and retire, and the Meridian records a MACHINECHECK of kind KEEPER. -/
def Obligations.TrapEntry : Prop :=
  (∀ (s : State) (c k : Nat) (cause : Cause) (v : BitVec 64), s.cur = .slot c k → k < 4 → (s.slot c k).guest = none →
    (s.slot c k).doubleFault s.thread.pc = false →
    let t := s.trapCur cause v
    let sl := s.slot c k
    (t.slot c k).regs = { sl.regs with xpc := sl.thr.pc, xcause := cause.word, xval := v, prevk := sl.km, infiring := sl.firing.isSome } ∧
    (t.slot c k).km = true ∧ (t.slot c k).thr = { sl.thr with pc := sl.regs.kvec } ∧
    (t.slot c k).v = sl.v ∧ (t.slot c k).act = sl.act ∧ (t.slot c k).firing = sl.firing ∧ (t.slot c k).ident = sl.ident ∧
    s.sameMemory t ∧ s.sameRest t ∧ ∀ c' k', (c', k') ≠ (c, k) → t.slot c' k' = s.slot c' k') ∧
  (∀ (s : State) (c k : Nat) (cause : Cause) (v : BitVec 64), s.cur = .slot c k → k < 4 → (s.slot c k).guest = none →
    (s.slot c k).km = true → s.thread.pc = (s.slot c k).regs.kvec →
    let t := s.trapCur cause v
    (t.slot c k).haltReq = true ∧ (t.slot c k).killed = true ∧ (t.slot c k).regs = (s.slot c k).regs ∧
    (t.slot c k).thr = (s.slot c k).thr ∧
    ∃ r, t.port.errors = lastN 256 (s.port.errors ++ [r]) ∧ r.kind = 2 ∧ r.unit = BitVec.ofNat 16 c)

/-- R92, R334, R335. BRK and TRAP raise their causes with their codes; KRET restores the mode that PREVK holds and the
counter that XPC holds, and nothing else of the registers, or raises ILLEGAL or ALIGN. -/
def Obligations.TrapInstructions : Prop :=
  ∀ (o : Op) (s : State) (c k : Nat), s.cur = .slot c k → k < 4 → s.thread.guardBit o = true →
    let sl := s.slot c k
    (s.mayRun 0x48 = true → exec (.brk o) s = .next (s.trapCur .brk (o.i18.setWidth 64))) ∧
    (s.mayRun 0xF2 = true → exec (.trap o) s = .next (s.trapCur .trap (o.i18.setWidth 64))) ∧
    (s.mayRun 0xF3 = true → (sl.regs.prevk || sl.regs.infiring) = true → sl.regs.xpc.toNat % 4 = 0 →
      ∃ t : State, exec (.kret o) s = .next t ∧ (t.slot c k).km = sl.regs.prevk ∧
        (t.slot c k).thr = { sl.thr with pc := sl.regs.xpc } ∧ (t.slot c k).regs = sl.regs ∧ (t.slot c k).v = sl.v ∧
        (t.slot c k).noMatch = o.m.getLsbD 0) ∧
    (s.mayRun 0xF3 = true → (sl.regs.prevk || sl.regs.infiring) = false →
      exec (.kret o) s = .next (s.trapCur .illegal (packWord0 0xF3 o))) ∧
    (s.mayRun 0xF3 = true → (sl.regs.prevk || sl.regs.infiring) = true → sl.regs.xpc.toNat % 4 ≠ 0 →
      exec (.kret o) s = .next (s.trapCur .align sl.regs.xpc))

/-! ### Vector instructions -/

/-- R101, R105-R110, R119. The lane-wise instructions: each enabled lane takes its result and ORs its flags into
FPCTL. R104, R111. VCMP and VFCMP: the bit of each enabled lane of D is its comparison, every other bit is kept (0 in
a queue entry). -/
def Obligations.LaneResults : Prop :=
  (∀ (o : Op) (s s1 s2 s3 t : State) (a b c : Nat),
    let w := laneWidth o.t.toNat
    let l := lanesOf s.prof o.t.toNat
    let mask := s.thread.laneMask o l
    let rm := s.thread.rm.toNat
    srcV w (immValue o) o.a s = .ok (a, s1) →
    (∀ e ∈ laneTable1, s.mayRun e.2.1 = true →
      let rs := (List.range l).map (fun i => e.2.2 o w rm (laneAt w a i))
      dstLanes o.d w mask (rs.map Prod.fst) (s1.modThread (·.orFlags (laneFlags mask rs))) = .ok ((), t) →
      exec (e.1 o) s = .next (t.finish o.len)) ∧
    (srcV w (immValue o) o.b s1 = .ok (b, s2) →
      (∀ e ∈ laneTable2, s.mayRun e.2.1 = true →
        let rs := (List.range l).map (fun i => e.2.2 o w rm (laneAt w a i) (laneAt w b i))
        dstLanes o.d w mask (rs.map Prod.fst) (s2.modThread (·.orFlags (laneFlags mask rs))) = .ok ((), t) →
        exec (e.1 o) s = .next (t.finish o.len)) ∧
      (s.mayRun 0x90 = true → srcV w (immValue o) o.c s2 = .ok (c, s3) →
        let rs := (List.range l).map (fun i =>
          fpFma (fmtOf o.t.toNat) rm (laneAt w a i).toNat (laneAt w b i).toNat (laneAt w c i).toNat)
        dstLanes o.d w mask (rs.map Prod.fst) (s3.modThread (·.orFlags (laneFlags mask rs))) = .ok ((), t) →
        exec (.vfma o) s = .next (t.finish o.len)))) ∧
  (∀ e ∈ laneCmpTable, ∀ (o : Op) (s s1 s2 t : State) (a b : Nat) (bits : BitVec 32), o.m.toNat ≤ 11 → s.mayRun e.2.1 = true →
    let w := laneWidth o.t.toNat
    let l := lanesOf s.prof o.t.toNat
    let mask := s.thread.laneMask o l
    let res (i : Nat) := e.2.2 o w (laneAt w a i) (laneAt w b i)
    l ≤ 32 → srcV w (immValue o) o.a s = .ok (a, s1) → srcV w (immValue o) o.b s1 = .ok (b, s2) →
    (∀ i, i < 32 → bits.getLsbD i = if lget false mask i then (res i).1
      else match o.d with | .reg n => (s.thread.getP n.val).getLsbD i | _ => false) →
    dstP o.d bits (s2.modThread (·.orFlags (laneFlags mask ((List.range l).map (fun i => (0, (res i).2)))))) = .ok ((), t) →
    exec (e.1 o) s = .next (t.finish o.len))

/-- R112, R120. VSEL, VPERM, VSLIDE, VCOMPR, VEXPND, VBCAST, VEXT and VINS. -/
def Obligations.LaneMoves : Prop :=
  ∀ (o : Op) (s s1 s2 t : State) (a b : Nat) (x : BitVec 64),
    let w := laneWidth o.t.toNat
    let l := lanesOf s.prof o.t.toNat
    let mask := s.thread.laneMask o l
    let j := i18f o 6 0
    (∀ e ∈ laneMoveTable, s.mayRun e.2.1 = true → i18f o 7 0 ≤ l → srcV w (immValue o) o.a s = .ok (a, s1) →
      (if e.2.2.1 then srcV w (immValue o) o.b s1 = .ok (b, s2) else b = 0 ∧ s2 = s1) →
      dstLanes o.d w mask ((List.range l).map (e.2.2.2 o l (fun i => (laneAt w a i).toNat) (fun i => (laneAt w b i).toNat)
        (fun i => (s.thread.getP (regNum o.c)).getLsbD (guardIx i l)))) s2 = .ok ((), t) →
      exec (e.1 o) s = .next (t.finish o.len)) ∧
    (s.mayRun 0x9C = true → srcX (immValue o) o.a s = .ok (x, s1) →
      dstLanes o.d w mask (List.replicate l (x.setWidth w).toNat) s1 = .ok ((), t) → exec (.vbcast o) s = .next (t.finish o.len)) ∧
    (s.mayRun 0x9D = true → srcV w (immValue o) o.a s = .ok (a, s1) → j < l →
      (if lget false mask j then dstX o.d ((laneAt w a j).setWidth 64) s1 = .ok ((), t) else noLane o.d s1 t) →
      exec (.vext o) s = .next (t.finish o.len)) ∧
    (s.mayRun 0x9E = true → srcX (immValue o) o.a s = .ok (x, s1) → j < l →
      dstLanes o.d w ((List.range l).map (fun i => i == j && lget false mask i)) (List.replicate l (x.setWidth w).toNat) s1 =
        .ok ((), t) → exec (.vins o) s = .next (t.finish o.len))

/-- R20, R104, R113, R117, R119. The reductions, VFRED and VAMAX over the enabled lanes, which write no register when no lane is
enabled and push an entry of zeros into a queue, and VPFX. VFRED adds in ascending lane order from b. -/
def Obligations.LaneReductions : Prop :=
  ∀ (o : Op) (s s1 s2 t : State) (a : Nat) (b : BitVec 64),
    let w := laneWidth o.t.toNat
    let l := lanesOf s.prof o.t.toNat
    let mask := s.thread.laneMask o l
    let live := ((List.range l).filter (fun i => lget false mask i)).map (laneAt w a)
    let rm := s.thread.rm.toNat
    let f := fmtOf o.t.toNat
    srcV w (immValue o) o.a s = .ok (a, s1) →
    (∀ e ∈ laneReduceTable, s.mayRun e.2.1 = true →
      (if live = [] then noLane o.d s1 t
        else dstX o.d (BitVec.ofInt 64 (e.2.2 (live.map (laneVal (o.m == 1))))) (s1.modThread (·.orFlags 0)) = .ok ((), t)) →
      exec (e.1 o) s = .next (t.finish o.len)) ∧
    (srcX (immValue o) o.b s1 = .ok (b, s2) →
      (s.mayRun 0xA4 = true →
        let r := live.foldl (fun (acc : Nat × Flags) x => ((fpAdd f rm acc.1 x.toNat).1, acc.2 ||| (fpAdd f rm acc.1 x.toNat).2))
          (b.toNat % 2 ^ f.width, 0)
        (if live = [] then noLane o.d s2 t else dstX o.d (BitVec.ofNat 64 r.1) (s2.modThread (·.orFlags r.2)) = .ok ((), t)) →
        exec (.vfred o) s = .next (t.finish o.len)) ∧
      (s.mayRun 0xA6 = true → (o.t = 7 → isB8 (b.toNat % 256) = true) →
        let r := if o.t = 7 then vamaxB8 (b.setWidth 16) rm (live.map BitVec.toNat) else vamaxFp f b.toNat (live.map BitVec.toNat)
        (if live = [] then noLane o.d s2 t else dstX o.d (BitVec.ofNat 64 r.1) (s2.modThread (·.orFlags r.2)) = .ok ((), t)) →
        exec (.vamax o) s = .next (t.finish o.len)) ∧
      (s.mayRun 0xA6 = true → o.t = 7 → isB8 (b.toNat % 256) = false → exec (.vamax o) s = .next (s.trapCur .format b)) ∧
      (s.mayRun 0xAB = true →
        dstLanes o.d w mask ((List.range l).map (fun i => b.toNat % 2 ^ w +
          ((((List.range i).filter (fun j => lget false mask j)).map (fun j => (laneAt w a j).toNat)).sum))) s2 = .ok ((), t) →
        exec (.vpfx o) s = .next (t.finish o.len)))

/-- R114-R116, R118. The conversions: lane j of the destination takes the source lane that part q gives it, where there is
one and j is enabled; VQUANT and VDEQ raise FORMAT for a legend that is not binary8; VSCALEQ forms a legend. -/
def Obligations.LaneConversions : Prop :=
  ∀ (o : Op) (s s1 s2 t : State) (a : Nat) (b : BitVec 64),
    let rm := s.thread.rm.toNat
    let v := vWidth s.prof
    let m8 := o.m.toNat % 8
    let leg : Legend := b.setWidth 16
    let done (ws wd q : Nat) (f : Nat → Nat × Flags) (s0 : State) : Prop :=
      let src := fun j => convSource v ws wd q j
      let rs := (List.range (v / wd)).map (fun j => match src j with | some i => f (laneAt ws a i).toNat | none => (0, 0))
      let live := (List.range (v / wd)).map (fun j => lget false (s.thread.laneMask o (v / wd)) j && (src j).isSome)
      dstLanes o.d wd live (rs.map Prod.fst) (s0.modThread (·.orFlags (laneFlags live rs))) = .ok ((), t)
    (s.mayRun 0xA5 = true → vcvtOk o = true → srcV (laneWidth o.t.toNat) (immValue o) o.a s = .ok (a, s1) →
      done (laneWidth m8) (laneWidth o.t.toNat) (i18f o 9 8)
        (vcvtElem m8 o.t.toNat (i18f o 7 0) rm (8 ≤ o.m.toNat) (i18f o 10 10 == 1)) s1 →
      exec (.vcvt o) s = .next (t.finish o.len)) ∧
    (s.mayRun 0xA8 = true → (o.m = 5 ∨ o.m = 6) → srcV 8 (immValue o) o.a s = .ok (a, s1) → srcX (immValue o) o.b s1 = .ok (b, s2) →
      (isB8 (b.toNat % 256) = true → done (laneWidth o.m.toNat) 8 (i18f o 1 0) (vquantElem leg o.m.toNat rm (i18f o 2 2 == 1)) s2 →
        exec (.vquant o) s = .next (t.finish o.len)) ∧
      (isB8 (b.toNat % 256) = false → exec (.vquant o) s = .next (s.trapCur .format b))) ∧
    (s.mayRun 0xA9 = true → (o.m = 5 ∨ o.m = 6) → srcV 8 (immValue o) o.a s = .ok (a, s1) → srcX (immValue o) o.b s1 = .ok (b, s2) →
      (isB8 (b.toNat % 256) = true →
        done 8 (laneWidth o.m.toNat) (i18f o 1 0) (fun c => roundIeee (fmtOf o.m.toNat) rm (decodeElem c leg)) s2 →
        exec (.vdeq o) s = .next (t.finish o.len)) ∧
      (isB8 (b.toNat % 256) = false → exec (.vdeq o) s = .next (s.trapCur .format b))) ∧
    (s.runs 0xA7 o → srcX (immValue o) o.a s = .ok (b, s1) →
      let r := chooseScale [(fmtOf o.m.toNat).decode b.toNat] (i18f o 7 0)
      dstX o.d (BitVec.ofNat 64 (256 * r.1 + i18f o 7 0)) (s1.modThread (·.orFlags r.2)) = .ok ((), t) →
      exec (.vscaleq o) s = .next (t.finish o.len))

/-- R24, R25, R102. A v destination of a slot: each enabled lane of the register takes its new value, the others keep theirs,
and LIVEV records the register; a gated group waits for VWAKE; a queue entry has zeros where lanes are off. -/
def Obligations.VectorDestination : Prop :=
  ∀ (s : State) (c k w : Nat) (mask : List Bool) (new : List Nat), s.cur = .slot c k → k < 4 →
    (w = 8 ∨ w = 16 ∨ w = 32) → mask.length = 256 / w → new.length = 256 / w →
    (∀ n : Fin 32, (s.slot c k).regs.gated n.val = true →
      dstLanes (.reg n) w mask new s = .error (.stall (.vwake (n.val / 8)))) ∧
    (∀ n : Fin 32, (s.slot c k).regs.gated n.val = false → (s.slot c k).owed.any (fun o => o.dst.coversV n.val) = false →
      (s.slot c k).poisonAt (poisonKeyV n.val) = none →
      ∃ t, dstLanes (.reg n) w mask new s = .ok ((), t) ∧ (t.slot c k).regs.livev.getLsbD n.val = true ∧
        (∀ i, i < 256 / w → laneAt w (vget 0 (t.slot c k).v n.val).toNat i =
          if lget false mask i then BitVec.ofNat w (lget 0 new i) else laneAt w (vget 0 (s.slot c k).v n.val).toNat i) ∧
        (∀ m : Nat, m ≠ n.val → vget 0 (t.slot c k).v m = vget 0 (s.slot c k).v m) ∧ t.thread = s.thread) ∧
    (∀ q : Fin 8, s.isGuest = false → ((s.core c).queue q.val).length + (s.core c).reserved q.val < 16 → (s.core c).owesPush q.val = false →
      ∃ (t : State) (e : BitVec 256), dstLanes (.queue q) w mask new s = .ok ((), t) ∧ (t.core c).queue q.val = (s.core c).queue q.val ++ [e] ∧
        ∀ i, i < 256 / w → laneAt w e.toNat i = if lget false mask i then BitVec.ofNat w (lget 0 new i) else 0)

/-! ### Memory -/

/-- R125, R140, R143, R144. Loads from an ARRAY bank of the issuing core complete at once with the bytes of local memory;
nothing is stored. -/
def Obligations.LocalLoads : Prop :=
  ∀ (o : Op) (s s1 t : State) (c k : Nat) (a b : BitVec 64) (vb : Nat), s1.calm c k → rdReg o.a s = .ok (a, s) →
    let e := a + o.i18.signExtend 64
    let n := typeBytes o
    let w := laneWidth o.t.toNat
    let mask := s.thread.laneMask o (lanesOf .core o.t.toNat)
    let own (x m : Nat) := siteOf (BitVec.ofNat 64 x) m s1 = .ok (.own c (x % 2 ^ 17) .array, s1)
    let bytes (items : List (Nat × Nat)) := items.flatMap (fun it => s1.localRead c (it.1 % 2 ^ 17) it.2)
    let lands (dst : LoadDst) (bs : List Byte) := claimDst dst s1 = .ok ((), s1) ∧ s1.deliver c k dst bs = some t
    let laned (base : Nat) : LoadDst :=
      match o.d with | .queue q => .lanesq q.val w mask | d => .lanes (regNum d) w mask (BitVec.ofNat 256 base)
    (s1 = s → ∀ x ∈ [(Instr.ld, 0x60, n, dstOfX o.d n),
            (Instr.ldp, 0x62, 2 * n, match o.d, o.c with | .reg d, .reg c => .xx d.val c.val n | d, c => .qq d c n),
            (Instr.vld, 0x64, 32, match o.d with | .queue q => .vq q.val | d => .v (regNum d))],
      s.runs x.2.1 o → own e.toNat x.2.2.1 → lands x.2.2.2 (bytes [(e.toNat, x.2.2.1)]) →
      exec (x.1 o) s = .next (t.finish o.len)) ∧
    (s1 = s → s.runs 0x68 o → own e.toNat 1 →
      lands (match o.d with | .queue q => .lgq q.val | d => .lgx (regNum d)) (bvBytes 2 (s.localLeg c (e.toNat % 2 ^ 17))) →
      exec (.lgld o) s = .next (t.finish o.len)) ∧
    (∀ base, (if mask.all id then base = 0 else oldV o.d s1 = .ok (base, s1)) →
      (s1 = s → s.mayRun 0x66 = true → rdReg o.b s = .ok (b, s) →
        let items := strideItems mask e b (w / 8)
        (∀ it ∈ items, own it.1 it.2) → lands (laned base) (bytes items) → exec (.vlds o) s = .next (t.finish o.len)) ∧
      (s.mayRun 0xAE = true → srcV w (immValue o) o.b s = .ok (vb, s1) →
        let items := (gatherOffsets o a mask ((List.range (lanesOf .core o.t.toNat)).map (fun i => (laneAt w vb i).toNat)) 0x20000).map
          (fun x => (0xFC * 2 ^ 56 + x, w / 8))
        a.toNat / 2 ^ 17 = 0xFC * 2 ^ 39 → (∀ it ∈ items, it.1 % (w / 8) = 0 ∧ s1.gatherBad c (it.1 % 2 ^ 17) = false) →
        s1.isGuest = false → s1.bpersBefore items = false → lands (laned base) (bytes items) → exec (.vgath o) s = .next (t.finish o.len)))

/-- R140, R143-R145, R266, R267. A store to an ARRAY bank of the issuing core enters the store queue with its address, bytes
and target, checked, one entry a bank, the two entries of one item in an order that is open; no memory changes until it leaves
the queue. R121-R123, R144. VSTS and VSCAT to ARRAY banks of the issuing core: the lanes' stores enter the queue, in lane order, the
enabled lanes alone, each with its lane's bytes; no memory changes. That lanes beyond 16 wait in their instruction, which holds its
slot with its counter unmoved, is the model's choice (DESIGN CHOICE, log entry 23). -/
def Obligations.LocalStores : Prop :=
  (∀ (o : Op) (s s1 s2 : State) (c k : Nat) (a b d : BitVec 64) (vb : Nat),
    let e := a + o.i18.signExtend 64
    let n := typeBytes o
    let queued (s0 : State) (i : Instr) (bs : List Byte) (leg : Option Legend) (op : StoreOp) (size : Nat) : Prop :=
      s0.calm c k → rdReg o.a s0 = .ok (a, s0) → siteOf e size s0 = .ok (.own c (e.toNat % 2 ^ 17) .array, s0) →
      ∃ t : State, exec i s = .next t ∧
        (∃ swap : Bool, (t.slot c k).sq.map (fun r => (r.addr, r.data)) =
          (partsOrder swap (bankCut e.toNat bs)).map (fun x => (x.1, x.2.map some))) ∧
        (∀ r ∈ (t.slot c k).sq, r.off = r.addr % 2 ^ 17 ∧ r.leg = leg ∧ r.op = op ∧
          r.chk = .ok { dev := s0.ownDev, core := c, isLocal := true } (s0.localKind c r.off) ∧
          r.rel = (op != .legend && isRel o) ∧ r.pc = s0.thread.pc) ∧
        s0.sameMemory t ∧ t.thread.pc = s0.thread.pc + BitVec.ofNat 64 (lenBytes o.len)
    (s.runs 0x61 o → srcX 0 o.b s = .ok (b, s1) → queued s1 (.st o) (natToBytes n b.toNat) none (.plain n) n) ∧
    (s.runs 0x63 o → srcX 0 o.b s = .ok (b, s1) → srcX 0 o.c s1 = .ok (d, s2) →
      queued s2 (.stp o) (natToBytes n b.toNat ++ natToBytes n d.toNat) none (.pair n) (2 * n)) ∧
    (s.runs 0x65 o → srcV 8 0 o.b s = .ok (vb, s1) → queued s1 (.vst o) (natToBytes 32 vb) none .vec 32) ∧
    (s.runs 0x69 o → srcX 0 o.b s = .ok (b, s1) → queued s1 (.lgst o) [] (some (b.setWidth 16)) .legend 1)) ∧
  (∀ (o : Op) (s s1 s2 : State) (c k : Nat) (a b : BitVec 64) (v vb : Nat),
    let w := laneWidth o.t.toNat
    let l := lanesOf .core o.t.toNat
    let mask := s.thread.laneMask o l
    let vals := ((List.range l).filter (fun i => lget false mask i)).map (fun i => (laneAt w v i).toNat)
    let stored (s0 : State) (i : Instr) (items : List (Nat × Nat)) : Prop :=
      s0.calm c k → (∀ it ∈ items, siteOf (BitVec.ofNat 64 it.1) it.2 s0 = .ok (.own c (it.1 % 2 ^ 17) .array, s0)) →
      (s0.slot c k).pend = none →
      ∃ (t : State) (swap : Nat → Bool), let lanes := ((items.zip vals).zipIdx.flatMap (fun x =>
          partsOrder (swap x.2) (bankCut x.1.1.1 (natToBytes x.1.1.2 x.1.2)))).map (fun x => (x.1, x.2.map some))
        exec i s = .next t ∧ (t.slot c k).queued.map (fun r => (r.addr, r.data)) = lanes ∧
        (t.slot c k).sq.length = min 16 lanes.length ∧ s0.sameMemory t ∧
        t.thread.pc = if lanes.length ≤ 16 then s0.thread.pc + BitVec.ofNat 64 (lenBytes o.len) else s0.thread.pc
    rdReg o.a s = .ok (a, s) →
    (s.mayRun 0x67 = true → rdReg o.b s = .ok (b, s) → srcV w 0 o.c s = .ok (v, s1) →
      stored s1 (.vsts o) (strideItems mask (a + o.i18.signExtend 64) b (w / 8))) ∧
    (s.mayRun 0xAF = true → srcV w (immValue o) o.b s = .ok (vb, s1) → srcV w (immValue o) o.c s1 = .ok (v, s2) →
      a.toNat / 2 ^ 17 = 0xFC * 2 ^ 39 → s2.isGuest = false → (∀ x, s2.bpersBefore x = false) →
      let items := (gatherOffsets o a mask ((List.range l).map (fun i => (laneAt w vb i).toNat)) 0x20000).map
        (fun x => (0xFC * 2 ^ 56 + x, w / 8))
      (∀ it ∈ items, it.1 % (w / 8) = 0 ∧ s2.gatherBad c (it.1 % 2 ^ 17) = false) →
      stored s2 (.vscat o) items))

/-- R308, R311. An SVC's loads and stores are of its own buffer: in range and not held by a row access they complete at once,
and a store changes its own bytes alone; out of range they raise RIGHTS. -/
def Obligations.BufferAccesses : Prop :=
  ∀ (o : Op) (s s1 t : State) (m : Nat) (a b : BitVec 64), s.cur = .svc m → s.thread.guardBit o = true → s.poison = [] →
    let n := typeBytes o
    let e := a + o.i18.signExtend 64
    let fits (size : Nat) (s0 : State) (store : Bool) : Prop :=
      e.toNat + size ≤ 0x40000 ∧ (s0.svc m).rowHeld e.toNat size store = false
    (s.mayRun 0x60 = true → rdReg o.a s = .ok (a, s) → 0 < n → fits n s false →
      dstX o.d (bytesBv 64 (Mem.readN (s.svc m).mem e.toNat n)) s = .ok ((), t) → exec (.ld o) s = .next (t.finish o.len)) ∧
    (s.mayRun 0x60 = true → rdReg o.a s = .ok (a, s) → 0x40000 < e.toNat + n → exec (.ld o) s = .next (s.trapCur .rights e)) ∧
    (s.mayRun 0x61 = true → srcX 0 o.b s = .ok (b, s1) → rdReg o.a s1 = .ok (a, s1) → 0 < n → fits n s1 true →
      ∃ u : State, exec (.st o) s = .next u ∧ (u.svc m).mem = Mem.writeN (s1.svc m).mem e.toNat (natToBytes n b.toNat) ∧
        (∀ j, j ≠ m → u.svc j = s1.svc j) ∧ u.cores = s1.cores ∧ s1.sameRest u ∧
        u.thread.pc = s.thread.pc + BitVec.ofNat 64 (lenBytes o.len))

/-- R266, R249. The head of a store queue whose target is an ARRAY bank of its own core is performed: its bytes, and
no others, are written. One for another core leaves as a packet and counts in UAS until its acknowledgement. That the queue then
takes the next lanes of an instruction in progress is the model's choice (DESIGN CHOICE, log entry 23). R23, R271. A
combining-buffer entry that is sent, while UAS has room, leaves as one masked store of its line. -/
def Obligations.StoresLeave : Prop :=
  (∀ (s : State) (c k : Nat) (r : StoreReq) (rest : List StoreReq) (tgt : Target) (kind : Kind), k < 4 → (s.slot c k).sq = r :: rest →
    r.chk = .ok tgt kind → (s.slot c k).halted = false → (s.slot c k).maySend r tgt kind = true → (∀ x, (s.core x).gathers = []) →
    let next := rest ++ ((s.slot c k).lanesLeft.take (16 - rest.length)).map (·.skid)
    (tgt = { dev := s.ownDev, core := c, isLocal := true } → r.leg = none → r.op ≠ .legend → 0 < r.len →
      s.localHeld c r.off r.len true = false → s.storeUse c r = .array → s.plainArray c r.off r.len →
      ∃ t : State, exec (.storeLeavesQueue c k) s = .next t ∧ (t.slot c k).sq = next ∧ s.wroteLocal t c r.off r.data) ∧
    ((tgt.dev ≠ s.ownDev ∨ tgt.core ≠ c) → (kind ≠ .uo ∨ r.op = .legend ∨ r.counted = true) →
      ∃ (t : State) (p : Packet), exec (.storeLeavesQueue c k) s = .next t ∧ (t.slot c k).sq = next ∧ t.net = s.net ++ [p] ∧
        p.body = .store r ∧ p.dev = tgt.dev ∧ p.core = tgt.core ∧ p.src = (c, k) ∧
        (t.slot c k).unacked.length = (s.slot c k).unacked.length + 1 ∧ s.sameMemory t)) ∧
  (∀ (s : State) (c k n : Nat) (e : CombEntry), k < 4 → (s.slot c k).comb[n]? = some e → (s.slot c k).uas < 4095 →
    ∃ (t : State) (p : Packet) (r : StoreReq), exec (.combiningBufferSend c k n) s = .next t ∧ t.net = s.net ++ [p] ∧ p.body = .store r ∧ r.data = e.data ∧
      r.parts = e.parts ∧ r.addr = e.line ∧ r.op = .merged ∧ p.core = e.tgt.core ∧ p.dev = e.tgt.dev ∧
      (t.slot c k).comb = (s.slot c k).comb.filter (fun y => y.id != e.id) ∧ s.sameMemory t ∧
      (t.slot c k).unacked.length = (s.slot c k).unacked.length + 1)

/-- R23, R127, R139, R249. A remote store that reaches an ARRAY bank writes its bytes alone and is acknowledged, and so does
one that a combining buffer sent, each of its stores in their order within the line (R271); the acknowledgement takes one from UAS,
and tells of a saturated bin. R127, R249. A remote load of an ARRAY bank replies with the bytes; the reply that
completes a load writes them to its x destination and is owed no longer. -/
def Obligations.RemoteAccesses : Prop :=
  ((∀ (s : State) (i : Nat) (p : Packet) (r : StoreReq), s.packetAt i = some p → p.body = .store r → s.mayArrive i p = true →
    p.dev = s.ownDev → s.isLost p.dev = false → p.isLocal = true → r.leg = none → r.op ≠ .legend → 0 < r.len →
    s.localHeld p.core r.off r.len true = false →
    let acked (t : State) : Prop := ∃ q : Packet, t.net = ldel s.net i ++ [q] ∧ q.body = .ack r.id false ∧ q.core = p.src.1 ∧ q.slot = p.src.2
    (r.parts = [] → s.storeUse p.core r = .array → s.plainArray p.core r.off r.len →
      ∃ t : State, exec (.remoteStoreArrival i) s = .next t ∧ s.wroteLocal t p.core r.off r.data ∧ acked t) ∧
    (r.op = .merged → r.parts ≠ [] → s.bankUse1 p.core r.off = .array →
      (∀ m ∈ r.parts, (m.whole = none ∨ m.whole = some (m.off, m.data.length)) ∧ 0 < m.data.length ∧ m.off % 0x2000 + m.data.length ≤ 0x2000 ∧
        m.op ≠ .legend ∧ s.plainArray p.core m.off (min m.data.length (64 - m.off % 64))) →
      ∃ t : State, exec (.remoteStoreArrival i) s = .next t ∧ acked t ∧ (∀ d, d ≠ p.core → (t.core d).mem = (s.core d).mem) ∧
        (t.core p.core).mem = r.parts.foldl (fun mem m => Mem.writeMasked mem m.off (m.data.take (64 - m.off % 64))) (s.core p.core).mem)) ∧
  (∀ (s : State) (i : Nat) (p : Packet) (id : Nat) (sat : Bool), s.packetAt i = some p → p.body = .ack id sat → p.slot < 4 →
    (s.slot p.core p.slot).unacked.any (fun u => u.id == id) = true →
    ∃ t : State, exec (.storeAck i) s = .next t ∧ t.net = ldel s.net i ∧
      (t.slot p.core p.slot).unacked = (s.slot p.core p.slot).unacked.filter (fun u => u.id != id) ∧ s.sameMemory t ∧
      (t.slot p.core p.slot).thr = if sat then (s.slot p.core p.slot).thr.orFlags flSATF else (s.slot p.core p.slot).thr)) ∧
  ((∀ (s : State) (i : Nat) (p : Packet) (rid part a n size pair : Nat) (uo : Bool) (xa : BitVec 64), s.packetAt i = some p →
    p.body = .load rid part a n size false pair uo xa → s.mayArrive i p = true → p.dev = s.ownDev → s.isLost p.dev = false →
    p.isLocal = true → s.localHeld p.core a n false = false → s.bankUse1 p.core a = .array →
    ∃ (t : State) (q : Packet), exec (.remoteLoadArrival i) s = .next t ∧ t.net = ldel s.net i ++ [q] ∧
      q.body = .loadReply rid part (.ok (s.localRead p.core a n)) none (s.localPoison p.core a n) ∧
      q.core = p.src.1 ∧ q.slot = p.src.2 ∧ s.sameMemory t) ∧
  (∀ (s : State) (i : Nat) (p : Packet) (rid n sz : Nat) (bs : List Byte) (o : Owed), s.packetAt i = some p →
    p.body = .loadReply rid 0 (.ok bs) none false → p.slot < 4 → (s.slot p.core p.slot).owed.find? (fun x => x.rid == rid) = some o →
    o.dst = .x n sz → o.got = [none] → o.poisoned = false → n ≠ 0 → n < 32 → (s.slot p.core p.slot).pend = none →
    ∃ t : State, exec (.loadReply i) s = .next t ∧ t.net = ldel s.net i ∧
      (t.slot p.core p.slot).thr.getX n = bytesBv 64 (bs.take sz) ∧
      (∀ m, m ≠ n → (t.slot p.core p.slot).thr.getX m = (s.slot p.core p.slot).thr.getX m) ∧
      (t.slot p.core p.slot).owed = (s.slot p.core p.slot).owed.filter (fun x => x.rid != rid) ∧ s.sameMemory t))

/-- R275-R277. An atomic in an ARRAY bank of its own core writes the new value to its bytes alone, and its old value
to D. R276. AMFADD in an ARRAY bank of its own core adds as FADD and ORs FADD's flags into FPCTL. -/
def Obligations.LocalAtomics : Prop :=
  (∀ (o : Op) (s s1 s2 : State) (c k off : Nat) (a b cv : BitVec 64) (n : Fin 32), s.thread.guardBit o = true →
    let z := typeBytes o
    let e := a + o.i18.signExtend 64
    rdReg o.a s = .ok (a, s) → srcX (immValue o) o.b s = .ok (b, s1) → s2.calm c k → e.toNat % z = 0 → o.d = .reg n →
    s2.locate c k e.toNat z = some (.loc s.ownDev c off z) → s2.plainArray c off z → s2.noAtomic c off = false →
    ∀ x ∈ atomicTable, s.mayRun x.2 = true → (if x.2 = 0x79 then srcX (immValue o) o.c s1 = .ok (cv, s2) else s2 = s1) →
      let old := BitVec.ofNat (8 * z) (bytesToNat (s2.localRead c off z))
      let r := specAtomic x.2 (8 * z) old (b.setWidth _) (cv.setWidth _)
      ∃ t : State, exec (x.1 o) s = .next t ∧ t.thread.getX n.val = (if n.val = 0 then 0 else old.setWidth 64) ∧
        s2.wroteLocal t c off ((natToBytes z (if r.2 then r.1 else old).toNat).map some) ∧ t.thread.flags = s.thread.flags ∧
        t.thread.pc = s.thread.pc + BitVec.ofNat 64 (lenBytes o.len)) ∧
  (∀ (o : Op) (s s1 : State) (c k off : Nat) (a b : BitVec 64) (n : Fin 32), s.runs 0x7A o →
    let f := fmtOf o.t.toNat
    let z := f.width / 8
    let e := a + o.i18.signExtend 64
    (o.t = 5 ∨ o.t = 6) → rdReg o.a s = .ok (a, s) → srcX (immValue o) o.b s = .ok (b, s1) → s1.calm c k → e.toNat % z = 0 → o.d = .reg n →
    s1.locate c k e.toNat z = some (.loc s.ownDev c off z) → s1.plainArray c off z → s1.noAtomic c off = false →
    let old := bytesToNat (s1.localRead c off z)
    let r := fpAdd f s.thread.rm.toNat old (b.toNat % 2 ^ f.width)
    ∃ t : State, exec (.amfadd o) s = .next t ∧ t.thread.getX n.val = (if n.val = 0 then 0 else BitVec.ofNat 64 old) ∧
      s1.wroteLocal t c off ((natToBytes z r.1).map some) ∧ t.thread.flags = s.thread.flags ||| r.2)

/-- R277. An atomic that reaches an ARRAY bank of another core is performed there and replies with the old value; the reply
writes D and its instruction completes. -/
def Obligations.RemoteAtomics : Prop :=
  (∀ (s : State) (i : Nat) (p : Packet) (rid code a z : Nat) (b c : BitVec 64) (rm : BitVec 3) (xa : BitVec 64),
    s.packetAt i = some p → p.body = .atomic rid code a z b c rm false xa → code ∈ atomicTable.map Prod.snd → 0 < z → z ≤ 8 →
    s.mayArrive i p = true → p.dev = s.ownDev → s.isLost p.dev = false → p.isLocal = true → s.noAtomic p.core a = false →
    s.localHeld p.core a z true = false → s.plainArray p.core a z → s.poison = [] → (s.core p.core).trav.en = false →
    let old := BitVec.ofNat (8 * z) (bytesToNat (s.localRead p.core a z))
    let r := specAtomic code (8 * z) old (b.setWidth _) (c.setWidth _)
    ∃ (t : State) (q : Packet), exec (.atomicArrival i) s = .next t ∧ t.net = ldel s.net i ++ [q] ∧
      q.body = .atomicReply rid (.ok (old.setWidth 64, 0)) ∧ q.core = p.src.1 ∧ q.slot = p.src.2 ∧
      s.wroteLocal t p.core a ((natToBytes z (if r.2 then r.1 else old).toNat).map some)) ∧
  (∀ (s : State) (i rid len : Nat) (p : Packet) (old : BitVec 64) (fl : BitVec 7) (n : Fin 32) (undo : Popped), s.packetAt i = some p →
    p.body = .atomicReply rid (.ok (old, fl)) → p.slot < 4 → (s.slot p.core p.slot).pend = some (.atomic rid (.reg n) len undo) →
    ∃ t : State, exec (.atomicReply i) s = .next t ∧ t.net = ldel s.net i ∧ (t.slot p.core p.slot).status = .ready ∧
      (t.slot p.core p.slot).pend = none ∧ (t.slot p.core p.slot).thr.getX n.val = (if n.val = 0 then 0 else old) ∧
      (t.slot p.core p.slot).thr.pc = (s.slot p.core p.slot).thr.pc + BitVec.ofNat 64 len ∧
      (t.slot p.core p.slot).thr.flags = (s.slot p.core p.slot).thr.flags ||| fl ∧ s.sameMemory t)

/-- R146, R273, R274, R312. FENCE and DRAIN complete once nothing that they wait for is outstanding; PREF never waits, and
where it finds no entry it does nothing; a line that its slice serves now, in the class of its slot (R261), comes into the L1. -/
def Obligations.FencesAndHints : Prop :=
  ∀ (o : Op) (s : State) (c k m : Nat) (a : BitVec 64), s.thread.guardBit o = true →
    let what := o.m.toNat % 4
    let p := inScope s.ownDev c (o.m.toNat / 4)
    (s.cur = .slot c k → s.mayRun 0x6B = true → (what = 3 → (s.slot c k).comb.any (fun e => p e.tgt) = false) →
      (s.slot c k).fencePending (what != 2) (what != 1) (what == 3) p = false →
      (what ≠ 2 → s.gathering c k (fun _ t kd => (what == 3 || kd != .uo) && p t) = false) →
      exec (.fence o) s = .next (s.finish o.len)) ∧
    (s.cur = .slot c k → s.mayRun 0x6B = true → what ≠ 3 → (s.slot c k).fencePending (what != 2) (what != 1) false p = true →
      exec (.fence o) s = .next (s.stallCur .fence)) ∧
    (s.cur = .svc m → s.mayRun 0x6B = true → (s.svc m).rows = [] → (s.svc m).scan = none →
      exec (.fence o) s = .next (s.finish o.len)) ∧
    (s.cur = .svc m → s.mayRun 0x6B = true → ((s.svc m).rows ≠ [] ∨ (s.svc m).scan ≠ none) →
      exec (.fence o) s = .next (s.stallCur .fence)) ∧
    (s.cur = .slot c k → k < 4 → s.mayRun 0x6C = true → (s.slot c k).sq = [] → (s.slot c k).comb = [] → (s.slot c k).unacked = [] →
      (s.slot c k).owed = [] → (s.slot c k).sfPending = false → s.gathering c k (fun _ _ _ => true) = false →
      ∃ t : State, exec (.drain o) s = .next t ∧ t.thread = { s.thread with pc := s.thread.pc + BitVec.ofNat 64 (lenBytes o.len) } ∧
        (t.slot c k).regs = (s.slot c k).regs ∧ s.sameMemory t) ∧
    (s.cur = .slot c k → s.mayRun 0x6A = true → rdReg o.a s = .ok (a, s) →
      let e := (a + o.i18.signExtend 64).toNat
      (2 ^ 56 ≤ e ∨ (s.core c).plbFind (s.checkDom c k) e = none) → exec (.pref o) s = .next (s.finish o.len)) ∧
    (s.cur = .slot c k → s.mayRun 0x6A = true → rdReg o.a s = .ok (a, s) →
      let e := (a + o.i18.signExtend 64).toNat
      ∀ (en : PlbEntry) (h : Nat), e < 2 ^ 56 → (s.core c).plbFind (s.checkDom c k) e = some en → en.r = true →
        en.home e = (s.ownDev, h) → s.guardHeld e true = false → s.stacksJoined (coreStack c) (coreStack h) = true → s.lineReady h e = true →
        let cls := (s.slot c k).regs.qos.toNat
        s.hitServed h e cls = true → exec (.pref o) s = .next ((s.fillL1 h e cls).finish o.len))

/-- R244, R245, R357. A PLB fill whose table reads their channels serve (R261, R322) and that finds a valid entry puts it in the
PLB and checks the rights of queued stores; that it goes first, and that the oldest entry leaves, is the model's choice (DESIGN
CHOICE, log entry 23). R255, R256, R262. A walk that its slice serves ends: its line's read waits at the channel of its frame. An L2
eviction that no request needs, and whose write-back has its way free, takes the line from its slice. R259. An entry of the range scoreboard retires once its
holder has finished, and not before. -/
def Obligations.FillsWalksAndRanges : Prop :=
  (∀ (s s0 : State) (c n a dom : Nat) (e : PlbEntry), (s.core c).fills[n]? = some (a, dom) →
    s.walkTokens (coreStack c) (s.fillReads dom a) = some s0 → s0.protWalk dom a = some e → (∀ k, k < 4 → (s.slot c k).sq = []) →
    ∃ t : State, exec (.plbFillComplete c n) s = .next t ∧ (t.core c).fills = ldel (s.core c).fills n ∧
      (t.core c).plb = (e :: (s.core c).plb.filter (fun z => !z.covers dom a)).take 64 ∧ s0.sameMemory t) ∧
  ((∀ (s s0 s1 : State) (n pa : Nat) (w : Walk) (big : Bool), s.walks[n]? = some w → w.moving = false → w.pa = none → s.walkTurn n w = true →
    s.walkTokens (w.slice / 128) (s.xlatReads w.slice w.line) = some s0 → s0.translate w.slice w.line = (.pa pa big, s1) →
    ∃ t : State, exec (.translationWalkComplete n) s = .next t ∧ t.walks = lput s1.walks n { w with pa := some pa } ∧
      (t.channel (channelOf pa)).normal = (s1.channel (channelOf pa)).normal ++ [(.read w.line w.slice, w.cls)]) ∧
  (∀ (s : State) (n : Nat) (l : L2Line), s.l2[n]? = some l →
    s.lineNeeded l.line l.slice = false → s.canWriteBack l = true →
    ∃ t : State, exec (.l2Eviction n) s = .next t ∧ ∀ x ∈ t.l2, x.line ≠ l.line ∨ x.slice ≠ l.slice)) ∧
  (∀ (s : State) (c n : Nat) (r : Range), (s.core c).ranges[n]? = some r →
    (s.rangeDone c r = true → ∃ t : State, exec (.rangeRetire c n) s = .next t ∧ (t.core c).ranges = ldel (s.core c).ranges n ∧ s.sameMemory t) ∧
    (s.rangeDone c r = false → exec (.rangeRetire c n) s = .next s))

/-- R250-R253. A context that arrives takes its guest slot, and is asked to halt there where a pre-emption in force names the slot
(R364); a firing that must return does, over links that carry traffic, with its registers, and its guest slot is IDLE; a waypoint
sends a late reply on to where the firing went. -/
def Obligations.Migration : Prop :=
  (∀ (s : State) (i : Nat) (p : Packet) (sl : Slot), s.packetAt i = some p → p.body = .context sl → p.slot < 4 → p.dev = s.ownDev →
    let asked := s.port.preempts.any (fun q => (s.setSlot p.core p.slot sl).inScope q p.core p.slot)
    ∃ t : State, exec (.migrationArrival i) s = .next t ∧
      t.slot p.core p.slot = (if asked then sl.askHalt (s.core p.core).mu.queue.length else sl) ∧ t.net = ldel s.net i ∧ s.sameMemory t) ∧
  (∀ (s : State) (c k : Nat) (h : Nat × Nat), k < 4 → h.2 < 4 → h ≠ (c, k) → (s.slot c k).guest = some h →
    (s.slot c k).status = .stalled .away → (s.slot c k).pend = none → (s.slot c k).uas = 0 → (s.slot c k).sq = [] →
    (s.slot c k).comb = [] → (s.core c).waypoints.length < 8 → (s.slot c k).haltReq = false → (s.slot h.1 h.2).haltReq = false →
    s.homeJoined c k = true →
    ∃ t : State, exec (.migrateBack c k) s = .next t ∧ t.slot c k = {} ∧ (t.slot h.1 h.2).thr = (s.slot c k).thr ∧
      (t.slot h.1 h.2).regs = (s.slot c k).regs ∧ (t.slot h.1 h.2).firing = (s.slot c k).firing ∧
      (t.slot h.1 h.2).status = .ready ∧ (t.slot h.1 h.2).awayAt = none ∧ s.sameMemory t) ∧
  (∀ (s : State) (i id n : Nat) (p : Packet) (w : Waypoint), s.packetAt i = some p → p.replyId = some id → i < s.net.length →
    (s.core p.core).waypoints.findIdx? (fun w => w.slot == p.slot && w.owed.contains id) = some n →
    (s.core p.core).waypoints[n]? = some w →
    ∃ (t : State) (q : Packet), exec (.waypointForward i) s = .next t ∧ t.net = lput s.net i q ∧ q.body = p.body ∧ q.core = w.guest.1 ∧ q.slot = w.guest.2)

/-- The canonical form of the memories, which is the model's representation of them (DESIGN CHOICE, log entry 42) and no rule of
the spec: reset has it, every instruction and event answers a next state that has it, and every step keeps it. -/
def Obligations.MemoryStaysCanonical : Prop :=
  State.reset.memWf ∧ (∀ (i : Instr) (s : State), s.memWf → ∃ t : State, exec i s = .next t ∧ t.memWf) ∧
  ∀ s t : State, s.memWf → step s = .next t → t.memWf

/-! ### Banks -/

/-- R131-R134, R147-R151. A bank instruction on a bank of its own core is one operation of the bank: D, C and the rest take
what the operation answers, and a refusal is a precise fault that changes nothing. -/
def Obligations.BankInstructions : Prop :=
  ∀ x ∈ bankTable, ∀ (o : Op) (s s1 : State) (c k off vd : Nat) (a b din : BitVec 64), s1.calm c k → s.runs x.2 o →
    let wide := o.m.getLsbD 0
    let wideD := wide && (x.2 == 0xB4 || x.2 == 0xB5)
    let d := regNum o.d
    let e := a + o.i18.signExtend 64
    let q : BankReq := { core := c, bank := off / 0x2000, off := off % 0x2000, code := x.2, addr := e, din, bv := b, wide, vdata := if x.2 = 0xB0 then s1.depthTable b.toNat else vd, detach := o.m.getLsbD 1, km := (s1.slot c k).km, own := c == (s1.homeOf c k).1 }
    (x.2 = 0xBB → s.isGuest = false) → rdReg o.a s = .ok (a, s) → bankB o (wide && x.2 == 0xB2) s = .ok ((b, vd), s1) →
    (if readsD x.2 then rdX d s1 = .ok (din, s1) else din = 0) → bankSite e s1 = .ok ((s1.ownDev, c, off), s1) →
    claimDst (if wideD then .v d else .x d 8) s1 = .ok ((), s1) → claimX (regNum o.c) s1 = .ok ((), s1) →
    (x.2 = 0xB0 → (s1.core c).bankBusy c s1.ownDev (off / 0x2000) = false ∧ s1.lanesAt c (off / 0x2000) (fun _ _ => true) (fun _ => true) = false) →
    (∀ r s2, s1.bankOp q = .ok (r, s2) →
      exec (x.1 o) s = .next ((s2.modSlot c k (·.bankResult d (regNum o.c) wideD r.keepD r)).finish o.len)) ∧
    (∀ cause v, s1.bankOp q = .error (cause, v) → exec (x.1 o) s = .next (s.trapCur cause v))

/-- R135, R136. A QUEUE is first in, first out and full at its depth; a STACK gives back what was put last. R133,
R135, R147. What the operations of an unspanned QUEUE that is no mailbox answer: BGET of an empty one gives status 2
and zero, BPUT into a full one status 1, and neither changes the bank. R137. A MAP finds the value that was inserted
under a key last; a lookup changes nothing. R138. A put into a HEAP adds its entry with the next sequence, and FULL at its capacity;
a take gives an entry of the least key and leaves the others, and seq is 0 once the HEAP is empty. R139, R147. BINC of an unspanned
HIST adds to the bin of its key, saturating at 0xFFFFFFFF, to the edge bin where the key is out of range and there is one, and to no
other; without an edge bin it answers ABSENT and changes nothing. -/
def Obligations.BankContents : Prop :=
  ((∀ (s t : State) (c b i e : Nat), s.soundQueue c b i →
    (s.queuePut c b i e = some t → t.queueList c b i = s.queueList c b i ++ [e % 2 ^ (8 * (s.bank c b).esz)]) ∧
    (s.queueTake c b i = some (e, t) → s.queueList c b i = e :: t.queueList c b i) ∧
    (s.queuePut c b i e = none ↔ (s.bank c b).count i = (s.bank c b).depth i) ∧
    (s.queueTake c b i = none ↔ s.queueList c b i = [])) ∧
  (∀ (s t : State) (c b e : Nat), b < 16 → (s.bank c b).span = none → Memory.wf (s.core c).mem = true → s.stackPut c b e = some t →
    ∃ u, t.stackTake c b = some (e % 2 ^ (8 * (s.bank c b).esz), u) ∧ (u.bank c b).top = (s.bank c b).top)) ∧
  (∀ (s : State) (q : BankReq), s.soundQueue q.core q.bank (subOf (s.bank q.core q.bank) q.off) →
    let x := s.bank q.core q.bank
    let i := subOf x q.off
    x.pers = 1 → x.isMember = false → s.isMailbox q.core q.bank = false → i ≤ x.subq → q.wide = (x.esz == 32) →
    (x.subq = 0 → x.counts = [x.count 0]) →
    (q.code = 0xB4 → x.count i = 0 → s.bankOp q = .ok ({ status := 2 }, s)) ∧
    (q.code = 0xB2 → x.count i = x.depth i → s.bankOp q = .ok ({ status := 1 }, s)) ∧
    (q.code = 0xB2 → x.count i < x.depth i → ∃ r t, s.bankOp q = .ok (r, t) ∧ r.status = 0 ∧
      r.d = BitVec.ofNat 64 (x.count i + 1)) ∧
    (q.code = 0xB9 → ∃ r, s.bankOp q = .ok (r, s) ∧ r.d = BitVec.ofNat 64 (x.count i))) ∧
  (∀ (s t : State) (c b k v r old : Nat), b < 16 → (s.bank c b).cap ≤ 512 → Memory.wf (s.core c).mem = true → k < 2 ^ 64 → v < 2 ^ 64 →
    s.mapInsert (c, b) k v false = (r, old, t) →
    (r = 0 ∨ r = 4 → ∃ f, t.mapFind (c, b) k = some f ∧ t.mapValue (c, b) f = v) ∧ (r = 1 → t = s) ∧ (r = 0 ∨ r = 1 ∨ r = 4)) ∧
  (∀ (s : State) (c b : Nat), s.soundHeap c b →
    let x := s.bank c b
    (∀ e, e < 2 ^ 64 → (s.heapInsert c b e = none ↔ x.hcount = x.cap) ∧ ∀ t, s.heapInsert c b e = some t →
      t.soundHeap c b ∧ (t.heapItems c b).Perm ((e, x.hseq.toNat) :: s.heapItems c b) ∧ (t.bank c b).hseq = x.hseq + 1) ∧
    (s.heapPop c b = none ↔ x.hcount = 0) ∧
    ∀ e t, s.heapPop c b = some (e, t) → t.soundHeap c b ∧ (t.bank c b).hseq = (if x.hcount = 1 then 0 else x.hseq) ∧
      ∃ q, (s.heapItems c b).Perm ((e, q) :: t.heapItems c b) ∧ ∀ y ∈ t.heapItems c b, heapKey (e, q) ≤ heapKey y) ∧
  (∀ (s : State) (q : BankReq),
    let x := s.bank q.core q.bank
    let j := ((q.bv - (x.ctl.extractLsb' 32 32).signExtend 64) >>> (x.ctl.extractLsb' 26 6).toNat).toNat
    let mask := (x.ctl.extractLsb' 15 11).toNat
    let edge := x.ctl.getLsbD 14
    let bin := min j (mask + 1)
    let sum := s.bankWord q.core q.bank (4 * bin) 4 + q.din.toNat
    q.code = 0xB8 → q.bank < 16 → x.pers = 5 → x.isMember = false → x.span = none → s.isMailbox q.core q.bank = false →
    (edge = true → mask ≠ 2047) → Memory.wf (s.core q.core).mem = true →
    (j ≤ mask ∨ edge = true → ∃ (r : BankRes) (t : State), s.bankOp q = .ok (r, t) ∧ r.status = 0 ∧
      r.d = BitVec.ofNat 64 (min sum 0xFFFFFFFF) ∧ (r.sat = true ↔ 0xFFFFFFFF < sum) ∧
      t.bankWord q.core q.bank (4 * bin) 4 = min sum 0xFFFFFFFF ∧
      ∀ i, i < 2048 → i ≠ bin → t.bankWord q.core q.bank (4 * i) 4 = s.bankWord q.core q.bank (4 * i) 4) ∧
    (mask < j → edge = false → s.bankOp q = .ok ({ status := 3 }, s)))

/-- R152, R153. BSPAN on a master of its own core: where its list lies in the own window, in ARRAY banks, and names 2 to 16
distinct banks of the team in the master's cluster, none spanned and none a mailbox, the master first, it composes them into one
span; D tells the entries that the members lost. What that leaves: the master has SPMS and SPIX 0 and keeps the rest of its BANKCTL and
its contents; each other member has SPM, its place as SPIX, the master's other BANKCTL fields and its depths, and is empty, its bytes
and legends zero; no other byte or legend changes, and the members of the structure at the master are then the list. R127. On a master of another core it is sent there and its slot waits. -/
def Obligations.SpansCompose : Prop :=
  (∀ (s : State) (mc mb : Nat) (ms : List (Nat × Nat)), ms[0]? = some (mc, mb) → ms.Nodup → 2 ≤ ms.length → ms.length ≤ 16 →
    (∀ m ∈ ms, m.2 < 16 ∧ (s.bank m.1 m.2).spanned = false) →
    let x := s.bank mc mb
    let r := s.compose mc mb ms
    let y := r.2.bank mc mb
    r.1 = ((ms.drop 1).map (fun m => s.bankLive m.1 m.2)).sum ∧
    (y.isMaster = true ∧ y.isMember = false ∧ y.spix = 0 ∧ y.ctl.toNat % 2 ^ 5 = x.ctl.toNat % 2 ^ 5 ∧
      y.ctl.toNat / 2 ^ 11 = x.ctl.toNat / 2 ^ 11 ∧ y = { x with ctl := y.ctl, span := y.span }) ∧
    (∀ i m, 0 < i → ms[i]? = some m →
      let z := r.2.bank m.1 m.2
      z.isMember = true ∧ z.isMaster = false ∧ z.spix = i ∧ z.ctl.toNat % 2 ^ 5 = x.ctl.toNat % 2 ^ 5 ∧
      z.ctl.toNat / 2 ^ 11 = x.ctl.toNat / 2 ^ 11 ∧ z.depths = x.depths ∧ (∀ j, z.count j = 0) ∧ z.top = 0 ∧ z.used = 0 ∧ z.hcount = 0 ∧
      z.hseq = 0 ∧ (∀ n, n < 0x2000 → Mem.read (r.2.core m.1).mem (m.2 * 0x2000 + n) = 0) ∧
      ∀ n, n < 128 → LegMap.read (r.2.core m.1).leg (m.2 * 128 + n) = 0) ∧
    (∀ c a, (∀ m ∈ ms.drop 1, m.1 = c → m.2 ≠ a / 0x2000) → Mem.read (r.2.core c).mem a = Mem.read (s.core c).mem a ∧
      LegMap.read (r.2.core c).leg (a / 64) = LegMap.read (s.core c).leg (a / 64)) ∧
    ∀ tm, s.teamOnCore mc = some tm → (∀ m ∈ ms, (tm.memberAt m.1).isSome = true) → r.2.members mc mb = ms) ∧
  ∀ (o : Op) (s : State) (c k mc mb off : Nat) (a b n : BitVec 64), s.calm c k → s.runs 0xB1 o →
    let e := a + o.i18.signExtend 64
    let home := (s.homeOf c k).1
    let lo := b.toNat % 2 ^ 17
    let word (i : Nat) := Mem.word (s.core home).mem (lo + 8 * i) 8
    let windows := [0xFC, 0xFD, 0xFE]
    rdReg o.a s = .ok (a, s) → rdReg o.b s = .ok (b, s) → rdX (regNum o.d) s = .ok (n, s) →
    e.toNat / 2 ^ 56 ∈ windows → s.locate c k e.toNat 1 = some (.loc s.ownDev mc off 1) → off / 0x2000 = mb →
    s.ownOffset c k b.toNat (8 * n.toNat) = some lo → lo % 8 = 0 → 2 ≤ n.toNat → n.toNat ≤ 16 →
    (∀ x, x < 8 * n.toNat → s.noList home ((lo + x) / 0x2000) = false) →
    (∀ ms : List (Nat × Nat), mc = c → ms.length = n.toNat → ms[0]? = some (c, mb) → ms.Nodup →
      (∀ i m, ms[i]? = some m → word i / 2 ^ 56 ∈ windows ∧
        (∃ x, x < 0x2000 ∧ s.locate c k (word i) 1 = some (.loc s.ownDev m.1 (m.2 * 0x2000 + x) 1)) ∧
        (s.bank m.1 m.2).spanned = false ∧ s.isMailbox m.1 m.2 = false ∧ clusterOf m.1 = clusterOf c ∧
        ((s.teamOf c k).bind (fun t => t.memberAt m.1)).isSome = true ∧ (s.core m.1).bankBusy m.1 s.ownDev m.2 = false) →
      (s.bank c mb).pers ≠ 4 → ¬ ((s.bank c mb).pers = 1 ∧ (s.bank c mb).subq ≠ 0) → ((s.slot c k).km = true ∨ home = c) →
      exec (.bspan o) s = .next (((s.compose c mb ms).2.modSlot c k
        (·.bankResult (regNum o.d) (regNum o.c) false false { d := BitVec.ofNat 64 (s.compose c mb ms).1 })).finish o.len)) ∧
    (mc ≠ c → ∃ (t : State) (p : Packet) (rid : Nat) (undo : Popped), exec (.bspan o) s = .next t ∧ t.net = s.net ++ [p] ∧
      p.core = mc ∧ p.dev = s.ownDev ∧ p.src = (c, k) ∧
      p.body = .bspan rid e ((List.range n.toNat).map (fun i => s.spanName c k (word i))) (s.slot c k).km (mc == home) off ∧
      (t.slot c k).pend = some (.bank rid (regNum o.d) (regNum o.c) false (lenBytes o.len) undo) ∧ s.sameMemory t)

/-- R127, R134, R152. A bank operation or BSPAN that reaches its bank is performed there as one operation and answered; the answer
writes D and C and completes the instruction. -/
def Obligations.RemoteBankOperations : Prop :=
  (∀ (s s1 : State) (i rid code off : Nat) (p : Packet) (addr din bv : BitVec 64) (wide detach km own : Bool) (vdata : BitVec 256) (r : BankRes),
    s.packetAt i = some p → p.body = .bank rid code addr din bv wide vdata detach km own off → s.mayArrive i p = true →
    p.dev = s.ownDev → s.isLost p.dev = false → s.bankHeld p.core (off / 0x2000) = false →
    (code = 0xB0 → (s.core p.core).bankBusy p.core s.ownDev (off / 0x2000) = false ∧
      s.lanesAt p.core (off / 0x2000) (fun j x => j < i || x.src.1 != p.src.1) (fun _ => true) = false) →
    s.bankPerform { core := p.core, bank := off / 0x2000, off := off % 0x2000, code, addr, din, bv, wide, vdata := vdata.toNat, detach, km, own } = .ok (r, s1) →
    ∃ (t : State) (q : Packet), exec (.remoteBankOpArrival i) s = .next t ∧ t.net = ldel s1.net i ++ [q] ∧ q.core = p.src.1 ∧ q.slot = p.src.2 ∧
      q.body = .bankReply rid (.ok (if r.keepD then din else r.d, BitVec.ofNat 256 r.v, BitVec.ofNat 3 r.status, r.sat, r.latch)) ∧
      s1.sameMemory t) ∧
  (∀ (s : State) (i rid off : Nat) (p : Packet) (addr : BitVec 64) (names : List SpanName) (km own : Bool) (ms : List (Nat × Nat)),
    s.packetAt i = some p → p.body = .bspan rid addr names km own off → s.mayArrive i p = true →
    s.spanCheck (s.teamOf p.src.1 p.src.2) p.core (off / 0x2000) names addr km own = .ok ms → s.spanHeld ms = false →
    let r := s.compose p.core (off / 0x2000) ms
    ∃ (t : State) (q : Packet), exec (.remoteBankOpArrival i) s = .next t ∧ t.net = ldel r.2.net i ++ [q] ∧ q.core = p.src.1 ∧ q.slot = p.src.2 ∧
      q.body = .bankReply rid (.ok (BitVec.ofNat 64 r.1, 0, 0, false, [])) ∧ t.cores = r.2.cores) ∧
  (∀ (s : State) (i rid d cc len : Nat) (p : Packet) (dv : BitVec 64) (v : BitVec 256) (st : BitVec 3) (undo : Popped),
    s.packetAt i = some p → p.body = .bankReply rid (.ok (dv, v, st, false, [])) → p.slot < 4 →
    (s.slot p.core p.slot).pend = some (.bank rid d cc false len undo) → d < 32 → cc < 32 → d ≠ cc →
    ∃ t : State, exec (.bankOpReply i) s = .next t ∧ t.net = ldel s.net i ∧ (t.slot p.core p.slot).status = .ready ∧
      (t.slot p.core p.slot).thr.getX d = (if d = 0 then 0 else dv) ∧
      (t.slot p.core p.slot).thr.getX cc = (if cc = 0 then 0 else st.setWidth 64) ∧
      (t.slot p.core p.slot).thr.pc = (s.slot p.core p.slot).thr.pc + BitVec.ofNat 64 len ∧ s.sameMemory t)

/-! ### Messages -/

/-- R185, R186, R194, R195, R204. SEND puts its message into a retry entry of its actor's NI, counts it against the
handler's limit, and goes on: the NI's list has this entry more, after the others or, with `.rt`, before those held behind a returned
message; that a plain message to a channel whose `.nr` message was returned is not held where none is held there is the model's choice
(DESIGN CHOICE, log entry 19). A bad address raises RIGHTS and a spent limit RATE, with nothing sent. R195, R200, R201. An entry that
may be launched leaves as a packet to the actor its address names now, and stays in the list, in flight, as long as before; one whose
back-off is over and that is the oldest to its channel leaves again with RETRY = 1. -/
def Obligations.MessagesLeave : Prop :=
  (∀ (o : Op) (s s1 : State) (c k : Nat) (a : BitVec 64) (payload : BitVec 256), s.cur = .slot c k → k < 4 → s.runs 0xC0 o →
    rdReg o.a s = .ok (a, s) → sendPayload o s = .ok (payload, s1) →
    let h := s1.homeOf c k
    let sl := s1.slot c k
    let ok := s1.addressOk (((s1.teamOf c k).map Team.size).getD 0) a.toNat
    let limit := match sl.firing with | some (.handler ch) => htabLimit (vget 0 sl.act.htab ch) | _ => 15
    h.2 < 4 →
    (ok = true → (limit = 15 ∨ sl.sent ≠ limit) → (s1.slot h.1 h.2).ni.length < 16 →
      ∃ (t : State) (e : NiEntry), exec (.send o) s = .next t ∧ (t.slot h.1 h.2).ni = insertEntry ((s1.slot h.1 h.2).returned.contains e.channel) (s1.slot h.1 h.2).ni e ∧
        (t.slot h.1 h.2).ni.length = (s1.slot h.1 h.2).ni.length + 1 ∧
        (∃ x ∈ (t.slot h.1 h.2).ni, { x with behindReturn := false } = e) ∧ e.addr = a ∧
        e.msg.payload = payload ∧ e.msg.dest = a.setWidth 28 ∧ e.msg.source = s1.physActor h.1 h.2 ∧ e.msg.retry = false ∧
        e.msg.dom = s1.checkDom c k ∧ e.release = !o.m.getLsbD 1 ∧ e.nr = o.m.getLsbD 2 ∧ e.bypass = o.m.getLsbD 3 ∧
        (t.slot c k).sent = sl.sent + 1 ∧ (t.slot c k).thr = { sl.thr with pc := sl.thr.pc + BitVec.ofNat 64 (lenBytes o.len) } ∧
        s1.sameMemory t) ∧
    (ok = false → exec (.send o) s = .next (s.trapCur .rights a)) ∧
    (ok = true → limit ≠ 15 → sl.sent = limit → exec (.send o) s = .next (s.trapCur .rate a))) ∧
  (∀ (s : State) (u n dev core slot ch : Nat) (e : NiEntry), u < 16384 → (s.niOf u)[n]? = some e →
    s.resolveActor e.team e.addr.toNat = some (dev, core, slot, ch) → (e.release = true → s.storesBefore (u / 4, u % 4) e.upTo = false) →
    let sent (i : Instr) (retry : Bool) : Prop :=
      ∃ (t : State) (p : Packet), exec i s = .next t ∧ t.net = s.net ++ [p] ∧ p.body = .msg (s.attempt e.msg retry) e.id ∧ p.unit = u ∧ p.dev = dev ∧
        p.core = core ∧ p.slot = slot ∧ (∀ x ∈ t.niOf u, x.id = e.id → x.st = .flying) ∧
        (t.niOf u)[n]?.map (·.id) = some e.id ∧ (t.niOf u).length = (s.niOf u).length ∧ s.sameMemory t
    (e.st = .release → s.mayLaunch u e = true → sent (.sendLaunch u n) e.bypass) ∧
    (e.st = .backoff 0 → (s.slot (u / 4) (u % 4)).dying = false → e.behindReturn = false → (s.niOf u).find? (fun x => x.sameKey e && !x.isReturning) = some e →
      sent (.retryBackoffExpiry u n) true))

/-- R198, R199. The decision at a mailbox: the answer, and what becomes of the mailbox and of its set of refused senders. -/
def Obligations.MailboxDecision : Prop :=
  ∀ (s : State) (i entry : Nat) (p : Packet) (m : Msg) (id : Ident) (tm : Team), s.packetAt i = some p → p.body = .msg m entry →
    s.msgBehind i p = false → s.isLost p.dev = false → p.dev = s.ownDev → m.dest.getLsbD 27 = false → p.slot < 4 →
    let sl := s.slot p.core p.slot
    let ch := m.dest.toNat % 16
    let mb := sl.act.mbox.toNat
    let x := s.bank p.core mb
    let who := (s.ownDev, p.src.1, p.src.2, ch)
    let known := sl.refused.contains who
    let full := x.depth ch ≤ x.count ch + (s.core p.core).reservedChan mb ch
    let answered (reason : Nat) (f : State → Prop) : Prop :=
      ∃ (t : State) (q : Packet), exec (.messageArrival i) s = .next t ∧ t.net = ldel s.net i ++ [q] ∧ q.body = .answer entry reason ∧
        q.unit = p.unit ∧ q.core = p.src.1 ∧ q.slot = p.src.2 ∧ f t
    let same (t : State) : Prop := s.sameMemory t ∧ t.bank p.core mb = x
    sl.away = none → sl.ident = some id → sl.guest = none → s.team id.team = some tm → tm.st ≠ .ended →
    (s.maySend m.dom tm.domain = false → answered 5 same) ∧
    (s.maySend m.dom tm.domain = true →
      ((known || sl.ovf.getLsbD ch) = true → m.retry = false →
        answered 2 (fun t => same t ∧ (t.slot p.core p.slot).refused = sl.refused)) ∧
      (((known || sl.ovf.getLsbD ch) = false ∨ m.retry = true) →
        (full → answered 1 (fun t => same t ∧ (t.slot p.core p.slot).refused =
          (if known || 8 ≤ sl.refused.length then sl.refused else sl.refused ++ [who]) ∧
          ((!known && decide (8 ≤ sl.refused.length)) = true → (t.slot p.core p.slot).ovf.getLsbD ch = true))) ∧
        (¬ full → known = false → 8 ≤ sl.refused.length → answered 1 (fun t => same t ∧ (t.slot p.core p.slot).refused = sl.refused ∧
          (t.slot p.core p.slot).ovf.getLsbD ch = true)) ∧
        (¬ full → (known = true ∨ sl.refused.length < 8) → s.soundQueue p.core mb ch → x.esz = 32 →
          answered 0 (fun t => t.queueList p.core mb ch = s.queueList p.core mb ch ++ [m.payload.toNat] ∧
            (t.slot p.core p.slot).refused = sl.refused.filter (· != who)))))

/-- R201, R202. An accepted message frees its entry. A refused one waits its back-off, doubled with each refusal; a returned
one is placed on channel 15 of its sender and counted in RETURNS. -/
def Obligations.AnswersAndReturns : Prop :=
  (∀ (s : State) (i entry u : Nat) (p : Packet) (e : NiEntry) (reason : Nat), u < 16384 → s.packetAt i = some p → p.body = .answer entry reason →
    p.unit = u → s.answerBehind i p = false → (s.niOf u).find? (fun x => x.id == entry) = some e → e.card = none →
    (reason = 0 → ∃ t : State, exec (.messageAnswer i) s = .next t ∧ ∀ x ∈ t.niOf u, x.id ≠ entry) ∧
    (reason = 1 → e.nr = false → e.tries < 15 → e.behindReturn = false →
      ((s.niOf u).takeWhile (fun x => x.id != entry)).any (fun x => x.sameKey e && !x.isReturning) = false →
      ∃ (t : State) (x : NiEntry), exec (.messageAnswer i) s = .next t ∧ x ∈ t.niOf u ∧ x.id = entry ∧ x.refusals = e.refusals + 1 ∧
        x.tries = e.tries + 1 ∧ x.st = .backoff (min (max 1 (s.slot (u / 4) (u % 4)).act.backoff.toNat * 2 ^ e.refusals) 65536))) ∧
  (∀ (s : State) (u n reason : Nat) (e : NiEntry), u < 16384 → (s.niOf u)[n]? = some e → e.st = .returning reason → e.card = none →
    ((s.niOf u).take n).any (·.isReturning) = false →
    let c := u / 4
    let k := u % 4
    let sl := s.slot c k
    let mb := sl.act.mbox.toNat
    sl.guest = none → sl.ident.map (·.team) = e.team → (s.bank c mb).count 15 + (s.core c).reservedChan mb 15 < (s.bank c mb).depth 15 →
    s.soundQueue c mb 15 →
    (s.bank c mb).esz = 32 →
    ∃ t : State, exec (.returnDelivery u n) s = .next t ∧ t.queueList c mb 15 = s.queueList c mb 15 ++ [e.msg.payload.toNat] ∧
      (t.slot c k).act.returns = (if sl.act.returns = 255 then 255 else sl.act.returns + 1) ∧ ∀ x ∈ t.niOf u, x.id ≠ e.id)

/-- R206-R208. The channel and handler instructions, at their actor's own core, and DONE. -/
def Obligations.ChannelsAndHandlers : Prop :=
  ∀ (o : Op) (s t : State) (c k : Nat) (a b : BitVec 64), s.cur = .slot c k → k < 4 → s.isGuest = false → s.thread.guardBit o = true →
    let sl := s.slot c k
    let mb := sl.act.mbox.toNat
    let x := s.bank c mb
    let ch := i18f o 3 0
    let mask : BitVec 16 := o.i18.setWidth 16 ||| a.setWidth 16
    (∀ form ∈ [(0, BitVec.ofNat 64 (x.count ch)), (1, s.headHeader c mb ch), (2, BitVec.ofNat 64 (x.depth ch)),
        (3, BitVec.ofNat 64 ((sl.refused.filter (fun e => e.2.2.2 == ch)).length + 16 * (sl.ovf.getLsbD ch).toNat))],
      s.mayRun 0xC1 = true → i18f o 5 4 = form.1 → dstX o.d form.2 s = .ok ((), t) → exec (.chcnt o) s = .next (t.finish o.len)) ∧
    (s.mayRun 0xC2 = true → rdReg o.b s = .ok (b, s) →
      let n := min b.toNat (x.count ch)
      dstX o.d (BitVec.ofNat 64 n) (s.modBank c mb (·.dropHead ch n)) = .ok ((), t) → exec (.chdrop o) s = .next (t.finish o.len)) ∧
    (∀ e ∈ [(Instr.hen, 0xC3, { sl.act with en := sl.act.en ||| mask }), (Instr.hdis, 0xC4, { sl.act with en := sl.act.en &&& ~~~mask }),
        (Instr.hset, 0xC5, { sl.act with soft := sl.act.soft ||| mask })],
      s.mayRun e.2.1 = true → rdReg o.a s = .ok (a, s) →
      ∃ u : State, exec (e.1 o) s = .next u ∧ (u.slot c k).act = e.2.2 ∧ (u.slot c k).regs = sl.regs ∧
        (u.slot c k).firing = sl.firing ∧ (u.slot c k).status = sl.status ∧
        u.thread = { s.thread with pc := s.thread.pc + BitVec.ofNat 64 (lenBytes o.len) } ∧ s.sameMemory u ∧ s.sameRest u) ∧
    (s.mayRun 0xC6 = true → sl.firing.isSome = true →
      ∃ u : State, exec (.done o) s = .next u ∧ (u.slot c k).firing = none ∧ (u.slot c k).status = .waiting ∧ (u.slot c k).km = false ∧
        (u.slot c k).thr = sl.thr ∧ (u.slot c k).act = sl.act ∧ s.sameMemory u) ∧
    (s.mayRun 0xC6 = true → sl.firing = none → exec (.done o) s = .next (s.trapCur .illegal (packWord0 0xC6 o)))

/-! ### Firings, the issue port and what a slot does between instructions -/

/-- R31, R191. The start of a handler's firing: its registers, its entry, and its soft bit cleared. -/
def Obligations.FiringStarts : Prop :=
  ∀ (s : State) (c k ch : Nat), k < 4 → ch < 16 →
    let sl := s.slot c k
    let entry := sl.act.acode + BitVec.ofNat 64 ((vget 0 sl.act.htab ch).toNat / 2 ^ 32)
    sl.status = .waiting → sl.haltReq = false → sl.halted = false → sl.stealAt = none → s.selectHandler c k = some ch → entry.toNat % 4 = 0 →
    ∃ t : State, exec (.firingStart c k) s = .next t ∧
      let u := t.slot c k
      u.firing = some (.handler ch) ∧ u.status = .ready ∧ u.km = false ∧ u.thr.pc = entry ∧
      u.thr.getX 3 = sl.act.abase ∧ u.thr.getX 4 = headerSource (s.headHeader c sl.act.mbox.toNat ch) ∧
      u.thr.getX 5 = BitVec.ofNat 64 ch ∧ (∀ n, n ≠ 3 → n ≠ 4 → n ≠ 5 → u.thr.getX n = 0) ∧
      (∀ n, u.thr.getP n = if n = 0 then BitVec.allOnes 32 else 0) ∧ (∀ n, vget 0 u.v n = 0) ∧
      u.thr.rm = sl.thr.rm ∧ u.thr.flags = sl.thr.flags ∧ u.regs.bst = 0 ∧ u.regs.livev = 0 ∧ u.regs.barpend = 0 ∧
      u.act.returns = 0 ∧ u.act.soft = sl.act.soft &&& ~~~((1 : BitVec 16) <<< ch) ∧ u.act.en = sl.act.en ∧ s.sameMemory t

/-- R190, R191. The selected handler is pending; no pending handler was passed over 16 times unless it is the lowest
such, and otherwise none has a higher priority, nor an equal one with a lower channel. R17. FORCED_ISSUE grants the
issue to the slot that the forced rule chooses; the choice is of a slot READY for 60 cycles where there is one, else
of a READY slot with the highest key. -/
def Obligations.Selection : Prop :=
  (∀ (s : State) (c k ch : Nat), s.selectHandler c k = some ch →
    let sl := s.slot c k
    let prio (j : Nat) := (vget 0 sl.act.htab j).toNat % 8
    let late (j : Nat) := 16 ≤ aget 0 sl.passed j
    s.pendingBit c k ch = true ∧ ch < 16 ∧
    (∀ j, j < 16 → s.pendingBit c k j = true → late j → late ch ∧ ch ≤ j) ∧
    (¬ late ch → ∀ j, j < 16 → s.pendingBit c k j = true → prio j < prio ch ∨ (prio j = prio ch ∧ ch ≤ j))) ∧
  ((∀ (s : State) (c k : Nat), (s.core c).forced = some k → (s.core c).issued = none →
    exec (.forcedIssue c) s = .next { s with cur := .slot c k, granted := true }) ∧
  (∀ (x : Core) (k : Nat), x.forced = some k → x.pickable k = true ∧ 60 ≤ (x.slot k).readyFor ∧ x.choose = some k) ∧
  (∀ (x : Core) (k : Nat), x.forced = none → x.choose = some k →
    x.pickable k = true ∧ ∀ j, j < 4 → x.pickable j = true → (x.slot j).key ≤ (x.slot k).key))

/-- R25, R214, R339, R346. QSTALL, a vector wake, STOREFAULT and a PC sample. -/
def Obligations.SlotEvents : Prop :=
  ∀ (s : State) (c k : Nat), k < 4 →
    let sl := s.slot c k
    (∀ sp, sl.blockedOn = some sp → sl.qstallDue = true → sl.guest = none → sl.doubleFault sl.thr.pc = false →
      ∃ t : State, exec (.qstall c k) s = .next t ∧ (t.slot c k).regs = { sl.regs with xpc := sl.thr.pc, xcause := 11, xval := BitVec.ofNat 64 sp, prevk := sl.km, infiring := sl.firing.isSome } ∧
        (t.slot c k).km = true ∧ (t.slot c k).thr = { sl.thr with pc := sl.regs.kvec } ∧ s.sameMemory t) ∧
    (∀ g, g < 4 → sl.status = .stalled (.vwake g) → sl.regs.vuseN.toNat < g →
      ∃ t : State, exec (.vectorWake c k) s = .next t ∧ (t.slot c k).regs.vuseN = BitVec.ofNat 2 g ∧ (t.slot c k).status = .ready ∧
        (t.slot c k).v = sl.v ∧
        (t.slot c k).regs.vwake = (sl.regs.vwake || (List.range 4).any (fun j => decide (sl.regs.vuseN.toNat < j) && decide (j ≤ g) && sl.regs.vlost.getLsbD j)) ∧
        s.sameMemory t) ∧
    (∀ r, sl.sfrq[sl.sfReported]? = some r → sl.status = .ready → sl.draining = false → sl.killed = false → sl.halted = false →
      sl.awayAt = none → sl.guest = none → sl.doubleFault sl.thr.pc = false →
      ∃ t : State, exec (.storefault c k) s = .next t ∧ (t.slot c k).regs = { sl.regs with xpc := sl.thr.pc, xcause := 0x106, xval := r.addr, prevk := sl.km, infiring := sl.firing.isSome } ∧
        (t.slot c k).sfReported = sl.sfrq.length ∧ (t.slot c k).sfrq = sl.sfrq ∧ (t.slot c k).km = true) ∧
    (let x := (s.core c).samp
     x.period ≠ 0 → x.period.toNat ≤ x.count → x.slots = (1 : BitVec 4) <<< k → x.trace = false → x.ring.length < 256 → sl.status = .ready →
      ∃ (t : State) (r : SampRec), exec (.pcSample c) s = .next t ∧ (t.core c).samp.ring = x.ring ++ [r] ∧ r.pc = sl.thr.pc ∧ (t.core c).samp.count = 0 ∧
        (t.core c).samp.lost = x.lost ∧ s.sameMemory t)

/-! ### Tasks and barriers -/

/-- R209-R211, R213. FORK pushes the record onto the core's deque, or writes 1 to C when it is full; a WAITING worker takes
the entry pushed last of its own core, or the one there that its pop waits for once that is ready, or the oldest entry of a victim,
over links that carry traffic. -/
def Obligations.TasksPushAndTake : Prop :=
  (∀ (o : Op) (s : State) (c k : Nat) (a b : BitVec 64), s.calm c k → s.isGuest = false → s.runs 0xC7 o → rdReg o.a s = .ok (a, s) →
    rdReg o.b s = .ok (b, s) → claimX (regNum o.c) s = .ok ((), s) →
    let off := a.toNat % 2 ^ 17
    s.ownOffset c k a.toNat 32 = some off → a.toNat % 8 = 0 → s.plainBanks c off 32 = true →
    (64 ≤ (s.core c).deque.length → ∃ t : State, exec (.fork o) s = .next t ∧ (t.core c).deque = (s.core c).deque ∧
      t.thread.getX (regNum o.c) = (if regNum o.c = 0 then 0 else 1)) ∧
    ((s.core c).deque.length < 64 → bytesToNat (s.localRead c off 8) < 2 ^ 32 →
      ∃ (t : State) (x : Machine.Task), exec (.fork o) s = .next t ∧ (t.core c).deque = (s.core c).deque ++ [x] ∧ t.thread.getX (regNum o.c) = 0 ∧
        x.entry = bytesBv 64 (s.localRead c off 8) ∧ x.args.1 = bytesBv 64 (s.localRead c (off + 8) 8) ∧
        x.args.2.1 = bytesBv 64 (s.localRead c (off + 16) 8) ∧ x.args.2.2 = bytesBv 64 (s.localRead c (off + 24) 8) ∧
        x.join = b ∧ x.forker = s.forkerOf c k ∧ s.sameMemory t)) ∧
  (∀ (s : State) (c k : Nat), k < 4 → (s.slot c k).status = .waiting → (s.slot c k).haltReq = false → (s.slot c k).act.worker = true →
    s.pendingHandlers c k = [] → (s.slot c k).stealAt = none →
    let started (x : Machine.Task) (t : State) : Prop :=
      let u := t.slot c k
      u.firing = some .task ∧ u.thr.pc = (s.slot c k).act.acode + x.entry ∧ u.thr.getX 3 = (s.slot c k).act.abase ∧
      u.thr.getX 4 = x.forker ∧ u.thr.getX 5 = 16 ∧ u.thr.getX 10 = x.args.1 ∧ u.thr.getX 11 = x.args.2.1 ∧
      u.thr.getX 12 = x.args.2.2 ∧ u.thr.getX 13 = x.join
    (∀ x, (s.slot c k).taskWait = some x → x ∈ (s.core c).deque → s.taskReady x = true →
      ((s.slot c k).act.acode + x.entry).toNat % 4 = 0 →
      ∃ t : State, exec (.taskTake c k) s = .next t ∧ (t.core c).deque = ((s.core c).deque.reverse.erase x).reverse ∧ started x t) ∧
    (∀ x, (s.slot c k).taskWait = none → (s.core c).deque.getLast? = some x → s.taskReady x = true → ((s.slot c k).act.acode + x.entry).toNat % 4 = 0 →
      ∃ t : State, exec (.taskTake c k) s = .next t ∧ (t.core c).deque = (s.core c).deque.dropLast ∧ started x t) ∧
    (∀ v vs x xs, (s.core c).deque = [] → (s.slot c k).roundLeft = none → roundFrom (s.victims c k) (s.slot c k).lastVictim = v :: vs →
      v ≠ c → s.stacksJoined (coreStack c) (coreStack v) = true → (s.core v).deque = x :: xs → s.taskReady x = true → ((s.slot c k).act.acode + x.entry).toNat % 4 = 0 →
      ∃ t : State, exec (.taskTake c k) s = .next t ∧ (t.core v).deque = xs ∧ (t.slot c k).lastVictim = some v ∧ started x t)) ∧
  (∀ (s : State) (c k : Nat), k < 4 → (s.slot c k).roundLeft = some [] →
    ((s.slot c k).stealWait = 0 → ∃ t : State, exec (.stealWaitExpiry c k) s = .next t ∧ (t.slot c k).roundLeft = none) ∧
    ((s.slot c k).stealWait ≠ 0 → exec (.stealWaitExpiry c k) s = .next s))

/-- R212. TEND with a zero address ends the firing. Otherwise it takes one from the join record's count; an old count other
than 1 ends the firing; with an old count of 1 a continuation of zero does too. -/
def Obligations.TaskEnds : Prop :=
  (∀ (o : Op) (s : State) (c k : Nat), s.cur = .slot c k → k < 4 → s.isGuest = false → s.runs 0xC8 o → rdReg o.a s = .ok (0, s) →
    ∃ t : State, exec (.tend o) s = .next t ∧ (t.slot c k).firing = none ∧ (t.slot c k).status = .waiting ∧ s.sameMemory t) ∧
  (∀ (o : Op) (s : State) (c k off : Nat) (a : BitVec 64), s.calm c k → s.isGuest = false → s.runs 0xC8 o → rdReg o.a s = .ok (a, s) →
    a ≠ 0 → a.toNat % 8 = 0 → s.locate c k a.toNat 8 = some (.loc s.ownDev c off 8) → s.plainArray c off 8 → s.noAtomic c off = false →
    let old := bytesToNat (s.localRead c off 8)
    old ≠ 1 →
    ∃ t : State, exec (.tend o) s = .next t ∧ s.wroteLocal t c off ((natToBytes 8 (BitVec.ofNat 64 old - 1).toNat).map some) ∧
      (t.slot c k).firing = none ∧ (t.slot c k).status = .waiting) ∧
  (∀ (s : State) (i rid : Nat) (p : Packet) (a old : BitVec 64), s.packetAt i = some p → p.body = .tendReply rid (.ok old) → p.slot < 4 →
    (s.slot p.core p.slot).pend = some (.tend rid a) → (s.slot p.core p.slot).guest = none → old ≠ 1 →
    ∃ t : State, exec (.tendDecrementReply i) s = .next t ∧ t.net = ldel s.net i ∧ (t.slot p.core p.slot).firing = none ∧
      (t.slot p.core p.slot).status = .waiting ∧ (t.slot p.core p.slot).pend = none ∧ s.sameMemory t)

/-- R225-R228, R231. Arrival at a barrier, the wait for an instance, its completion, and SELF. While the links to the barrier of the
entry carry no traffic (R382) an arrival waits. -/
def Obligations.Barriers : Prop :=
  ∀ (o : Op) (s t : State) (c k e : Nat) (tm : Team) (id : Ident) (a : BitVec 64), s.cur = .slot c k → k < 4 → s.thread.guardBit o = true →
    s.teamOf c k = some tm → (s.slot c k).ident = some id →
    let sl := s.slot c k
    let g := i18f o 1 0
    let me := (id.member, id.slot)
    let n := (tm.entry e).phase
    let arrives (u : State) : Prop := ∃ tm' : Team, u.team tm.handle = some tm' ∧ (tm'.entry e).arrived = (tm.entry e).arrived ++ [me] ∧ (tm'.entry e).phase = n
    (sl.regs.groupEntry g = some e → e < tm.ngroup → (tm.entry e).arrived.contains me = false → s.hubJoined tm e c = false → sl.comb = [] →
      sl.sq = [] → sl.unacked = [] → s.mayRun 0xCA = true → exec (.bara o) s = .next (s.stallCur .barrier)) ∧
    (sl.regs.groupEntry g = some e → e < tm.ngroup → e < tm.gaz.length → s.hubJoined tm e c = true →
      ((tm.entry e).arrived.contains me = false → sl.comb = [] → sl.sq = [] → sl.unacked = [] →
        (∀ r : Fin 32, s.mayRun 0xCA = true → o.d = .reg r → sl.owed = [] →
          ∃ u : State, exec (.bara o) s = .next u ∧ arrives u ∧ u.thread.getX r.val = (if r.val = 0 then 0 else n.setWidth 64) ∧ u.thread.pc = s.thread.pc + BitVec.ofNat 64 (lenBytes o.len)) ∧
        (s.mayRun 0xC9 = true → sl.regs.barpend = 0 →
          ∃ u : State, exec (.bar o) s = .next u ∧ arrives u ∧ (u.slot c k).regs.barpend = barpendOf g n ∧ (u.slot c k).status = .stalled .barrier)) ∧
      (s.mayRun 0xC9 = true → sl.regs.barpend.getLsbD 34 = true → bitsOf sl.regs.barpend.toNat 33 32 = g →
        instanceDone n (sl.regs.barpend.setWidth 32) = true →
        ∃ u : State, exec (.bar o) s = .next u ∧ (u.slot c k).regs = { sl.regs with barpend := 0 } ∧ u.thread.pc = s.thread.pc + BitVec.ofNat 64 (lenBytes o.len) ∧ u.teams = s.teams) ∧
      (s.mayRun 0xCB = true → rdReg o.a s = .ok (a, s) →
        (instanceDone n (a.setWidth 32) = true → exec (.barw o) s = .next (s.finish o.len)) ∧
        (instanceDone n (a.setWidth 32) = false → exec (.barw o) s = .next (s.stallCur .barrier)))) ∧
    (tm.allArrived e = true → e < tm.gaz.length →
      ∃ (u : State) (tm' : Team), exec (.barrierComplete tm.handle e) s = .next u ∧ u.team tm.handle = some tm' ∧ (tm'.entry e).phase = n + 1 ∧ (tm'.entry e).arrived = []) ∧
    (∀ form ∈ [(0, BitVec.ofNat 64 id.member), (1, BitVec.ofNat 64 tm.size), (2, BitVec.ofNat 64 (tm.coordOf id.member)),
        (3, (trActor id.member id.slot).setWidth 64)],
      s.mayRun 0xCC = true → g = form.1 → dstX o.d form.2 s = .ok ((), t) → exec (.self o) s = .next (t.finish o.len))

/-! ### The matrix unit -/

/-- R160-R178. Where the unit is owned and has room, each matrix instruction enters the queue what it captured at issue; MGEMM
loads MSEQ; MSYNC and MSTAT. -/
def Obligations.MatrixIssue : Prop :=
  ∀ (o : Op) (s t : State) (c k : Nat) (a st : BitVec 64), s.matrixReady c k → s.thread.guardBit o = true →
    let e := a + o.i18.signExtend 64
    let m := (s.core c).mu
    let regs : Prop := rdReg o.a s = .ok (a, s) ∧ rdReg o.b s = .ok (st, s)
    let aligned : Prop := e.toNat % 64 = 0 ∧ st.toNat % 64 = 0
    let b16 := s.tileMode c k e
    let row := if b16 then 128 else 64
    let stride := if st = 0 then BitVec.ofNat 64 row else st
    let issues (i : Instr) (kind : MKind) : Prop := ∃ u : State, exec i s = .next u ∧ s.queuedOp u c k o kind
    (∀ off, regs → aligned → s.rowOff c k (e, row) = some off →
      (s.mayRun 0xD0 = true → s.rowsSound c k (rowsFrom e stride 16 row) → s.legsSound c k (rowsFrom e stride 16 row) b16 →
        issues (.mlda o) (.lda off stride.toNat b16)) ∧
      (s.mayRun 0xD1 = true → (b16 = true → regNum o.d % 2 = 0) → s.rowsSound c k (rowsFrom e stride 64 row) →
        s.legsSound c k (rowsFrom e stride 64 row) b16 →
        issues (.mldb o) (.ldb (regNum o.d) (o.m.getLsbD 0) off stride.toNat b16))) ∧
    (∀ bo vo, s.mayRun 0xD2 = true → regs → st.toNat % 2 = 0 → e.toNat % 64 = 0 → s.rowOff c k (st, 2) = some bo →
      let b32 := o.m.getLsbD 0
      let side := if b32 then 32 else 16
      let bm := BitVec.ofNat 16 (Mem.word (s.core c).mem bo 2)
      let n := ((List.range (if b32 then 4 else 16)).filter (fun i => bm.getLsbD i)).length * side
      let vals := rowsFrom e (BitVec.ofNat 64 side) n side
      s.rowsSound c k ((st, 2) :: vals) →
      (∀ r ∈ vals, ∀ x, s.rowOff c k r = some x → x % 64 = 0 → legMode (LegMap.read (s.core c).leg (x / 64)) = some false) →
      (if n = 0 then vo = 0 else s.rowOff c k (e, side) = some vo) →
      issues (.mldbs o) (.ldbs (regNum o.d) b32 bm vo)) ∧
    (s.mayRun 0xD3 = true → issues (.mzero o) (.zero (regNum o.d))) ∧
    (s.mayRun 0xD4 = true → modeBad m.modes.1 m.modes.2 (regNum o.a) = false →
      issues (.mmul o) (.mul (regNum o.d) (regNum o.a))) ∧
    (s.mayRun 0xD5 = true → m.modes.1 = false → modeBad false m.modes.2 (regNum o.a) = false →
      issues (.mmuls o) (.muls (regNum o.d) (regNum o.a))) ∧
    (s.mayRun 0xD4 = true → modeBad m.modes.1 m.modes.2 (regNum o.a) = true → exec (.mmul o) s = .next (s.trapCur .format 0)) ∧
    (∀ off, s.mayRun 0xD6 = true → regs → a.toNat % 64 = 0 → st.toNat % 64 = 0 → regNum o.d < 4 →
      let stride := if st = 0 then (if s.tileMode c k a then 2048 else 1024) else st
      let steps := s.seqSteps c k a stride 0 (i18f o 12 8)
      s.rowOff c k (a, 1) = some off →
      s.rowsSound c k (steps.flatMap (fun x => x.2.2.2)) → (∀ x ∈ steps, s.legsSound c k x.2.2.2 x.2.2.1) →
      (∀ x ∈ steps, modeBad x.2.2.1 m.modes.2 (i18f o 7 0 / 2 ^ (2 * (x.1 % 4)) % 4) = false) →
      ∃ (u : State) (v : BitVec 64), exec (.mgemm o) s = .next u ∧ (u.core c).mu = { m with mseq := v, seqRange := (u.core c).mu.seqRange, seqFl := 0 } ∧
        mseqActive v = true ∧ mseqSlot v = k ∧ mseqRm v = s.thread.rm.toNat ∧ mseqAcc v = regNum o.d ∧
        mseqMacros v = i18f o 7 0 ∧ mseqLast v = i18f o 12 8 ∧ mseqNext v = 0 ∧ mseqHeld v = false ∧
        mseqStride v = stride.toNat % 2 ^ 17 ∧ mseqBase v = off ∧ s.sameMemory u) ∧
    (∀ dev core off, s.mayRun 0xD7 = true → regs → a.toNat % 64 = 0 →
      let total := 16 * (if o.t = 5 then 256 else if o.t = 6 then 128 else 64)
      s.locate c k a.toNat total = some (.loc dev core off total) →
      issues (.mdrain o) (.drain (regNum o.d) o.t.toNat (i18f o 7 0) (i18f o 8 8 == 1) a { dev, core, isLocal := true } st)) ∧
    (s.mayRun 0xD8 = true → issues (.mchain o) (.chain (i18f o 7 0) (i18f o 8 8 == 1))) ∧
    (∀ off, s.mayRun 0xD9 = true → regs → aligned → (st = 0 ∨ 256 ≤ st.toNat) →
      let stride := if st = 0 then 256 else st
      s.rowsSound c k (rowsFrom e stride 16 256) → s.rowOff c k (e, 256) = some off →
      issues (.mst o) (.st (regNum o.d) off stride.toNat)) ∧
    (s.mayRun 0xDA = true → (∀ x ∈ m.queue, x.slot ≠ k) → (∀ d ∈ (s.core c).drains, d.slot = k → d.left = 0) →
      exec (.msync o) s = .next (s.finish o.len)) ∧
    (∀ v, s.mayRun 0xDB = true → v.toNat < 2 ^ 32 → dstX o.d v s = .ok ((), t) →
      bitsOf v.toNat 15 12 = m.queue.length → bitsOf v.toNat 11 8 = 0 → bitsOf v.toNat 18 17 = 0 → v.getLsbD 19 = m.ab16 →
      (v.getLsbD 16 = true ↔ (∃ x ∈ m.queue, x.slot = k) ∨ ∃ d ∈ (s.core c).drains, d.slot = k ∧ d.left ≠ 0) →
      (∀ i, i < 4 → v.getLsbD (20 + i) = (vget {} m.tiles i).b16) →
      (∀ i, i < 4 → (v.getLsbD (28 + i) = true ↔ ∃ x ∈ m.queue, i ∈ x.kind.accs)) →
      (∀ i, i < 4 → (v.getLsbD (24 + i) = true ↔ ∃ (j : Nat) (x : MOp), m.queue[j]? = some x ∧
        i ∈ x.kind.macs ((m.queue.take j).foldl (fun y op => op.kind.modes y) (m.ab16, m.mb16)).2)) →
      bitsOf v.toNat 7 0 = min 255 ((m.queue.filter (fun x => match x.kind with | .drain .. => true | _ => false)).length +
        ((s.core c).drains.filter (fun d => d.left != 0)).length) →
      exec (.mstat o) s = .next (t.finish o.len))

/-- R163, R165, R167, R170-R177, R235. The oldest operation of the queue is performed: its effect on the row buffer, macros,
accumulators and memory, and its flags, which join FPCTL of the slot that issued it while its actor is there. MDRAIN sends its blocks,
converted to their format, and they are owed until they are acknowledged. A step of MGEMM is MLDA and MMUL, and its flags join FPCTL
with the last step; a held sequence restarts; a drain's blocks are written at their receiver, and its wake is sent. That NEXT wraps in
its 5 bits after step 31, and that a block counts as acknowledged when it arrives, are the model's choices (DESIGN CHOICE, log entry
26), and so is that a held sequence keeps its read range (DEDUCED, log entry 58). -/
def Obligations.MatrixEvents : Prop :=
  (∀ (s : State) (c : Nat) (op : MOp) (rest : List MOp), (s.core c).mu.queue = op :: rest →
    let m := (s.core c).mu
    let cell (a i j : Nat) : BitVec 32 := accElem (m.accOf a) i j
    let row (base stride i : Nat) := (base + i * stride) % 0x20000
    let doneFl (fl : Flags) (P : MatrixUnit → State → Prop) : Prop :=
      ∃ t : State, exec (.matrixOpComplete c) s = .next t ∧ (t.core c).mu.queue = rest ∧ P (t.core c).mu t ∧
        ∀ k, k < 4 → (t.slot c k).thr = (s.slot c k).thr.orFlags (if k = op.slot ∧ (s.slot c k).ident = op.ident then fl else 0)
    let done := doneFl 0
    (∀ base stride b16, op.kind = .lda base stride b16 → done (fun u t => u.ab16 = b16 ∧ u.acc = m.acc ∧ u.tiles = m.tiles ∧ s.sameMemory t ∧
      ∀ i j, i < 16 → j < 64 → lget fzero (lget [] u.arows i) j = s.tileElem c (row base stride i) b16 j)) ∧
    (∀ n tr base stride b16, n < 4 → (vget {} m.tiles (pairOf n)).b16 = (vget {} m.tiles n).b16 → op.kind = .ldb n tr base stride b16 → done (fun u _ => u.acc = m.acc ∧ u.arows = m.arows ∧
      (vget {} u.tiles n).b16 = b16 ∧ (vget {} u.tiles n).sparse = none ∧ (vget {} u.tiles (pairOf n)).b16 = b16 ∧
      ∀ i j, i < 64 → j < 64 → lget fzero (lget [] (vget {} u.tiles n).rows i) j =
        if tr then s.tileElem c (row base stride j) b16 i else s.tileElem c (row base stride i) b16 j)) ∧
    (∀ a, a < 4 → op.kind = .zero a → done (fun u _ => (∀ i j, accElem (u.accOf a) i j = 0) ∧ ∀ b, b ≠ a → u.accOf b = m.accOf b)) ∧
    (∀ n b32 bm base, n < 4 → op.kind = .ldbs n b32 bm base → done (fun u t => u.acc = m.acc ∧ u.arows = m.arows ∧ u.ab16 = m.ab16 ∧
      s.sameMemory t ∧ (vget {} u.tiles n).b16 = false ∧ (vget {} u.tiles n).sparse = some (bm, b32) ∧
      ∀ i j, i < 64 → j < 64 →
        let side := if b32 then 32 else 16
        let block := i / side * (64 / side) + j / side
        let rank := ((List.range block).filter (fun x => bm.getLsbD x)).length
        let at_ := base + rank * side * side + i % side * side + j % side
        lget fzero (lget [] (vget {} u.tiles n).rows i) j = if bm.getLsbD block then
          decodeElem (Mem.read (s.core c).mem at_).toNat (LegMap.read (s.core c).leg (at_ / 64)) else fzero)) ∧
    (∀ f sat, op.kind = .chain f sat →
      let row (i : Nat) := rowToB8 (cell 3 i) f op.rm.toNat sat
      doneFl ((List.range 16).foldl (fun g i => g ||| (row i).2.2) 0) (fun u t => u.acc = m.acc ∧ u.tiles = m.tiles ∧ u.ab16 = false ∧
        s.sameMemory t ∧ ∀ i j, i < 16 → j < 64 → lget fzero (lget [] u.arows i) j = decodeElem ((row i).1 j) (row i).2.1)) ∧
    (∀ a ty f sat dst tgt wake, a < 4 → op.kind = .drain a ty f sat dst tgt wake →
      let row (i : Nat) := drainRow ty (cell a i) f op.rm.toNat sat
      let z := if ty = 5 then 4 else if ty = 6 then 2 else 1
      let fl := (List.range 16).foldl (fun g i => g ||| (row i).2.2) 0
      doneFl fl (fun u t => u.acc = m.acc ∧ u.tiles = m.tiles ∧ u.arows = m.arows ∧ s.sameMemory t ∧
        ∃ (d : Drain) (blocks : List Packet), (t.core c).drains = (s.core c).drains ++ [d] ∧ d.slot = op.slot ∧ d.ident = op.ident ∧
          d.addr = dst ∧ d.wake = wake ∧ d.left = 16 * z ∧ d.fl = fl ∧ t.net = s.net ++ blocks ∧ blocks.length = 16 * z ∧
          ∀ i b, i < 16 → b < z → ∃ (p : Packet) (data : List Byte), blocks[i * z + b]? = some p ∧ p.src = (c, op.slot) ∧ p.dev = tgt.dev ∧
            p.core = tgt.core ∧ p.body = .drainBlock d.id (dst.toNat % 0x20000) (1024 * z) data (row i).2.1
              (dst.toNat % 0x20000 + 64 * (i * z + b)) ∧ data.length = 64 ∧
            ∀ j, j < 64 / z → (data.drop (z * j)).take z = natToBytes z ((row i).1 (b * (64 / z) + j)))) ∧
    (∀ a n, a < 4 → op.kind = .mul a n ∨ op.kind = .muls a n →
      doneFl (prodFlags (cell a) (fun i => lget fzero (lget [] m.arows i)) (fun j x => lget fzero (lget [] (vget {} m.tiles n).rows x) j) op.rm.toNat)
        (fun u t => u.arows = m.arows ∧ u.tiles = m.tiles ∧ s.sameMemory t ∧
      (∀ i j, i < 16 → j < 64 → (accElem (u.accOf a) i j).toNat = (prodElem (cell a i j) (lget fzero (lget [] m.arows i))
        (fun x => lget fzero (lget [] (vget {} m.tiles n).rows x) j) op.rm.toNat).1 % 2 ^ 32) ∧ ∀ b, b ≠ a → u.accOf b = m.accOf b)) ∧
    (∀ a base stride, op.kind = .st a base stride → base + 15 * stride + 256 ≤ 0x20000 → 256 ≤ stride → Memory.wf (s.core c).mem = true →
      done (fun _ t => (∀ i j, i < 16 → j < 64 → Mem.word (t.core c).mem (base + i * stride + 4 * j) 4 = (cell a i j).toNat) ∧
        (t.core c).leg = (s.core c).leg ∧
        ∀ x, (∀ i, i < 16 → x < base + i * stride ∨ base + i * stride + 256 ≤ x) → Mem.read (t.core c).mem x = Mem.read (s.core c).mem x))) ∧
  (∀ (s : State) (c : Nat), let m := (s.core c).mu
    let v := m.mseq
    mseqActive v = true → m.queue = [] →
    let n := mseqNext v
    let live := decide (n < mseqLast v)
    let sl := s.slot c (mseqSlot v)
    let asked := sl.haltReq
    let base := (mseqBase v + n * mseqStride v) % 0x20000
    let b16 := decide (legMode (LegMap.read (s.core c).leg (base / 64)) = some true)
    let a (i : Nat) := s.tileElem c ((base + i * (if b16 then 128 else 64)) % 0x20000) b16
    let b (j x : Nat) := lget fzero (lget [] (vget {} m.tiles (mseqMacros v / 2 ^ (2 * (n % 4)) % 4)).rows x) j
    let cell := accElem (m.accOf (mseqAcc v))
    let fl := m.seqFl ||| prodFlags cell a b (mseqRm v)
    ∃ t : State, exec (.mgemmStepComplete c) s = .next t ∧ mseqNext (t.core c).mu.mseq = (n + 1) % 32 ∧
      mseqActive (t.core c).mu.mseq = (live && !asked) ∧ mseqHeld (t.core c).mu.mseq = (live && asked) ∧ (t.core c).mu.tiles = m.tiles ∧
      (∀ i j, i < 16 → j < 64 → (accElem ((t.core c).mu.accOf (mseqAcc v)) i j).toNat = (prodElem (cell i j) (a i) (b j) (mseqRm v)).1 % 2 ^ 32) ∧
      (t.core c).mu.seqFl = (if live then fl else 0) ∧
      (t.slot c (mseqSlot v)).thr = sl.thr.orFlags (if !live && sl.ident.isSome then fl else 0) ∧
      (t.core c).ranges = (s.core c).ranges ∧ (live = true → (t.core c).mu.seqRange = m.seqRange) ∧ s.sameMemory t) ∧
  (∀ (s : State) (c : Nat), let m := (s.core c).mu
    let v := m.mseq
    let sl := s.slot c (mseqSlot v)
    m.due = true → mseqHeld v = true → mseqActive v = false → sl.status = .ready → sl.haltReq = false → sl.halted = false →
    (mseqLast v < mseqNext v → ∃ t : State, exec (.mgemmRestart c) s = .next t ∧ mseqHeld (t.core c).mu.mseq = false ∧
      mseqActive (t.core c).mu.mseq = false ∧ (t.core c).mu.acc = m.acc ∧ s.sameMemory t) ∧
    (∀ t, mseqNext v ≤ mseqLast v → s.restartSeq c v = .ok t → exec (.mgemmRestart c) s = .next t ∧
      mseqHeld (t.core c).mu.mseq = false ∧ mseqActive (t.core c).mu.mseq = true ∧ mseqNext (t.core c).mu.mseq = mseqNext v ∧
      (t.core c).mu.acc = m.acc ∧ s.sameMemory t ∧
      if (s.core c).ranges.any (fun r => some r.id == m.seqRange) then (t.core c).ranges = (s.core c).ranges ∧ (t.core c).mu.seqRange = m.seqRange
      else (t.core c).ranges.length = (s.core c).ranges.length + 1)) ∧
  (∀ (s : State) (i drain off total at_ : Nat) (p : Packet) (data : List Byte) (leg : Option Legend), s.packetAt i = some p →
    p.body = .drainBlock drain off total data leg at_ → p.dev = s.ownDev → (∀ q ∈ s.net.take i, q.isDrain = false) →
    (s.core p.core).ranges = [] → (s.bank p.core (at_ / 0x2000)).pers = 0 → (s.bank p.core (at_ / 0x2000)).spanned = false →
    Memory.wf (s.core p.core).mem = true →
    ∃ t : State, exec (.drainBlockArrival i) s = .next t ∧ t.net = ldel s.net i ∧
      (∀ x, Mem.read (t.core p.core).mem x = if at_ ≤ x ∧ x < at_ + data.length then lget 0 data (x - at_) else Mem.read (s.core p.core).mem x) ∧
      (leg = none → (t.core p.core).leg = (s.core p.core).leg) ∧
      (∃ r, (t.core p.core).ranges = [r] ∧ r.lo = off ∧ r.len = total ∧ r.write = true ∧ r.holder = .drain drain) ∧
      (t.core p.src.1).drains = (s.core p.src.1).drains.map (fun d => if d.id = drain then { d with left := d.left - 1 } else d)) ∧
  (∀ (s : State) (c n : Nat) (d : Drain), (s.core c).drains[n]? = some d → d.left = 0 → d.slot < 4 → (s.slot c d.slot).ident = d.ident →
    s.addressOk (((s.teamOf c d.slot).map Team.size).getD 0) d.wake.toNat = true → (s.slot c d.slot).ni.length < 16 →
    ∃ (t : State) (e : NiEntry), exec (.drainWake c n) s = .next t ∧ (t.core c).drains = ldel (s.core c).drains n ∧ e ∈ (t.slot c d.slot).ni ∧
      e.msg.dest = d.wake.setWidth 28 ∧ e.msg.wake = true ∧
      e.msg.payload = BitVec.ofNat 256 (d.addr.toNat + 2 ^ 64 * ((if d.discarded then 3 else 0) + 16 * d.fl.toNat)))

/-! ### Engines, gathers and streams -/

/-- R283-R287, R289-R292, R294. A JOB whose card passes its checks adds it to its cluster's scheduler; a card starts once
nothing holds it and enters its ranges; a COPY moves one of the blocks that it has left, which one is open (R287), with its legend;
the end of a card with none left sends its completion, with the first of its failures in region and then unit order. -/
def Obligations.Jobs : Prop :=
  (∀ (o : Op) (s : State) (c k : Nat) (a b : BitVec 64) (id : Ident) (ds : List (Option RegDesc)) (rs : List (Option Region)),
    s.calm c k → s.isGuest = false → (∀ j, (s.slot c j).queued = []) → s.runs 0xE0 o → rdReg o.a s = .ok (a, s) → rdReg o.b s = .ok (b, s) →
    (s.slot c k).ident = some id →
    let off := a.toNat % 2 ^ 17
    let n := clusterOf c
    let group := i18f o 13 6
    let etype := i18f o 5 3
    (s.ownOffset c k a.toNat 1).isSome = true → a.toNat % 64 = 0 → s.gatherBad c off = false →
    s.addressOk (((s.teamOf c k).map Team.size).getD 0) b.toNat = true → (s.cluster n).cards.length < 64 →
    ds = (List.range 8).map (fun i => (decodeRegion (Mem.word (s.core c).mem (off + 8 * i) 8)).getD none) →
    (∀ i, i < 8 → (decodeRegion (Mem.word (s.core c).mem (off + 8 * i) 8)).isSome = true) →
    rs = ds.map (fun r => r.bind (s.region c k)) → (∀ r, some r ∈ ds → (s.region c k r).isSome = true) →
    (∀ i j p q, i < 8 → j < 4 → i ≠ j + 4 → lget none rs i = some p → lget none rs (4 + j) = some q → p.meets q = false) →
    ∀ e ∈ [(Instr.jobCopy, 0), (Instr.jobGather, 1), (Instr.jobScatter, 2), (Instr.jobReduce, 3), (Instr.jobBcast, 4)],
      rolesOk e.2 etype (ds.take 4) (ds.drop 4) = true →
      (3 ≤ e.2 → ∃ tm, s.teamOf c k = some tm ∧ tm.inGroup group id.member id.slot = true) →
      ∃ (t : State) (x : Card), exec (e.1 o) s = .next t ∧ (t.cluster n).cards = (s.cluster n).cards ++ [x] ∧ x.core = c ∧ x.slot = k ∧ x.ident = id ∧
        x.addr = a ∧ x.done = b ∧ x.type = e.2 ∧ x.etype = etype ∧ x.group = group ∧ x.ins = rs.take 4 ∧ x.outs = rs.drop 4 ∧
        x.phase = .queued ∧ (x.ready = true ↔ e.2 < 3) ∧ s.sameMemory t ∧
        t.thread.pc = s.thread.pc + BitVec.ofNat 64 (lenBytes o.len)) ∧
  (∀ (s : State) (n i : Nat) (x : Card) (tm : Team), (s.cluster n).cards[i]? = some x → s.team x.ident.team = some tm → x.phase = .queued →
    x.ready = true → tm.st = .resident → (∀ z ∈ s.clusters, ∀ y ∈ z.2.cards, y.id ∈ x.edges → y.phase = .ended) →
    (tm.coreOfMember x.ident.member).getD x.core = x.core →
    (∀ r ∈ x.ins ++ x.outs, ∀ g, r = some g → Region.again tm g = g) → s.rangesFree (x.ranges s.ownDev) = true →
    ∃ t : State, exec (.jobStart n i) s = .next t ∧ (t.cluster n).cards = lput (s.cluster n).cards i { x with phase := .started } ∧
      ∀ r ∈ x.ranges s.ownDev, ∃ g ∈ (t.core r.1).ranges, g.lo = r.2.1 ∧ g.len = r.2.2.1 ∧ g.write = r.2.2.2 ∧ g.holder = .job n x.id) ∧
  (∀ (s : State) (n i : Nat) (x : Card), n < 32 → (s.cluster n).cards[i]? = some x →
    let completes (y : Card) (t : State) : Prop := ∃ e, e ∈ t.niOf (unitCluster n) ∧ e.addr = x.done ∧ e.card = some x.id ∧
      e.msg.payload = BitVec.ofNat 256 (x.addr.toNat + 2 ^ 64 * (y.status + 16 * y.flags.toNat + 2 ^ 11 * y.region) +
        2 ^ 96 * min y.skipped 0xFFFFFFFF + 2 ^ 128 * y.failAddr.toNat)
    (x.phase = .performed → ∃ t : State, exec (.jobEnd n i) s = .next t ∧
      (t.cluster n).cards = lput (s.cluster n).cards i { x with phase := .ended } ∧ completes x t) ∧
    (∀ p q : Region,
      let units := x.left.getD x.units
      x.phase = .started → x.type = 0 → units ≠ [] → x.ins = [some p, none, none, none] → x.outs = [some q, none, none, none] →
      p.isLocal = true → q.isLocal = true → p.dev = s.ownDev → q.dev = s.ownDev → s.isLost s.ownDev = false → s.regionJoined x p = true →
      s.regionJoined x q = true → (∀ u ∈ units, u.1 = 0 ∧ s.gatherBad p.core (p.base + 64 * u.2) = false ∧
        s.gatherBad q.core (q.base + 64 * u.2) = false) → Memory.wf (s.core q.core).mem = true →
      ∃ (t : State) (m k : Nat), exec (.jobEnd n i) s = .next t ∧ units[m]? = some (0, k) ∧
        (t.cluster n).cards[i]? = some { x with left := some (ldel units m) } ∧
        LegMap.read (t.core q.core).leg ((q.base + 64 * k) / 64) = LegMap.read (s.core p.core).leg ((p.base + 64 * k) / 64) ∧
        ∀ y, Mem.read (t.core q.core).mem y = if q.base + 64 * k ≤ y ∧ y < q.base + 64 * k + 64 then
          Mem.read (s.core p.core).mem (p.base + 64 * k + (y - (q.base + 64 * k))) else Mem.read (s.core q.core).mem y) ∧
    (x.phase = .started → x.type < 3 → x.left.getD x.units = [] →
      (x.fails = [] → ∃ t : State, exec (.jobEnd n i) s = .next t ∧ completes { x with status := 0 } t) ∧
      ∀ f ∈ x.fails, (∀ g ∈ x.fails, f.region < g.region ∨ (f.region = g.region ∧ f.unit < g.unit) ∨ f = g) →
        ∃ t : State, exec (.jobEnd n i) s = .next t ∧ completes { x with
          status := f.status, region := f.region, skipped := (x.fails.map (·.key)).eraseDups.length, failAddr := BitVec.ofNat 64 f.addr } t)) ∧
  (∀ (s : State) (h e : Nat) (tm : Team), s.team h = some tm → tm.st = .resident → tm.groupSlots e ≠ [] → e < tm.gaz.length →
    ∀ b : Bool,
    let g := tm.entry e
    let n := (g.complete.filter (fun x => x.1 == b)).length
    (∀ q ∈ tm.groupSlots e, ∃ m, (q, m) ∈ (if b then g.bcasts else g.reduces) ∧ n < m) →
    ∃ (t : State) (tm' : Team), exec (.collectiveInstanceComplete h e b.toNat) s = .next t ∧ t.team h = some tm' ∧
      (tm'.entry e).complete = g.complete ++ [(b, n)] ∧
      ∀ k, ∀ x ∈ (t.cluster k).cards, x.ident.team = h → x.group = e → x.type = (if b then 4 else 3) → x.inst = n → x.ready = true)

/-- R297-R301. GATHER holds its destination and leaves its lanes in flight; a lane that is performed writes its element. The
stream instructions, and the push of an element, or the stop on one that fails. -/
def Obligations.GathersAndStreams : Prop :=
  (∀ (o : Op) (s : State) (c k off : Nat) (a dst : BitVec 64) (ix : Nat) (site : Nat → Target × Kind), s.calm c k → s.isGuest = false →
    (∀ j, (s.slot c j).queued = []) → s.mayRun 0xE1 = true → rdReg o.a s = .ok (a, s) → rdV (regNum o.b) s = .ok (ix, s) →
    rdReg o.c s = .ok (dst, s) →
    let z := match o.m.toNat % 4 with | 0 => 4 | 1 => 8 | 2 => 32 | _ => 64
    let at_ (i : Nat) : BitVec 64 := a + o.i18.signExtend 64 + BitVec.ofNat 64 ((laneAt 32 ix i).toNat * z)
    let live := (List.range 8).filter (fun i => lget false (s.thread.laneMask o 8) i)
    dst.toNat % z = 0 → s.rowOff c k (dst, 8 * z) = some off → s.rowsSound c k [(dst, 8 * z)] → live ≠ [] →
    (∀ i ∈ live, gatherLane z (at_ i) s = .ok (site i, s)) →
    ∃ (t : State) (r : Machine.Range) (g : Gather), exec (.gather o) s = .next t ∧ (t.core c).ranges = [r] ∧ r.lo = off ∧ r.len = 8 * z ∧ r.write = true ∧ r.holder = .gather g.id ∧
      (t.core c).gathers = [g] ∧ g.slot = k ∧ g.z = z ∧ g.lanes = live.map (fun i => (off + i * z, at_ i, site i)) ∧ s.sameMemory t ∧
      t.thread.pc = s.thread.pc + BitVec.ofNat 64 (lenBytes o.len)) ∧
  (∀ (s : State) (c off core : Nat) (g : Gather) (gs : List Gather) (t : BitVec 64) (kd : Kind) (rest : List (Nat × BitVec 64 × Target × Kind)),
    (s.core c).gathers = g :: gs → g.lanes = (off, t, { dev := s.ownDev, core, isLocal := true }, kd) :: rest → (s.slot c g.slot).awayAt = none →
    s.gatherBad core (t.toNat % 0x20000) = false → (s.core core).ranges.any (fun r => r.write && r.holder != .gather g.id) = false →
    s.isLost s.ownDev = false → s.stacksJoined (coreStack c) (coreStack core) = true → s.poison = [] → s.laneArrived g.id off = true →
    Memory.wf (s.core c).mem = true →
    ∃ u : State, exec (.gatherLaneReply c 0) s = .next u ∧
      (∀ x, Mem.read (u.core c).mem x = if off ≤ x ∧ x < off + g.z then Mem.read (s.core core).mem (t.toNat % 0x20000 + (x - off))
        else Mem.read (s.core c).mem x) ∧
      (rest.all (fun l => l.1 != off) = true → gs.all (fun y => y.id != g.id && !y.lanes.isEmpty) = true →
        (u.core c).gathers = if rest = [] then gs else { g with lanes := rest } :: gs)) ∧
  (∀ (o : Op) (s : State) (c k : Nat) (a : BitVec 64), s.calm c k → s.isGuest = false → s.thread.guardBit o = true →
    let x := s.core c
    let n := o.m.toNat % 4
    let r := x.stream n
    let i := x.stream r.isrc.toNat
    let e := a + o.i18.signExtend 64
    let w (j : Nat) : Nat := Mem.word x.mem (e.toNat % 2 ^ 17 + 8 * j) 8
    let q := i18f o 2 0
    (s.mayRun 0xE2 = true → rdReg o.a s = .ok (a, s) → (∀ j, (s.slot c j).queued = []) → (s.ownOffset c k e.toNat 1).isSome = true → e.toNat % 32 = 0 →
      s.gatherBad c (e.toNat % 2 ^ 17) = false → bitsOf (w 2) 39 32 < 6 → bitsOf (w 2) 47 40 < 16 → bitsOf (w 2) 55 48 < 8 →
      bitsOf (w 2) 63 56 = 0 → w 3 = 0 → r.active = false →
      ∃ t : State, exec (.srec o) s = .next t ∧ (t.core c).stream n = { r with
          base := BitVec.ofNat 64 (w 0), stride := BitVec.ofNat 64 (w 1), count := BitVec.ofNat 32 (w 2), esize := BitVec.ofNat 3 (bitsOf (w 2) 39 32)
          qsel := BitVec.ofNat 3 (bitsOf (w 2) 42 40), noq := decide (8 ≤ bitsOf (w 2) 47 40), isrc := BitVec.ofNat 2 (bitsOf (w 2) 49 48)
          iv := decide (4 ≤ bitsOf (w 2) 55 48), active := false, err := false } ∧
        (∀ j, j ≠ n → (t.core c).stream j = x.stream j) ∧ (t.core c).qerr.getLsbD (bitsOf (w 2) 42 40) = false ∧ s.sameMemory t) ∧
    (s.mayRun 0xE3 = true → r.active = false → r.noq = false →
      (r.iv = true → i.active = false ∧ r.isrc.toNat ≠ n ∧ i.noq = true ∧ i.esize.toNat < 4) →
      let len := if r.iv then min r.count.toNat (x.streamCount 3 i) else r.count.toNat
      ∃ t : State, exec (.sstart o) s = .next t ∧ (t.core c).stream n = { r with active := decide (0 < len), owner := BitVec.ofNat 2 k, next := 0 } ∧
        (r.iv = true → (t.core c).stream r.isrc.toNat = { i with active := decide (0 < len), owner := BitVec.ofNat 2 k, next := 0 }) ∧ s.sameMemory t) ∧
    (s.mayRun 0xE4 = true → ∃ t : State, exec (.sstop o) s = .next t ∧ ((t.core c).stream n).active = false ∧
      (r.iv = true → ((t.core c).stream r.isrc.toNat).active = false) ∧ (t.core c).queues = x.queues ∧ s.sameMemory t) ∧
    (∀ t, s.mayRun 0xE5 = true → (x.queue q).length ≤ 16 →
      wrX (regNum o.d) (BitVec.ofNat 64 ((x.queue q).length +
        2 ^ 8 * (if ∃ r ∈ x.streams.toList, r.active = true ∧ r.noq = false ∧ r.qsel.toNat = q then 1 else 0) +
        2 ^ 9 * (x.qerr.getLsbD q).toNat)) s = .ok ((), t) → exec (.qcnt o) s = .next (t.finish o.len)) ∧
    (s.mayRun 0xE6 = true → ∃ t : State, exec (.qflush o) s = .next t ∧ (t.core c).queue q = [] ∧
      t.thread.getX (regNum o.d) = (if regNum o.d = 0 then 0 else BitVec.ofNat 64 (x.queue q).length) ∧ (t.core c).qerr.getLsbD q = false ∧
      (∀ j : Nat, j ≠ q → (t.core c).queue j = x.queue j) ∧ s.sameMemory t)) ∧
  (∀ (s : State) (c k off : Nat), k < 4 →
    let x := s.core c
    let r := x.stream k
    let sl := s.slot c r.owner.toNat
    let e := r.elemAddr r.next.toNat
    let z := 2 ^ r.esize.toNat
    r.active = true → r.noq = false → r.iv = false → sl.haltReq = false → sl.halted = false → r.next.toNat < r.count.toNat →
    (e.toNat % z = 0 → (s.modSlot c r.owner.toNat (fun x => { x with km := false })).locate c r.owner.toNat e.toNat z = some (.loc s.ownDev c off z) → s.gatherBad c off = false →
      s.localHeld c off z false = false → s.isLost s.ownDev = false → s.poison = [] → x.room r.qsel.toNat ≠ 0 →
      ∃ t : State, exec (.streamPush c k) s = .next t ∧
        (t.core c).queue r.qsel.toNat = x.queue r.qsel.toNat ++ [BitVec.ofNat 256 (Mem.word x.mem off z)] ∧
        (t.core c).stream k = { r with next := r.next + 1, active := decide (r.next.toNat + 1 < r.count.toNat) } ∧ s.sameMemory t) ∧
    (e.toNat % z ≠ 0 → ∃ t : State, exec (.streamPush c k) s = .next t ∧
      (t.core c).stream k = { r with active := false, err := true, errc := 4, strerr := e } ∧
      (t.core c).qerr.getLsbD r.qsel.toNat = true ∧ (t.core c).queues = x.queues ∧ s.sameMemory t))

/-! ### The deep level -/

/-- R310, R311, R314-R316, R318, R319. DEEP accepts a kernel and gives its ticket. On an SVC the row instructions enter their
row accesses, DOT16 accumulates, DARG and DYIELD read their kernel, and DEND ends the SVC's part of it. -/
def Obligations.DeepInstructions : Prop :=
  (∀ (o : Op) (s s1 s2 : State) (c k : Nat) (a0 : BitVec 64) (foot args : List Byte), s.calm c k → s.isGuest = false → s.runs 0xE7 o →
    rdReg o.a s = .ok (a0, s) → (∀ j, (s.slot c j).queued = []) →
    let a := a0 + o.i18.signExtend 64
    let off := a.toNat % 2 ^ 17
    let w (i : Nat) : Nat := Mem.word (s.core c).mem (off + 8 * i) 8
    let desc (i : Nat) := decodeRegion (wordAt foot (8 * i) 8)
    let part (l : List Nat) : List Region := l.filterMap (fun i => ((desc i).getD none).map footRegion)
    (s.ownOffset c k a.toNat 1).isSome = true → a.toNat % 64 = 0 → s.gatherBad c off = false →
    w 0 % 64 = 0 → w 0 < 2 ^ 56 → w 3 % 2 ^ 32 ≠ 0 → w 3 < 2 ^ 35 → bitsOf (w 4) 37 35 < 5 → w 4 < 2 ^ 50 → w 6 = 0 → w 7 = 0 →
    s.addressOk (((s.teamOf c k).map Team.size).getD 0) (w 5) = true → loadBlock (BitVec.ofNat 64 (w 2)) s = .ok (foot, s1) →
    (if w 1 = 0 then args = List.replicate 64 0 ∧ s2 = s1 else loadBlock (BitVec.ofNat 64 (w 1)) s1 = .ok (args, s2)) →
    (∀ i, i < 8 → ∃ d, desc i = some d ∧ ∀ r, d = some r → r.isLocal = false) →
    s2.calm c k → (s2.kernels.filter (fun x => x.st != .ended)).length < 256 →
    ∃ x : Kernel, x.ticket = s2.nextTicket ∧ x.card = a ∧ x.ident = (s2.slot c k).ident ∧ x.code = w 0 ∧ x.coden = bitsOf (w 4) 49 38 ∧
      x.args = (List.range 8).map (fun i => BitVec.ofNat 64 (wordAt args (8 * i) 8)) ∧ x.mask = BitVec.ofNat 32 (w 3) ∧
      x.stack = bitsOf (w 3) 34 32 ∧ x.expiry = bitsOf (w 4) 31 0 ∧ x.prio = bitsOf (w 4) 34 32 ∧
      x.rm = BitVec.ofNat 3 (bitsOf (w 4) 37 35) ∧ x.done = BitVec.ofNat 64 (w 5) ∧ x.reads = part [0, 1, 2, 3] ∧ x.writes = part [4, 5, 6, 7] ∧
      x.edges = (s2.kernels.filter (fun y => y.st != .ended && x.after y)).map (·.ticket) ∧
      x.st = (if x.edges = [] then .ready else .queued) ∧
      ∀ t, dstX o.d (BitVec.ofNat 64 (s2.nextTicket % 2 ^ 32)) { s2 with nextTicket := s2.nextTicket + 1, kernels := s2.kernels ++ [x] } = .ok ((), t) →
        exec (.deep o) s = .next (t.finish o.len)) ∧
  (∀ (o : Op) (s : State) (m : Nat) (a b : BitVec 64), s.cur = .svc m → s.poison = [] →
    let v := s.svc m
    let next (u : State) : Prop := u.thread.pc = s.thread.pc + BitVec.ofNat 64 (lenBytes o.len)
    let e := a + o.i18.signExtend 64
    (∀ (wr : Bool) (kk : Kernel) (en : PlbEntry) (pa : Nat) (big : Bool) (s0 s1 : State),
      s.runs (if wr then 0xE9 else 0xE8) o → rdReg o.a s = .ok (a, s) → rdReg o.b s = .ok (b, s) → s.svcKernel m = some kk →
      e.toNat % 256 = 0 → (∀ j, j < 4 → kk.writes.any (·.holds (e.toNat + 64 * j)) = true ∨ (wr = false ∧ kk.reads.any (·.holds (e.toNat + 64 * j)) = true)) →
      v.moving ≠ some e.toNat → s.protWalk kk.dom e.toNat = some en → (if wr then en.w else en.r) = true →
      s.walkTokens (m / 64) (s.xlatReads (512 + m / 32) e.toNat) = some s0 → s0.translate (512 + m / 32) e.toNat = (.pa pa big, s1) →
      channelOf pa = m → b.toNat % 64 = 0 → b.toNat + 256 ≤ 0x40000 → (s1.svc m).rows.length < 8 →
      ∃ u : State, exec (if wr then .wrrow o else .rdrow o) s = .next u ∧ next u ∧ (u.svc m).mem = (s1.svc m).mem ∧ u.hbm = s.hbm ∧
        (u.svc m).rows = (s1.svc m).rows.map (·.passedBy) ++ [{ line := e.toNat, pa, off := b.toNat, write := wr }]) ∧
    (∀ (n : BitVec 64) (lines : List (Nat × Nat)) (s1 : State), s.runs 0xEA o → v.scan = none → rdReg o.a s = .ok (a, s) →
      rdReg o.b s = .ok (b, s) → rdReg o.c s = .ok (n, s) → 1 ≤ n.toNat → n.toNat ≤ 256 → a.toNat % 8 = 0 → a.toNat + 8 * n.toNat ≤ 0x40000 →
      v.rowHeld a.toNat (8 * n.toNat) false = false → b.toNat % 64 = 0 → b.toNat + 256 * n.toNat ≤ 0x40000 →
      scanLines ((List.range n.toNat).map (fun i => Mem.word v.mem (a.toNat + 8 * i) 8)) s = .ok (lines, s1) → (s1.svc m).rows.length < 8 →
      ∃ u : State, exec (.scanrow o) s = .next u ∧ next u ∧ (u.svc m).mem = (s1.svc m).mem ∧
        (u.svc m).rows = (s1.svc m).rows.map (·.passedBy) ++ [{ line := 0, pa := 0, off := b.toNat, write := false, scan := some { lines } }]) ∧
    (∀ (sc : Scan) (rest : List (Nat × Nat)) (s1 : State), s.runs 0xEA o → v.scan = some sc → rdReg o.b s = .ok (b, s) →
      scanLines ((sc.lines.drop sc.next).map Prod.fst) s = .ok (rest, s1) → b.toNat % 64 = 0 → b.toNat + 256 * sc.lines.length ≤ 0x40000 →
      (s1.svc m).rows.length < 8 →
      ∃ u : State, exec (.scanrow o) s = .next u ∧ next u ∧ (u.svc m).scan = none ∧ (u.svc m).mem = (s1.svc m).mem ∧
        (u.svc m).rows = (s1.svc m).rows.map (·.passedBy) ++ [{ line := 0, pa := 0, off := b.toNat, write := false, scan := some {
          lines := sc.lines.take sc.next ++ rest, next := sc.next, wave := sc.next, read := sc.next } }]) ∧
    (∀ (old : Nat) (t : State), s.mayRun 0xEB = true → rdReg o.a s = .ok (a, s) → rdReg o.b s = .ok (b, s) → rdV (regNum o.d) s = .ok (old, s) →
      a.toNat % 64 = 0 → b.toNat % 64 = 0 → a.toNat + 64 ≤ 0x40000 → b.toNat + 4096 ≤ 0x40000 → v.rowHeld a.toNat 64 false = false →
      v.rowHeld b.toNat 4096 false = false → isB8 (legFmt (LegMap.read v.leg (a.toNat / 64))) = true →
      (∀ j, j < 64 → isB8 (legFmt (LegMap.read v.leg (b.toNat / 64 + j))) = true) →
      let elem (off i : Nat) := decodeElem (Mem.read v.mem (off + i)).toNat (LegMap.read v.leg (off / 64))
      let h := if o.m.getLsbD 0 then 32 else 0
      let mask := s.thread.laneMask o 32
      let rs := (List.range 32).map (fun i =>
        prodElem (laneAt 32 old i) (elem a.toNat) (fun j => elem (b.toNat + 64 * j) (h + i)) s.thread.rm.toNat)
      dstLanes o.d 32 mask ((List.range 32).map (fun i => if lget false mask i then (lget (0, 0) rs i).1 else (laneAt 32 old i).toNat))
        (s.modThread (·.orFlags (laneFlags mask rs))) = .ok ((), t) →
      exec (.dot16 o) s = .next (t.finish o.len)) ∧
    (∀ (kk : Kernel) (t : State), s.svcKernel m = some kk →
      ∀ form ∈ (List.range 8).map (fun i => (i, lget 0 kk.args i)) ++ [(8, BitVec.ofNat 64 (kk.rankOf m)), (9, BitVec.ofNat 64 kk.svcs.length),
          (10, BitVec.ofNat 64 (kk.ticket % 2 ^ 32))],
        s.runs 0xEE o → i18f o 3 0 = form.1 → wrX (regNum o.d) form.2 s = .ok ((), t) → exec (.darg o) s = .next (t.finish o.len)) ∧
    (∀ kk : Kernel, s.runs 0xEC o → v.rows = [] → v.kernel = some kk.ticket → s.kernel kk.ticket = some kk →
      ∃ u : State, exec (.dend o) s = .next u ∧ u.svc m = { cyc := v.cyc } ∧ u.kernel kk.ticket = some { kk with
        ended := kk.ended ++ [m], flags := kk.flags ||| v.thr.flags, code0 := if v.rank = 0 then i18f o 15 0 else kk.code0 }) ∧
    (s.runs 0xEC o → v.rows ≠ [] → exec (.dend o) s = .next s) ∧
    (∀ kk : Kernel, s.runs 0xED o → v.kernel = some kk.ticket → s.kernel kk.ticket = some kk →
      ((∀ y ∈ s.waitingFor kk, y.prio < kk.prio) → exec (.dyield o) s = .next (s.finish o.len)) ∧
      ((∃ y ∈ s.waitingFor kk, kk.prio ≤ y.prio) → ∃ (u : State) (k' : Kernel), exec (.dyield o) s = .next u ∧ next u ∧ u.kernel kk.ticket = some k' ∧
        k'.st = .halting ∧ k'.behind = (s.waitingFor kk).map (·.ticket))))

/-- R262, R311, R314, R317, R320-R322. A kernel's grant, cleaning, lease expiry, saving, fault and end; its row accesses and
waves; the choice of a channel; and the refill of tokens. -/
def Obligations.DeepEvents : Prop :=
  (∀ (s : State) (n : Nat) (k : Kernel), s.kernel n = some k →
    let becomes (i : Instr) (P : Kernel → State → Prop) : Prop := ∃ (u : State) (k' : Kernel), exec i s = .next u ∧ u.kernel n = some k' ∧ P k' u
    (k.st = .ready → (∀ x ∈ s.kernels, x.st = .ready → x.ticket ∉ k.behind) → s.port.preempts = [] →
      (∀ i ∈ k.live, (1, i) ∉ s.port.retired ∧ (3, i) ∉ s.port.retired) →
      (∀ i ∈ k.svcs, s.svcKernel i = none) → (∀ x ∈ s.kernels, x.ticket ≠ n → s.grantable x = true → s.goesFirst x k = false) →
      becomes (.leaseGrant n) (fun k' u => k'.st = (if k.begun then .running else .cleaning) ∧ ∀ i ∈ k.svcs,
        (u.svc i).kernel = some n ∧ (u.svc i).rank = k.rankOf i ∧ (u.svc i).left = if k.expiry = 0 then none else some k.expiry)) ∧
    (∀ code s1, k.st = .cleaning → s.cleanable k = true → s.dirRead k.dom k.code (64 * (k.coden + 1)) = .ok (code, s1) →
      becomes (.cleaningDone n) (fun k' u => k'.st = .running ∧ k'.guard = true ∧ ∀ i ∈ k.live, (u.svc i).status = .running ∧
        (u.svc i).thr = { rm := k.rm } ∧ (∀ r, vget 0 (u.svc i).w r = 0) ∧ (u.svc i).mem = Mem.writeN [] 0 code ∧ (u.svc i).leg = [] ∧ (u.svc i).dprog = 0)) ∧
    (k.st = .running → k.status = 0 → (∃ i ∈ k.live, (s.svc i).left = some 0) → becomes (.kernelLeaseExpiry n) (fun k' _ => k' = { k with st := .halting })) ∧
    (k.st = .halting → k.status = 0 → k.live ≠ [] → (∀ i ∈ k.live, (s.svc i).settled = true ∧ (s.svc i).status.isFault = false) →
      (∀ i ∈ k.svcs, (s.svc i).kernel = some n) →
      becomes (.kernelSaved n) (fun k' u => k'.st = .ready ∧ k'.preempts = min 0xFFFF (k.preempts + 1) ∧ k'.saves.map Prod.fst = k.live ∧
        ∀ i ∈ k.svcs, (u.svc i).kernel = none)) ∧
    (∀ i c pc v, k.status = 0 → (k.st = .running ∨ k.st = .halting) → k.live = [i] → (s.svc i).status = .faulted c pc v →
      becomes (.kernelFault n) (fun k' _ => k' = { k with status := 1, fault := some (c, i, pc, v) })) ∧
    ((k.st = .running ∨ k.st = .halting) → k.status = 0 → k.live = [] →
      becomes (.kernelEnd n) (fun k' u => k'.st = .ended ∧ k'.guard = false ∧
        (∀ y ∈ s.kernels, y.ticket ≠ n → y.st = .queued → (∀ e ∈ y.edges, e = n) → ∃ y' ∈ u.kernels, y'.ticket = y.ticket ∧ y'.st = .ready) ∧
        ∃ e ∈ u.niOf unitMain, e.addr = k.done ∧ (k.fault = none → e.msg.payload = BitVec.ofNat 256 (k.card.toNat +
          2 ^ 64 * (2 ^ 4 * k.flags.toNat) + 2 ^ 96 * k.code0 + 2 ^ 112 * k.preempts))))) ∧
  (∀ (s : State) (m : Nat) (r : RowAccess) (rest : List RowAccess), (s.svc m).rows = r :: rest → r.served = true → r.scan = none →
    (∀ l ∈ s.l2, l.line ≠ r.line) →
    ∃ u : State, exec (.rowAccessPerformed m) s = .next u ∧ (u.svc m).rows = rest ∧
      (r.write = false → Memory.wf (s.svc m).mem = true → u.hbm = s.hbm ∧ ∀ x, Mem.read (u.svc m).mem x =
        if r.off ≤ x ∧ x < r.off + 256 then Mem.read s.hbm (r.pa + (x - r.off)) else Mem.read (s.svc m).mem x) ∧
      (r.write = true → Memory.wf s.hbm = true → (u.svc m).mem = (s.svc m).mem ∧ ∀ x, Mem.read u.hbm x =
        if r.pa ≤ x ∧ x < r.pa + 256 then Mem.read (s.svc m).mem (r.off + (x - r.pa)) else Mem.read s.hbm x)) ∧
  (∀ (s : State) (m : Nat) (r : RowAccess) (rest : List RowAccess) (sc : Scan), (s.svc m).rows = r :: rest → r.scan = some sc →
    let scans (sc' : Scan) (u : State) : Prop := (u.svc m).rows = { r with scan := some sc' } :: rest
    (sc.next < sc.wave → sc.wave ≤ sc.read → sc.wave < sc.lines.length → ∃ u : State, exec (.scanrowWave m) s = .next u ∧
      scans { sc with next := sc.wave } u ∧ (u.svc m).dprog = BitVec.ofNat 9 sc.wave ∧ u.hbm = s.hbm) ∧
    (sc.next < sc.wave → sc.wave ≤ sc.read → sc.lines.length ≤ sc.wave → ∃ u : State, exec (.scanrowWave m) s = .next u ∧
      (u.svc m).rows = rest ∧ (u.svc m).dprog = 0 ∧ u.hbm = s.hbm) ∧
    (sc.wave ≤ sc.next → sc.past = true ∨ s.svcIssues m = true → sc.next < sc.lines.length →
      ∃ (u : State) (w : Nat), exec (.scanrowWave m) s = .next u ∧ scans { sc with wave := w } u ∧ sc.next < w ∧ w ≤ sc.lines.length ∧
        (u.svc m).mem = (s.svc m).mem)) ∧
  (∀ (s : State) (ch : Nat) (done : List RowAccess) (r : RowAccess) (rest : List RowAccess),
    let x := s.channel ch
    let rows := (s.svc ch).rows
    let deep (u : State) : Prop := (u.svc ch).rows = done ++ { r with served := true } :: rest ∧ (u.channel ch).normal = x.normal
    let normal (u : State) : Prop := (u.svc ch).rows = rows ∧ ∃ i, i < x.normal.length ∧ (u.channel ch).normal = ldel x.normal i
    let waits : Prop := rows = done ++ r :: rest ∧ done.all (·.through) = true ∧ r.served = false ∧ r.scan = none
    let writes : Prop := x.normal ≠ [] ∧ ∀ e ∈ x.normal, e.1.isRead = false
    (waits → (∀ e ∈ x.normal, s.normalReady ch e.1 = false) → ∃ u : State, exec (.arbSlot ch) s = .next u ∧ deep u ∧ (u.channel ch).dn = 0) ∧
    ((s.svc ch).command = none → writes → ∃ u : State, exec (.arbSlot ch) s = .next u ∧ normal u ∧ (u.channel ch).dd = 0) ∧
    (waits → writes → (x.wn ≠ 0 ∨ x.wd ≠ 0) →
      let refill : Prop := x.dn ≤ 0 ∧ x.dd ≤ 0
      ∀ dn dd, (refill → dn = x.dn + x.wn.toNat ∧ dd = x.dd + x.wd.toNat) → (¬ refill → dn = x.dn ∧ dd = x.dd) →
      ∃ u : State, exec (.arbSlot ch) s = .next u ∧ (if dn < dd then deep u ∧ (u.channel ch).dn = dn ∧ (u.channel ch).dd = dd - 1
        else normal u ∧ (u.channel ch).dn = dn - 1 ∧ (u.channel ch).dd = dd)) ∧
    (waits → writes → x.wn = 0 → x.wd = 0 → ∃ u : State, exec (.arbSlot ch) s = .next u ∧ normal u)) ∧
  (∀ (s : State) (n : Nat), n < 768 →
    let unit (t : State) : Channel := if n < 512 then t.slice n else t.channel (n - 512)
    let x := unit s
    ∃ u : State, exec (.tokenRefill n) s = .next u ∧ ∀ c, c < 4 →
      let rate := (vget 0 (x.newRate.getD x.rate) c).toNat
      vget 0 (unit u).tokens c = min (vget 0 (x.newDepth.getD x.depth) c).toNat (vget 0 x.tokens c + if c = 3 then max 1 rate else rate))

/-! ### System registers and the instructions on a slot's own state -/

/-- R9, R29, R376. A register that the mode may not reach raises ILLEGAL and changes nothing. SGET reads a register's
fields, and zeros elsewhere; SSET stores the bits that a register keeps; a write of a read-only register is ignored on
a core. R25, R157, R158, R173, R184, R263, R278, R302, R322, R338, R344, R346. The registers whose read pops a record,
and those whose write does more than store. -/
def Obligations.SystemRegisters : Prop :=
  (∀ (o : Op) (s s1 : State) (c k : Nat) (v : BitVec 64), s.cur = .slot c k → k < 4 → (s.slot c k).guest = none →
    let n := i18f o 9 0
    (s.runs 0xF0 o → s.sysAcc n = .no → exec (.sget o) s = .next (s.trapCur .illegal (packWord0 0xF0 o))) ∧
    (s.runs 0xF1 o → s.sysAcc n = .no → exec (.sset o) s = .next (s.trapCur .illegal (packWord0 0xF1 o))) ∧
    (∀ e ∈ sysReads, ∀ t, s.runs 0xF0 o → n = e.1 → s.sysAcc n ≠ .no → (n = 0 → (s.slot c k).satOwed c s.ownDev = false) → dstX o.d (e.2 s c k) s = .ok ((), t) →
      exec (.sget o) s = .next (t.finish o.len)) ∧
    (s.runs 0xF1 o → s.sysAcc n = .ro → srcX (immValue o) o.b s = .ok (v, s1) →
      (n ≠ 0x156 → exec (.sset o) s = .next (s1.finish o.len)) ∧
      (n = 0x156 → (s1.slot c k).regs.qossel.getLsbD 15 = true → s1.unitPart (s1.slot c k).regs.qossel = s1.corePart c →
        exec (.sset o) s = .next (s1.finish o.len)) ∧
      (n = 0x156 → (s1.slot c k).regs.qossel.getLsbD 15 = false → exec (.sset o) s = .next (s.trapCur .illegal (packWord0 0xF1 o)))) ∧
    (s.runs 0xF1 o → s.sysAcc n = .rw → srcX (immValue o) o.b s = .ok (v, s1) →
      ∃ u, (∀ e ∈ sysKeeps, n = e.1 → exec (.sset o) s = .next u ∧ u.coreGet c k n = v &&& BitVec.ofNat 64 (2 ^ e.2 - 1)) ∧
        (n = 0x000 → (s1.slot c k).satOwed c s.ownDev = false → v.toNat % 8 < 5 → exec (.sset o) s = .next u ∧ u.thread.rm = v.setWidth 3 ∧ u.thread.flags = (v >>> 4).setWidth 7) ∧
        (n = 0x023 → exec (.sset o) s = .next u ∧ (u.slot c k).regs = { (s1.slot c k).regs with
          infiring := v.getLsbD 2, prevk := v.getLsbD 1, vwake := (s1.slot c k).regs.vwake && !v.getLsbD 0 }) ∧
        (n = 0x132 → v.toNat % 4 = 0 → exec (.sset o) s = .next u ∧ (u.slot c k).act.acode = v) ∧
        (n = 0x1A0 → v.toNat % 4 = 0 → exec (.sset o) s = .next u ∧ (u.slot c k).regs.kvec = v) ∧
        (∀ i, i < 16 → n = 0x120 + i → bitsOf v.toNat 11 8 ≠ 0 → exec (.sset o) s = .next u ∧
          vget 0 (u.slot c k).act.htab i = v &&& 0xFFFFFFFF000F0F07)) ∧
    (s.runs 0xF1 o → s.sysAcc n = .rw → srcX (immValue o) o.b s = .ok (v, s1) →
      (n = 0x000 ∧ 5 ≤ v.toNat % 8 ∧ (s1.slot c k).satOwed c s.ownDev = false) ∨ (n = 0x001 ∧ 5 ≤ v.toNat % 8) ∨ (n = 0x132 ∧ v.toNat % 4 ≠ 0) ∨ (n = 0x1A0 ∧ v.toNat % 4 ≠ 0) →
      exec (.sset o) s = .next (s.trapCur .illegal (packWord0 0xF1 o)))) ∧
  (∀ (o : Op) (s s1 t : State) (c k : Nat) (v : BitVec 64), s.cur = .slot c k → k < 4 → (s.slot c k).guest = none →
    let n := i18f o 9 0
    let x := s1.core c
    let sl := s1.slot c k
    let reads (at_ : Nat) : Prop := s.runs 0xF0 o ∧ n = at_ ∧ s.sysAcc n ≠ .no ∧ s1 = s
    let writes (at_ : Nat) : Prop := s.runs 0xF1 o ∧ n = at_ ∧ s.sysAcc n = .rw ∧ srcX (immValue o) o.b s = .ok (v, s1)
    (∀ r rest, reads 0x162 → x.trav.ring = r :: rest →
      dstX o.d r.addr (s.modCore c (fun x => { x with trav := { x.trav with ring := rest, travc := r.cyc, travs := r.word } })) = .ok ((), t) →
      exec (.travpop o) s = .next (t.finish o.len)) ∧
    (∀ r rest, reads 0x1A8 → sl.sfrq = r :: rest →
      dstX o.d r.addr (s.modSlot c k (fun y => { y with sfrq := rest, sfReported := y.sfReported - 1, regs := { y.regs with
        sfrqPc := r.pc, sfrqInfo := BitVec.ofNat 64 (2 ^ 63 + 2 ^ 60 * r.kind + 2 ^ 56 * r.reason + r.size) } })) = .ok ((), t) →
      exec (.sfrqpop o) s = .next (t.finish o.len)) ∧
    (∀ r rest, reads 0x1B2 → x.samp.ring = r :: rest →
      dstX o.d r.pc (s.modCore c (fun x => { x with samp := { x.samp with ring := rest, info := r.info } })) = .ok ((), t) →
      exec (.samppop o) s = .next (t.finish o.len)) ∧
    (∀ e ∈ [(Instr.travpop, 0x162, x.trav.ring.isEmpty), (Instr.sfrqpop, 0x1A8, sl.sfrq.isEmpty), (Instr.samppop, 0x1B2, x.samp.ring.isEmpty)],
      reads e.2.1 → e.2.2 = true → ∀ r : Fin 32, o.d = .reg r → sl.owed = [] → ∃ u : State, exec (e.1 o) s = .next u ∧ u.thread.getX r.val = 0) ∧
    (writes 0x040 → mseqActive x.mu.mseq = false → v.getLsbD 63 = false → ∃ u : State, exec (.mseqWrite o) s = .next u ∧
      (u.core c).mu.mseq = v &&& 0xFFFFFFE3FFFFFFFF ∧ (u.core c).mu.acc = x.mu.acc) ∧
    (writes 0x040 → mseqActive x.mu.mseq = true → exec (.mseqWrite o) s = .next (s.trapCur .illegal (packWord0 0xF1 o))) ∧
    (writes 0x110 → x.mu.queue = [] → mseqActive x.mu.mseq = false → ∃ u : State, exec (.munitWrite o) s = .next u ∧
      (u.core c).mu = if v.setWidth 12 = x.mu.domain then { x.mu with en := v.getLsbD 16 } else { en := v.getLsbD 16, domain := v.setWidth 12 }) ∧
    (writes 0x160 → ∃ u : State, exec (.travctlWrite o) s = .next u ∧ (u.core c).trav.en = v.getLsbD 0 ∧ (u.core c).trav.lmem = v.getLsbD 1 ∧
      (u.core c).trav.stop = v.getLsbD 2 ∧ (u.core c).trav.domain = (v >>> 16).setWidth 12 ∧
      (v.getLsbD 0 = true → x.trav.en = false → (u.core c).trav.ring = [] ∧ (u.core c).trav.lost = 0)) ∧
    (writes 0x1B0 → ∃ u : State, exec (.sampctlWrite o) s = .next u ∧ (u.core c).samp.period = v.setWidth 32 ∧
      (u.core c).samp.slots = (v >>> 32).setWidth 4 ∧ (u.core c).samp.trace = v.getLsbD 36 ∧ (u.core c).samp.ring = [] ∧ (u.core c).samp.lost = 0) ∧
    (writes 0x133 → v.toNat % 16 = sl.act.mbox.toNat ∨ s1.mboxOk c k (v.toNat % 16) = true → ∃ u : State, exec (.amodeWrite o) s = .next u ∧
      (u.slot c k).act = { sl.act with taske := (v >>> 8).setWidth 8, worker := v.getLsbD 4, mbox := v.setWidth 4 }) ∧
    (writes 0x133 → v.toNat % 16 ≠ sl.act.mbox.toNat → s1.mboxOk c k (v.toNat % 16) = false →
      exec (.amodeWrite o) s = .next (s.trapCur .illegal (packWord0 0xF1 o))) ∧
    (writes 0x004 → ∃ u : State, exec (.vuseWrite o) s = .next u ∧ (u.slot c k).regs.vuseN = v.setWidth 2 ∧ (u.slot c k).regs.vuseMode = v.getLsbD 2 ∧
      ∀ i, i < 32 → vget 0 (u.slot c k).v i = if v.getLsbD 2 = true ∧ v.toNat % 4 < i / 8 then 0 else vget 0 sl.v i) ∧
    (∀ tm, writes 0x1BA → s1.teamOf c k = some tm → sl.regs.cmpsel.toNat % 256 < tm.ngroup → sl.regs.cmpsel.toNat % 256 < tm.gaz.length →
      let i := sl.regs.cmpsel.toNat / 256
      v.setWidth 32 &&& cmpReserved i = 0 → ∃ (u : State) (tm' : Team), exec (.cmpctlWrite o) s = .next u ∧ u.team tm.handle = some tm' ∧
        vget {} (tm'.entry (sl.regs.cmpsel.toNat % 256)).cmps i = { vget {} (tm.entry (sl.regs.cmpsel.toNat % 256)).cmps i with ctl := v.setWidth 32 }) ∧
    (∀ j, j < 4 → writes (0x180 + j) → (x.stream j).iv = false → ∃ u : State, exec (.strecWrite o) s = .next u ∧ (u.core c).stream j = { x.stream j with
      active := v.getLsbD 63 && decide ((v.setWidth 32).toNat < (x.stream j).count.toNat), err := v.getLsbD 62, owner := (v >>> 60).setWidth 2
      errc := (v >>> 57).setWidth 3, next := v.setWidth 32 }) ∧
    (∀ j, j < 4 → writes (0x151 + j) → s1.unitPart sl.regs.qossel = s1.corePart c → (v >>> 16).setWidth 16 ≠ (0 : BitVec 16) →
      ∃ u : State, exec (.qosbudWrite o) s = .next u ∧ (u.qosUnit sl.regs.qossel).budget j = (v.setWidth 32).setWidth 64) ∧
    (∀ j, j < 4 → writes (0x151 + j) → (v >>> 16).setWidth 16 = (0 : BitVec 16) →
      exec (.qosbudWrite o) s = .next (s.trapCur .illegal (packWord0 0xF1 o))) ∧
    (writes 0x155 → sl.regs.qossel.getLsbD 15 = true → s1.unitPart sl.regs.qossel = s1.corePart c → ∃ u : State, exec (.darbWrite o) s = .next u ∧
      (u.qosUnit sl.regs.qossel).wn = v.setWidth 4 ∧ (u.qosUnit sl.regs.qossel).wd = (v >>> 4).setWidth 4 ∧
      (u.qosUnit sl.regs.qossel).dn = (s1.qosUnit sl.regs.qossel).dn ∧ (u.qosUnit sl.regs.qossel).dd = (s1.qosUnit sl.regs.qossel).dd))

/-- R76, R350, R360-R362. CYC, FGET and FCLR, which wait for the flags that an earlier store to another core's bank may yet OR into
FPCTL; IBAR empties the core's instruction cache; PLBINV removes the entries that it names and
ends once no access that they checked is outstanding. -/
def Obligations.SystemInstructions : Prop :=
  (∀ (o : Op) (s s1 t : State) (a : BitVec 64), s.thread.guardBit o = true →
    let told : Prop := ∀ c k, s.cur = .slot c k → (s.slot c k).satOwed c s.ownDev = false
    let word : BitVec 64 := 0#53 ++ s.thread.flags ++ 0#1 ++ s.thread.rm
    (s.mayRun 0xF6 = true → dstX o.d (match s.cur with | .slot c _ => (s.core c).cyc | .svc n => (s.svc n).cyc) s = .ok ((), t) →
      exec (.cyc o) s = .next (t.finish o.len)) ∧
    (s.mayRun 0xF7 = true → told → dstX o.d word s = .ok ((), t) → exec (.fget o) s = .next (t.finish o.len)) ∧
    (s.mayRun 0xF8 = true → told → rdReg o.a s = .ok (a, s) → dstX o.d word s = .ok ((), s1) →
      ∃ u : State, exec (.fclr o) s = .next u ∧ u.thread.flags = s1.thread.flags &&& ~~~(BitVec.ofNat 7 (i18f o 6 0) ||| a.setWidth 7) ∧
        u.thread.rm = s.thread.rm ∧ u.thread.x = s1.thread.x)) ∧
  (∀ (o : Op) (s : State) (c k : Nat), s.cur = .slot c k → s.thread.guardBit o = true → s.mayRun 0xF7 = true →
    (s.slot c k).satOwed c s.ownDev = true →
    exec (.fget o) s = .next ((s.flushComb c k (fun e => e.tgt.isLocal)).stallCur .remoteReply)) ∧
  (∀ (o : Op) (s : State) (c k : Nat) (a b : BitVec 64), s.calm c k → s.thread.guardBit o = true →
    (s.mayRun 0xF5 = true → ∃ u : State, exec (.ibar o) s = .next u ∧ (u.core c).icache = [] ∧ s.sameMemory u ∧
      u.thread = { s.thread with pc := s.thread.pc + BitVec.ofNat 64 (lenBytes o.len) }) ∧
    (s.mayRun 0xF4 = true → rdReg o.a s = .ok (a, s) → rdReg o.b s = .ok (b, s) →
      (2 ^ 56 ≤ a.toNat ∨ 2 ^ 12 ≤ b.toNat → exec (.plbinv o) s = .next (s.trapCur .illegal (packWord0 0xF4 o))) ∧
      (a.toNat < 2 ^ 56 → b.toNat < 2 ^ 12 → (∀ x b, (s.invalidate x b).accessesUnder x = false) → (o.m.getLsbD 2 = true → ∀ x, s.rowsUnder x = false) →
        (o.m.getLsbD 3 = true → s.l2 = []) →
        ∃ u : State, exec (.plbinv o) s = .next u ∧ s.sameMemory u ∧ u.thread.pc = s.thread.pc + BitVec.ofNat 64 (lenBytes o.len) ∧
          ∀ d, match o.m.toNat % 4 with
            | 0 => ∀ e ∈ (u.core d).plb, e ∈ (s.core d).plb ∧ e.covers b.toNat a.toNat = false
            | 1 => (u.core d).plb = (s.core d).plb.filter (fun e => e.dom != b.toNat)
            | _ => (u.core d).plb = [])))

/-! ### Actors and teams as the keeper and the schedulers move them -/

/-- R341, R367, R370, R375. GKILL retires the member slots of an entry; AEVICT leaves an AWAY mark where the actor was; ARESTORE
sets a slot up from its context; KLAUNCH queues the team that a descriptor describes, or answers why not. The model's choices: the next
handle (log entry 5), the save's address with its low 6 bits dropped (log entry 11), the order of the checks of ARESTORE and KLAUNCH
(log entries 30 and 31), a held sequence's range (log entry 58) and the accesses that a slice holds (log entry 59). -/
def Obligations.ActorInstructions : Prop :=
  ∀ (o : Op) (s : State) (c k : Nat) (a b m : BitVec 64), s.calm c k → s.thread.guardBit o = true → rdReg o.a s = .ok (a, s) →
    let vc := adrCore a.toNat
    let vk := adrSlot a.toNat
    let moves (u : State) : Prop := u.thread.pc = s.thread.pc + BitVec.ofNat 64 (lenBytes o.len)
    (∀ (tm : Team) (r : Fin 32), s.mayRun 0xF9 = true → o.d = .reg r → s.teamOf c k = some tm → a.toNat < tm.ngroup →
      let places := tm.slotPlaces a.toNat
      (∀ x ∈ places, (x.1, x.2.1) ≠ (c, k)) → (∀ x ∈ places, (s.slot x.1 x.2.1).ident.isSome = true → (s.slot x.1 x.2.1).halted = true) →
      ∃ (u : State) (tm' : Team), exec (.gkill o) s = .next u ∧ moves u ∧ u.thread.getX r.val = (if r.val = 0 then 0 else BitVec.ofNat 64 places.length) ∧
        u.team tm.handle = some tm' ∧ ∀ x ∈ places, (x.2.2, x.2.1) ∈ tm'.retired ∧
          ((s.slot x.1 x.2.1).ident = some { team := tm.handle, member := x.2.2, slot := x.2.1 } → x.2.1 < 4 → (s.slot x.1 x.2.1).guest = none →
            (u.slot x.1 x.2.1).ident = none)) ∧
    (∀ tm, s.mayRun 0xF9 = true → s.teamOf c k = some tm → tm.ngroup ≤ a.toNat → exec (.gkill o) s = .next (s.trapCur .domain a)) ∧
    (∀ (i : Ident) (r : Fin 32), s.mayRun 0xFA = true → o.d = .reg r → rdReg o.b s = .ok (b, s) → rdReg o.c s = .ok (m, s) → s.physAddress a = true →
      (vc, vk) ≠ (c, k) → (s.slot vc vk).guest = none → (s.slot vc vk).ident = some i → m.toNat < 2 ^ 16 →
      let sl := s.slot vc vk
      let saved := (List.range 16).filter (fun j => j == sl.act.mbox.toNat || m.getLsbD j)
      m.getLsbD sl.act.mbox.toNat = false → (∀ j, j < 16 → m.getLsbD j = true → s.isMailbox vc j = false) →
      (∀ j ∈ saved, (s.bank vc j).spanned = false) → sl.halted = true → sl.sq = [] → sl.owed = [] → (s.core vc).drains = [] →
      (∀ j ∈ saved, ((s.core vc).withoutSeq vk).held (j * 0x2000) 0x2000 true = false) → (∀ e ∈ sl.ni, e.isFlying = false) →
      (∀ l, ∃ x, s.free.2.writeSave c (s.slot c k).regs.qos.toNat (b.toNat / 64 * 64) l = .ok x) →
      ∃ u : State, exec (.aevict o) s = .next u ∧ moves u ∧ u.thread.getX r.val = (if r.val = 0 then 0 else BitVec.ofNat 64 saved.length) ∧
        u.slot vc vk = { ({} : Slot) with away := some { team := i.team, member := i.member, refused := sl.refused, ovf := sl.ovf } }) ∧
    (∀ (mark : AwayMark) (ctx : List Byte) (s1 : State) (img : Nat → List Byte) (r : Fin 32), s.mayRun 0xFB = true → o.d = .reg r → rdReg o.b s = .ok (b, s) →
      s.physAddress a = true → (vc, vk) ≠ (c, k) → (s.slot vc vk).away = some mark → b.toNat % 64 = 0 → loadSys b.toNat 0x1000 s = .ok (ctx, s1) →
      let w := wordAt ctx 0 8
      bitsOf w 27 12 = mark.team → bitsOf w 39 28 = mark.member → s1.calm c k →
      (∀ j ∈ List.range (maskBanks (bitsOf w 57 42)).length, loadSys (b.toNat + 0x1000 + 0x2A00 * j) 0x2A00 s1 = .ok (img j, s1)) →
      ∃ u : State, exec (.arestore o) s = .next u ∧ moves u ∧ u.thread.getX r.val = 0 ∧
        let t := u.slot vc vk
        t.ident = some { team := mark.team, member := mark.member, slot := vk } ∧ t.away = none ∧ t.refused = mark.refused ∧ t.ovf = mark.ovf ∧
        t.status = (if wordAt ctx 8 8 % 2 = 1 then .ready else .waiting) ∧ t.km = (BitVec.ofNat 64 (wordAt ctx 8 8)).getLsbD 1 ∧
        t.thr.pc = BitVec.ofNat 64 (wordAt ctx 0x10 8) ∧ (∀ n, n < 32 → vget 0 t.thr.x n = BitVec.ofNat 64 (wordAt ctx (0x100 + 8 * n) 8)) ∧
        (∀ n, n < 32 → vget 0 t.v n = BitVec.ofNat 256 (wordAt ctx (0x200 + 32 * n) 32)) ∧
        (∀ n, n < 8 → vget 0 t.thr.p n = BitVec.ofNat 32 (wordAt ctx (0x600 + 4 * n) 4))) ∧
    (s.mayRun 0xFB = true → rdReg o.b s = .ok (b, s) → s.physAddress a = false ∨ (s.slot vc vk).away = none →
      exec (.arestore o) s = .next (s.trapCur .domain a)) ∧
    (∀ (im : Option TeamImage) (s1 : State), s.mayRun 0xFC = true → a.toNat < 2 ^ 56 → a.toNat % 64 = 0 → readTeam a.toNat s = .ok (im, s1) →
      (∀ r t, s1.launchCheck im = .error r → dstX o.d (BitVec.ofNat 64 (2 ^ 63 + r)) s1 = .ok ((), t) →
        exec (.klaunch o) s = .next (t.finish o.len)) ∧
      (∀ tm t, s1.launchCheck im = .ok tm → dstX o.d (BitVec.ofNat 64 tm.handle) { s1 with
          nextId := s1.nextId + 1, nextHandle := (tm.handle + 1) % 65536
          teams := s1.teams.filter (fun x => x.handle != tm.handle) ++ [{ tm with queuedAt := s1.nextId }]
          port := { s1.port with launched := true } } = .ok ((), t) →
        exec (.klaunch o) s = .next (t.finish o.len)))

/-- R174, R328, R364-R366. A pre-emption request asks every slot in its scope to halt; one takes effect at a slot with nothing outstanding,
which is left as it was, once a store fault that waits to be reported (R339) or a restart's fault has been taken; lanes left in an
instruction in progress stay there (log entry 23); its withdrawal lets the slots that no
other request names go on at their boundary, with nothing else of them changed (R366). -/
def Obligations.Preemption : Prop :=
  (∀ (s : State) (scope arg : Nat), scope < 4 → s.port.preempts.contains ⟨scope, arg⟩ = false →
    ∃ u : State, exec (.preemptionRequest scope arg) s = .next u ∧ u.port.preempts = s.port.preempts ++ [⟨scope, arg⟩] ∧
      ∀ c k, k < 4 → s.inScope ⟨scope, arg⟩ c k = true → (u.slot c k).haltReq = true ∧ (u.slot c k).thr = (s.slot c k).thr) ∧
  (∀ (s : State) (scope arg : Nat), s.port.preempts.contains ⟨scope, arg⟩ = true →
    ∃ u : State, exec (.preemptionWithdraw scope arg) s = .next u ∧ u.port.preempts = s.port.preempts.filter (· != ⟨scope, arg⟩) ∧
      ∀ c k, k < 4 → s.inScope ⟨scope, arg⟩ c k = true → (∀ q ∈ s.port.preempts, q ≠ ⟨scope, arg⟩ → s.inScope q c k = false) →
        (s.slot c k).killed = false → (∀ o ∈ (s.slot c k).owed, o.allBack = false) → u.slot c k = { s.slot c k with haltReq := false, halted := false, haltOps := 0, status :=
          match (s.slot c k).status with
          | .stalled w => if (s.slot c k).pend = none ∧ (s.slot c k).awayAt = none then .ready else .stalled w
          | st => st }) ∧
  (∀ (s : State) (c k : Nat), k < 4 → (s.slot c k).haltReq = true → (s.slot c k).comb = [] → (s.slot c k).halted = false → (s.slot c k).ident.isSome = true →
    s.quiet c k = true → (∀ p ∈ s.net, p.src = (c, k) → s.heldInSlice p = false) →
    ((s.slot c k).killed = false → (s.slot c k).sfPending = false → (s.slot c k).seqFault = none → ∃ u : State, exec (.slotHalt c k) s = .next u ∧
      u.slot c k = { s.slot c k with halted := true, pend := match (s.slot c k).pend with | some (.stores r n) => some (.stores r n) | _ => none }) ∧
    (∀ cause v, (s.slot c k).killed = false → (s.slot c k).sfPending = false → (s.slot c k).dying = false → (s.slot c k).seqFault = some (cause, v) →
      (s.slot c k).doubleFault (s.slot c k).thr.pc = false →
      ∃ u : State, exec (.slotHalt c k) s = .next u ∧ (u.slot c k).seqFault = none ∧ (u.slot c k).regs.xcause = cause.word ∧
        (u.slot c k).regs.xval = v ∧ (u.slot c k).thr.pc = (s.slot c k).regs.kvec ∧ (u.slot c k).haltReq = true ∧ (u.slot c k).halted = false) ∧
    (∀ r, (s.slot c k).killed = false → (s.slot c k).dying = false → (s.slot c k).sfrq[(s.slot c k).sfReported]? = some r →
      (s.slot c k).atBoundary = true → (s.slot c k).doubleFault (s.slot c k).thr.pc = false →
      ∃ u : State, exec (.slotHalt c k) s = .next u ∧ (u.slot c k).regs.xcause = 0x106 ∧ (u.slot c k).regs.xval = r.addr ∧
        (u.slot c k).thr.pc = (s.slot c k).regs.kvec ∧ (u.slot c k).haltReq = true ∧ (u.slot c k).halted = false) ∧
    ((s.slot c k).killed = true → ∃ u : State, exec (.slotHalt c k) s = .next u ∧ u.slot c k = {}))

/-- R220, R221, R223, R372-R374. A team that is placed starts with its templates' actors on every member core; one that has ended
leaves its cores empty; a swap keeps each member core and puts it back; a quantum's end changes nothing while no team waits, and asks
no team to leave that has been resident for less than a quantum. -/
def Obligations.TeamEvents : Prop :=
  (∀ (s : State) (h n : Nat) (tm : Team), s.team h = some tm →
    let p := tm.placeOf n
    let becomes (i : Instr) (P : Team → State → Prop) : Prop := ∃ (u : State) (t' : Team), exec i s = .next u ∧ u.team h = some t' ∧ P t' u
    (∀ s1, tm.st = .queued → s.canPlace tm p = true → s.turnOf h = true →
      (List.range tm.size).foldlM (fun s' m => s'.launchCore tm m (tm.coreAt p m) (s.kvecOf tm.domain).1) (s.kvecOf tm.domain).2 = .ok s1 →
      becomes (.teamLaunch h n) (fun t' u => t'.st = .resident ∧ t'.place = some p ∧ t'.since = s.port.count ∧ ∀ m k, m < tm.size → k < 4 →
        match lget none tm.tmpls k with
        | none => u.slot (tm.coreAt p m) k = {}
        | some x =>
          let sl := u.slot (tm.coreAt p m) k
          sl.ident = some { team := tm.handle, member := m, slot := k } ∧ sl.status = .waiting ∧ sl.thr = {} ∧ sl.km = false ∧ sl.firing = none ∧
          sl.act.acode = x.acode ∧ sl.act.abase = x.abase ∧ sl.act.mbox = x.mbox ∧ sl.act.en = x.en ∧ sl.act.soft = x.soft ∧ sl.act.worker = x.worker)) ∧
    (tm.st = .resident → (∀ x ∈ tm.usedSlots, x ∈ tm.retired) → (∀ c ∈ tm.cores, s.coreQuiet c = true) →
      becomes (.teamEnd h) (fun t' u => t'.st = .ended ∧ ∀ c ∈ tm.cores, (u.core c).mem = [] ∧ (u.core c).leg = [] ∧ (u.core c).deque = [] ∧
        (u.core c).mu.en = false ∧ (∀ q, (u.core c).queue q = []))) ∧
    (tm.st = .resident → s.port.preempts.contains { scope := 0, arg := h } = true → (∀ c ∈ tm.cores, s.coreHalted h c = true) →
      becomes (.teamSwapOut h) (fun t' u => t'.st = .swapped ∧ t'.place = none ∧
        (∀ m c, m < tm.size → tm.coreOfMember m = some c → ∃ x, (m, x) ∈ t'.saves ∧ x.mem = (s.core c).mem ∧ x.leg = (s.core c).leg ∧ x.banks = (s.core c).banks) ∧
        (∀ c ∈ tm.cores, (u.core c).mem = [] ∧ ∀ k, k < 4 → u.slot c k = { ({} : Slot) with away := (s.slot c k).swapMark }) ∧
        ∀ q ∈ u.port.preempts, q ≠ { scope := 0, arg := h })) ∧
    (tm.st = .swapped → s.canPlace tm p = true → s.turnOf h = true →
      becomes (.teamSwapIn h n) (fun t' u => t'.st = .resident ∧ t'.place = some p ∧ t'.saves = [] ∧
        ((tm.saves.map Prod.fst).Nodup → (∀ e ∈ tm.saves, e.1 < tm.size) → ∀ e ∈ tm.saves,
          (u.core (tm.coreAt p e.1)).mem = e.2.mem ∧ (u.core (tm.coreAt p e.1)).banks = e.2.banks)))) ∧
  (∀ s : State, s.port.quantumLeft = 0 → (∀ t ∈ s.teams, t.st ≠ .queued ∧ t.st ≠ .swapped) →
    ∃ u : State, exec .quantumExpiry s = .next u ∧ u.port.quantumLeft = s.port.quantum.toNat ∧ u.cores = s.cores ∧
      u.teams = s.teams ∧ u.port.preempts = s.port.preempts) ∧
  (∀ s : State, s.port.quantumLeft = 0 → ∃ u : State, exec .quantumExpiry s = .next u ∧ u.port.quantumLeft = s.port.quantum.toNat ∧
    ∀ q ∈ u.port.preempts, q ∉ s.port.preempts → q.scope = 0 ∧ ∃ t ∈ s.teams, t.handle = q.arg ∧
      s.port.quantum.toNat ≤ (s.port.count - t.since).toNat)

/-! ### The Meridian, the port die and the host -/

/-- R332, R382, R385, R387, R389, R390, R398-R400, R402. Errors and tests, links, lost devices, power, resets, the lapse of ownership.
The model's choices: the form of an error's address (log entry 12), LIMIT and the clocks moving only while rebalancing steps are refused
(log entry 39), the UNIT of a lost device (log entry 40), the numbers of a test's outcomes, the ACTION of a link and the numbers of the
links (log entry 41). -/
def Obligations.DeviceEvents : Prop :=
  (∀ (s : State) (unit addr unc : Nat), let kind := unit / 4096
    let num := unit % 4096
    num < unitCount kind →
    ∃ (u : State) (x : UnitTest), exec (.errorDetected unit addr unc) s = .next u ∧ u.port.tests = s.port.tests ++ [x] ∧ x.kind = kind ∧ x.num = num ∧
      x.addr = BitVec.ofNat 64 addr ∧ (x.unc = true ↔ unc ≠ 0) ∧ (kind = 0 → { scope := 1, arg := num } ∈ u.port.preempts) ∧
      (unc ≠ 0 → kind = 3 → .frame (addr / 64 * 64) ∈ u.poison) ∧ (unc ≠ 0 → kind = 2 → .line (addr / 64 * 64) ∈ u.poison) ∧
      (unc ≠ 0 → 4 ≤ kind → addr < 2 ^ 56 → .line (addr / 64 * 64) ∈ u.poison) ∧ (unc = 0 → u.poison = s.poison)) ∧
  (∀ (s : State) (n outcome : Nat) (x : UnitTest), s.port.tests[n]? = some x →
    ∃ (u : State) (r : ErrRec), exec (.surveyorTestDone n outcome) s = .next u ∧ u.port.tests = ldel s.port.tests n ∧ u.port.errors = lastN 256 (s.port.errors ++ [r]) ∧
      r.unit = BitVec.ofNat 16 (x.kind * 4096 + x.num % 4096) ∧ r.addr = x.addr ∧ r.count = x.count ∧ (r.kind = 1 ↔ x.unc = true) ∧
      r.cls = (if outcome = 0 then 0 else 1) ∧
      r.action = (if outcome = 0 then (if x.unc then 1 else 0) else if outcome = 1 then 2 else if x.kind < 4 then 3 else 0) ∧
      (2 ≤ outcome → x.kind < 4 → (x.kind, x.num) ∈ u.port.retired)) ∧
  (∀ (s : State) (link : Nat), (∃ u : State, exec (.linkRetrain link 0) s = .next u ∧ link ∈ u.port.linksDown) ∧
    ∀ phase, phase ≠ 0 → ∃ u : State, exec (.linkRetrain link phase) s = .next u ∧ link ∉ u.port.linksDown) ∧
  (∀ (s : State) (d : Nat), d < 256 → d ≠ s.ownDev → s.isLost d = false → (∀ p ∈ s.net, p.dev ≠ d) →
    ∃ (u : State) (r : ErrRec), exec (.deviceLost d) s = .next u ∧ u.port.lostDevs = s.port.lostDevs ++ [d] ∧ u.net = s.net ∧
      u.port.errors = lastN 256 (s.port.errors ++ [r]) ∧ r.kind = 3 ∧ r.unit = BitVec.ofNat 16 (0x5000 + d) ∧ r.stores = 0) ∧
  (∀ (s : State) (d : Nat), s.port.own.owner.isSome = true →
    ∃ u : State, exec (.deviceReinstate d) s = .next u ∧ d ∉ u.port.lostDevs ∧ ∀ e ∈ s.port.lostDevs, e ≠ d → e ∈ u.port.lostDevs) ∧
  (∀ (s : State) (arg : Nat), (∃ u : State, exec (.powerLimitAction 0 arg) s = .next u ∧ (u.port.power = true ↔ arg ≠ 0)) ∧
    (s.port.power = true → arg < 4096 → 3300 ≤ (s.core arg).clock →
      ∃ u : State, exec (.powerLimitAction 1 arg) s = .next u ∧ (u.core arg).clock = (s.core arg).clock - 100) ∧
    (s.port.power = true → (∀ c, c < 4096 → (s.core c).clock ≤ 3200) → 0 < arg / 256 → arg / 256 < (s.channel (arg % 256)).limit →
      ∃ u : State, exec (.powerLimitAction 2 arg) s = .next u ∧ (u.channel (arg % 256)).limit = arg / 256)) ∧
  (∀ s : State, (∃ u : State, exec .powerOnReset s = .next u ∧ u.isWiped ∧ u.port.own.owner = none ∧ u.port.lifecycle = s.port.lifecycle) ∧
    ∀ i ∈ [Instr.watchdogReset, Instr.thermalTrip], ∃ u : State, exec i s = .next u ∧ u.isWiped ∧ u.port.own = s.port.own ∧ u.port.leaseCount = 0 ∧
      u.port.lifecycle = s.port.lifecycle) ∧
  (∀ s : State, (∀ w, s.port.own.owner = some w → s.port.own.lease.ult s.port.leaseCount = true →
      ∃ u : State, exec .ownershipLapse s = .next u ∧ u.port.own = { s.port.own with owner := none } ∧ s.samePlant u) ∧
    (s.port.own.lease.ult s.port.leaseCount = false → exec .ownershipLapse s = .next s)) ∧
  (∀ (s : State) (m up : Nat), isMaster m = true → ∃ u : State, exec (.hostLinkDrop m up) s = .next u ∧ s.samePlant u ∧
    (u.port.master m).link = [] ∧ ((u.port.master m).connected = true ↔ up ≠ 0) ∧ (u.port.master m).ring = (s.port.master m).ring)

/-- R387, R393. Of a master that no CLAIM of the present count has just made owner (log entry 13): a command whose number is not
the next of its master is not performed: one that was seen before is answered DUP, one too far ahead GAP with the
last number taken. A payload of more than 4,096 bytes, of a command that the master may send, is MALFORMED. -/
def Obligations.CommandNumbers : Prop :=
  ∀ (s : State) (c : HostCmd), s.heard c.master → (s.port.contest.isSome && s.isOwner c.master) = false →
    let last := (s.port.master c.master).cmdseq
    ∀ f ∈ [Instr.hread, Instr.hwrite, Instr.hsend, Instr.claim, Instr.renew, Instr.yield, Instr.leaseset, Instr.image, Instr.attest, Instr.lcset,
        Instr.partset, Instr.dompart, Instr.traceset, Instr.quantum, Instr.devidset, Instr.replay, Instr.reset],
      (c.seq ≠ last + 1 → (last - c.seq).toNat < 2 ^ 31 → ∃ t : State, exec (f c) s = .next t ∧ s.samePlant t ∧ s.sent t c 2 0 0 0 [] ∧
        (t.port.master c.master).cmdseq = last ∧ t.port.own = s.port.own) ∧
      (c.seq ≠ last + 1 → 2 ^ 31 ≤ (last - c.seq).toNat → ∃ t : State, exec (f c) s = .next t ∧ s.samePlant t ∧ s.sent t c 3 0 last.toNat 0 [] ∧
        (t.port.master c.master).cmdseq = last ∧ t.port.own = s.port.own) ∧
      (c.seq = last + 1 → 4096 < c.len →
        (f = Instr.hread ∨ f = Instr.claim ∨ f = Instr.image ∨ f = Instr.attest ∨ f = Instr.replay ∨ ∃ n, s.port.own.owner = some (c.master, n)) →
        ∃ t : State, exec (f c) s = .next t ∧ s.samePlant t ∧ s.sent t c 1 6 0 0 [] ∧
        (t.port.master c.master).cmdseq = c.seq)

/-- R374, R383, R387-R393, R396, R397, R401. The effect of each command of a master that may give it, with its answer, and a
message to the command actor. Of two CLAIMs in one count the lower master wins. The model's choices: that its answers and the other's
then read so (log entry 13), LCSET's and RESET's answers that stand on the link beside the wipe, which keeps the links (log entry 36),
and PARTSET's steps made in one where no team moves (log entry 38). -/
def Obligations.HostCommands : Prop :=
  (∀ (s : State) (c : HostCmd) (nonce : BitVec 32), s.nextCommand c →
    let u := s.taken c
    let zero : Prop := c.len = 0 ∧ c.a1 = 0 ∧ c.a2 = 0
    let owns : Prop := s.port.own.owner = some (c.master, nonce)
    let range : Prop := c.a0.toNat < 4096 ∧ c.a1.toNat < 2 ^ 56 ∧ 1 ≤ c.a2.toNat ∧ c.a2.toNat ≤ 4096 ∧ c.payload.length = c.len
    let asked : State := (parts64 c.a1.toNat c.a2.toNat).foldl (fun v p => v.portFill c.a0.toNat p.1) u
    (∀ bs s1 s2, range → c.len = 0 → asked.firstDenied c.a0.toNat c.a1.toNat c.a2.toNat false = none →
      asked.firstLost c.a0.toNat c.a1.toNat c.a2.toNat = none → asked.reachAll c.a0.toNat c.a1.toNat c.a2.toNat false = .ok s1 → s1.dirRead c.a0.toNat c.a1.toNat c.a2.toNat = .ok (bs, s2) →
      ∃ t : State, exec (.hread c) s = .next t ∧ s.sent t c 1 0 0 0 bs ∧ t.l2 = s2.l2) ∧
    (∀ s1 s2, range → owns → c.len = c.a2.toNat → asked.firstDenied c.a0.toNat c.a1.toNat c.a2.toNat true = none →
      asked.firstLost c.a0.toNat c.a1.toNat c.a2.toNat = none → asked.reachAll c.a0.toNat c.a1.toNat c.a2.toNat true = .ok s1 → s1.dirWrite c.a0.toNat 65 c.a1.toNat c.payload = .ok s2 →
      ∃ t : State, exec (.hwrite c) s = .next t ∧ t.cores = s2.cores ∧ t.l2 = s2.l2 ∧ t.hbm = s2.hbm ∧ s2.sent t c 1 0 0 0 []) ∧
    (owns → c.len = 32 → c.payload.length = 32 → c.a0.toNat < 2 ^ 28 → c.a1 = 0 → c.a2 = 0 → u.addressOk 0 c.a0.toNat = true →
      ∃ (t : State) (e : NiEntry), exec (.hsend c) s = .next t ∧ t.port.ni = s.port.ni ++ [e] ∧ e.addr = c.a0 ∧ e.msg.payload = bytesBv 256 c.payload ∧ e.msg.dom = 0 ∧
        e.owner = some (c.master, c.seq.toNat)) ∧
    (zero → c.a0.toNat < 2 ^ 32 → s.port.own.owner = none → ∃ t : State, exec (.claim c) s = .next t ∧ s.samePlant t ∧
      t.port.own.owner = some (c.master, c.a0.setWidth 32) ∧ t.port.leaseCount = 0 ∧ s.sent t c 1 0 c.a0.toNat c.master []) ∧
    (∀ m, zero → c.a0.toNat < 2 ^ 32 → s.port.own.owner = some (m, nonce) → m ≠ c.master → s.port.contest = none ∨ m < c.master →
      ∃ t : State, exec (.claim c) s = .next t ∧ s.samePlant t ∧ t.port.own = s.port.own ∧ s.sent t c 1 1 nonce.toNat m []) ∧
    (∀ m claims, zero → c.a0.toNat < 2 ^ 32 → s.port.own.owner = some (m, nonce) → s.port.contest = some claims → c.master < m →
      ∃ (t : State) (e : Event), exec (.claim c) s = .next t ∧ s.samePlant t ∧ t.port.own.owner = some (c.master, c.a0.setWidth 32) ∧
        t.port.leaseCount = 0 ∧ (t.port.master c.master).link.getLast? = some e ∧ e.evt = 1 ∧ e.cseq = c.seq ∧ e.status = 0 ∧
        e.b0 = c.a0 ∧ e.b1 = BitVec.ofNat 64 c.master ∧
        ∀ x ∈ (t.port.master m).ring, x.evt = 1 → (m, x.cseq) ∈ claims → x.status = 1 ∧ x.b0 = c.a0 ∧ x.b1 = BitVec.ofNat 64 c.master) ∧
    (zero → c.a0 = 0 → owns → ∃ t : State, exec (.renew c) s = .next t ∧ s.samePlant t ∧ t.port.leaseCount = 0 ∧ s.sent t c 1 0 0 0 []) ∧
    (zero → c.a0 = 0 → (∀ n, s.port.own.owner ≠ some (c.master, n)) → ∀ f ∈ [Instr.renew, Instr.reset],
      ∃ t : State, exec (f c) s = .next t ∧ s.samePlant t ∧ s.sent t c 1 1 0 0 []) ∧
    (zero → owns → isMaster c.a0.toNat = true → u.port.isConnected c.a0.toNat = true → c.a0.toNat < 2 ^ 16 →
      ∃ t n, exec (.yield c) s = .next t ∧ s.samePlant t ∧ t.port.own.owner = some (c.a0.toNat, n) ∧ s.sent t c 1 0 0 0 []) ∧
    (zero → owns → c.a0 ≠ 0 → ∃ t : State, exec (.leaseset c) s = .next t ∧ s.samePlant t ∧ t.port.own.lease = c.a0 ∧ s.sent t c 1 0 0 0 []) ∧
    (1 ≤ c.len → c.payload.length = c.len → c.a2 = 0 → s.port.running = none → c.a0.toNat = s.port.image.length →
      s.port.image.length + c.len ≤ 0x1000000 →
      (c.a1 = 0 → ∃ t : State, exec (.image c) s = .next t ∧ s.samePlant t ∧ t.port.image = s.port.image ++ c.payload ∧ s.sent t c 1 0 0 0 []) ∧
      (c.a1 = 1 → ∃ t : State, exec (.image c) s = .next t ∧ if verifies (s.port.image ++ c.payload) then
          t.port.running.isSome = true ∧ s.sent t c 1 0 0 0 []
        else s.samePlant t ∧ t.port.image = [] ∧ t.port.running = none ∧ s.sent t c 1 4 0 0 [])) ∧
    (zero → c.a0.toNat < 2 ^ 32 → ∃ t leaf dig, exec (.attest c) s = .next t ∧ s.samePlant t ∧ dig.length = 32 ∧
      (∀ d, s.port.running = some d → dig = bvBytes 32 d) ∧
      let cart := bvBytes 16 Config.serial ++ natToBytes 4 s.port.lifecycle.toNat ++ natToBytes 4 leaf ++ dig ++ List.replicate 8 0
      s.sent t c 1 0 0 0 (cart ++ bvBytes 56 Config.attestKey ++ bvBytes 2508 (Config.attestSignature leaf (cart ++ bvBytes 4 (c.a0.setWidth 32))))) ∧
    (zero → owns → c.a0 = 2 → s.port.lifecycle = 1 → ∃ t : State, exec (.lcset c) s = .next t ∧ t.isWiped ∧ t.port.lifecycle = 2 ∧ s.sent t c 1 0 0 0 []) ∧
    (zero → owns → c.a0 = 2 → s.port.lifecycle ≠ 1 → ∃ t : State, exec (.lcset c) s = .next t ∧ s.samePlant t ∧ t.port.lifecycle = s.port.lifecycle ∧
      s.sent t c 1 2 0 0 []) ∧
    (owns → c.len = 96 → c.payload.length = 96 → c.a0 = 0 → c.a1 = 0 → c.a2 = 0 → s.port.parts = [] →
      let x : PartChange := { map := c.payload, master := c.master, seq := c.seq }
      s.mapBad x = false → s.teamsMoving (s.movingClusters x) = [] → (∀ d, s.accessesUnder (.dom d) = false) →
      (∀ l ∈ s.l2, (s.movingClusters x).contains (l.slice / 16) = true → s.canWriteBack l = true) →
      ∃ t : State, exec (.partset c) s = .next t ∧ t.port.parts = [] ∧ s.sent t c 1 0 0 0 [] ∧
        (∀ j, j < 32 → vget 0 t.port.clusterPart j = (lget 0 c.payload j).setWidth 4 ∧ vget 0 t.port.groupPart j = (lget 0 c.payload (64 + j)).setWidth 4)) ∧
    (c.len = 0 → owns → 1 ≤ c.a0.toNat → c.a0.toNat < 4096 → c.a1.toNat < 16 → c.a2 = 0 → ∃ t : State, exec (.dompart c) s = .next t ∧ s.samePlant t ∧
      aget 0 t.port.domPart c.a0.toNat = c.a1.setWidth 4 ∧ s.sent t c 1 0 0 0 []) ∧
    (zero → owns → c.a0.toNat < 2 ^ 16 → c.a0.getLsbD 0 = false → ∃ t : State, exec (.traceset c) s = .next t ∧ s.samePlant t ∧
      t.port.funnel.enable = c.a0.setWidth 16 ∧ t.port.funnel.toRing = false ∧ s.sent t c 1 0 0 0 []) ∧
    (zero → owns → 1 ≤ c.a0.toNat → c.a0.toNat < 2 ^ 32 → ∃ t : State, exec (.quantum c) s = .next t ∧ s.samePlant t ∧
      t.port.quantum = c.a0.setWidth 32 ∧ s.sent t c 1 0 0 0 []) ∧
    (zero → owns → c.a0.toNat < 256 → s.port.launched = false → ∃ t : State, exec (.devidset c) s = .next t ∧ s.samePlant t ∧
      t.port.devid = some (c.a0.setWidth 8) ∧ s.sent t c 1 0 0 0 []) ∧
    (c.len = 0 → c.a2 = 0 → c.a0.toNat ≤ c.a1.toNat → c.a1.toNat < 2 ^ 31 → (∃ e ∈ (s.port.master c.master).ring, e.seq = c.a0.setWidth 32) →
      let again := (s.port.master c.master).ring.filter (fun e => decide ((e.seq - c.a0.setWidth 32).toNat ≤ c.a1.toNat - c.a0.toNat))
      ∃ (t : State) (e : Event), exec (.replay c) s = .next t ∧ s.samePlant t ∧ e.evt = 1 ∧ e.cseq = c.seq ∧ e.status = 0 ∧
        (t.port.master c.master).link = (s.port.master c.master).link ++ again ++ [e]) ∧
    (zero → c.a0 = 0 → owns → ∃ t : State, exec (.reset c) s = .next t ∧ t.isWiped ∧ t.port.own = s.port.own ∧ t.port.running = none ∧ s.sent t c 1 0 0 0 [])) ∧
  (∀ (s : State) (i entry : Nat) (p : Packet) (m : Msg), s.packetAt i = some p → p.body = .msg m entry → p.dev = s.ownDev → m.dest.getLsbD 27 = true →
    p.core = 0xFFE → s.msgBehind i p = false → m.dest.toNat % 16 = 0 →
    let opc := m.payload.setWidth 16
    let a0 := m.payload.extractLsb' 64 64
    let replied (t : State) (status : Nat) : Prop := ∃ e, e ∈ t.port.ni ∧ e.msg.payload = BitVec.ofNat 256 (opc.toNat + 2 ^ 16 * status)
    (m.dom = 0 → opc = 0x31 → m.payload.extractLsb' 16 48 = 0 → m.payload.extractLsb' 128 128 = 0 → 1 ≤ a0.toNat → a0.toNat < 2 ^ 32 →
      ∃ t : State, exec (.commandActorMessage i) s = .next t ∧ t.port.quantum = a0.setWidth 32 ∧ replied t 0) ∧
    (m.dom ≠ 0 → ∃ t : State, exec (.commandActorMessage i) s = .next t ∧ t.port.quantum = s.port.quantum ∧ replied t 2))

/-! ### The machine -/

/-- R32, R157, R390. What reset leaves: the values the spec states (the others are choices of log entry 2, and no clause
speaks of them). -/
def Obligations.ResetState : Prop :=
  let s := State.reset
  (∀ c k : Nat, k < 4 →
    let sl := s.slot c k
    sl.status = .idle ∧ (∀ n, sl.thr.getX n = 0) ∧ (∀ n, n ≠ 0 → sl.thr.getP n = 0) ∧ sl.thr.getP 0 = BitVec.allOnes 32 ∧
    (∀ n : Fin 32, sl.v[n] = 0) ∧ sl.thr.rm = 0 ∧ sl.thr.flags = 0 ∧ sl.regs.bst = 0 ∧ sl.unacked = [] ∧ sl.regs.livev = 0 ∧
    sl.regs.xpc = 0 ∧ sl.regs.xcause = 0 ∧ sl.regs.xval = 0 ∧ sl.regs.infiring = false ∧ sl.regs.prevk = false ∧
    sl.regs.vlost = 0 ∧ sl.regs.vwake = false ∧ sl.regs.gslot = 0 ∧ sl.regs.vuseN = 3 ∧ sl.regs.vuseMode = false ∧
    sl.regs.qos = 0 ∧ sl.regs.qwaitLimit = 0xFFFFFFFF) ∧
  (∀ c : Nat, (s.core c).cyc = 0 ∧ (s.core c).mem = [] ∧ (s.core c).leg = [] ∧
    (∀ q, q < 8 → (s.core c).queue q = []) ∧ (∀ b, b < 16 → (s.bank c b).pers = 0) ∧
    (s.core c).mu.queue = [] ∧ (s.core c).mu.mseq = 0 ∧ (s.core c).mu.en = false) ∧
  (∀ n : Nat, (s.svc n).mem = [] ∧ (s.svc n).leg = [] ∧ (s.svc n).status = .free) ∧
  s.isWiped ∧ s.port.own.owner = none ∧ s.port.running = none ∧
  (∀ m, (s.port.master m).cmdseq = 0 ∧ (s.port.master m).evseq = 0)

/-- R7, R33-R35, R46, R47. A granted step fetches at the agent's program counter, decodes, and answers what exec answers for
the instruction that the bytes spell; bytes that spell none raise ILLEGAL or BOUNDARY. A step that is not granted takes the
first turn of the agenda: an event or a command of the host runs as exec says. -/
def Obligations.StepRunsDecoded : Prop :=
  (∀ (s s1 : State) (c k : Nat) (bs : List Byte), s.granted = true → s.cur = .slot c k → c < 4096 → k < 4 →
    ((s.slot c k).sfPending && !(s.slot c k).draining) = false → (s.slot c k).seqFault = none → s.guardStalls c k = false →
    fetchBytes { s with granted := false } = .ok (bs, s1) → s1.cur = s.cur →
    (∀ (i : Instr) (n code : Nat) (o : Op) (r : Row), decodeBlock .core bs = .ok (i, n) → opOf i = some (code, o) →
      rowOf code = some r →
      (s1.allowed r = true → s1.breakHits c k s1.thread.pc = [] → step s = exec i s1) ∧
      (s1.allowed r = false → step s = .next (s1.trapCur .illegal (packWord0 code o)))) ∧
    (∀ v, decodeBlock .core bs = .error (.illegal v) → step s = .next (s1.trapCur .illegal v)) ∧
    (∀ v, decodeBlock .core bs = .error (.boundary v) → step s = .next (s1.trapCur .boundary v))) ∧
  (∀ (s : State) (c k : Nat) (cb : CodeBlock), s.cur = .slot c k →
    let pc := s.thread.pc.toNat
    (s.core c).icache.find? (fun b => b.block == pc / 32 * 32 && b.dom == s.checkDom c k) = some cb → s.poison = [] →
    fetchBytes s = .ok ((bvBytes 32 cb.data).drop (pc % 32), s)) ∧
  (∀ (s s1 : State) (n : Nat) (bs : List Byte), s.granted = true → s.cur = .svc n → n < 256 →
    fetchBytes { s with granted := false } = .ok (bs, s1) → s1.cur = s.cur →
    (∀ (i : Instr) (l code : Nat) (o : Op) (r : Row), decodeBlock .deep bs = .ok (i, l) → opOf i = some (code, o) → rowOf code = some r →
      r.deep = true → step s = exec i s1) ∧
    (∀ v, decodeBlock .deep bs = .error (.illegal v) → step s = .next (s1.trapCur .illegal v)) ∧
    (∀ v, decodeBlock .deep bs = .error (.boundary v) → step s = .next (s1.trapCur .boundary v))) ∧
  (∀ (s : State) (n : Nat), s.cur = .svc n →
    let pc := s.thread.pc.toNat
    let a := pc / 32 * 32
    (∀ bs, (s.svc n).code = some (a, bs) → fetchBytes s = .ok (bs.drop (pc % 32), s)) ∧
    (pc < 0x40000 → (s.svc n).rowHeld a 32 false = false → s.poison = [] → (∀ b, (s.svc n).code = some b → b.1 ≠ a) →
      let bs := Mem.readN (s.svc n).mem a 32
      fetchBytes s = .ok (bs.drop (pc % 32), s.modSvc n (fun v => { v with code := some (a, bs) })))) ∧
  (∀ (s : State) (rest : List Turn), s.granted = false →
    (∀ i, s.agenda = .event i :: rest → opOf i = none → step s = exec i { s with agenda := rest }) ∧
    (∀ cmd, s.agenda = .host cmd :: rest → s.masterUp cmd.master = true → s.port.held = [] →
      ∀ e ∈ [(0x01, Instr.hread cmd), (0x02, .hwrite cmd), (0x03, .hsend cmd), (0x10, .claim cmd), (0x11, .renew cmd),
        (0x12, .yield cmd), (0x13, .leaseset cmd), (0x20, .image cmd), (0x21, .attest cmd), (0x22, .lcset cmd),
        (0x23, .partset cmd), (0x24, .dompart cmd), (0x30, .traceset cmd), (0x31, .quantum cmd), (0x32, .devidset cmd),
        (0x40, .replay cmd), (0x41, .reset cmd)],
        cmd.opc.toNat = e.1 → step s = exec e.2 { s with agenda := rest }))

/-! ### Encodings -/

/-- R37-R45. Words that the spec spells out decode to the instructions it says they are. -/
def Obligations.WorkedWords : Prop :=
  ∀ e ∈ workedWords, decodeBlock e.1 (natToBytes 8 e.2.1) = .ok (e.2.2, 8)

/-- R33, R37-R46. Decoding the bytes of any well-formed instruction, whatever follows them, gives it back with its length. -/
def Obligations.EncodeThenDecode : Prop :=
  ∀ (prof : Profile) (i : Instr), i.wf prof = true → (opOf i).isSome = true →
    ∃ bs, encode i = some bs ∧ ∀ rest, decodeBlock prof (bs ++ rest) = .ok (i, bs.length)

/-- R33, R37-R46. Whatever bytes decode to is well formed, and its encoding is those bytes: no two words of one length are one
instruction, and no bit is ignored. -/
def Obligations.DecodeThenEncode : Prop :=
  ∀ (prof : Profile) (bs : List Byte) (i : Instr) (n : Nat), decodeBlock prof bs = .ok (i, n) →
    i.wf prof = true ∧ encode i = some (bs.take n)
end

