-- ==== Sys2Proof/Laws/Exec.lean ====
section
/-! SUPPORT. The meaning that `exec` gives each instruction, one equation a constructor. -/

namespace Sys2Proof.Machine

theorem exec_add (o : Op) (s : State) : exec (.add o) s = execAdd o s := rfl
theorem exec_sub (o : Op) (s : State) : exec (.sub o) s = execSub o s := rfl
theorem exec_mul (o : Op) (s : State) : exec (.mul o) s = execMul o s := rfl
theorem exec_mulh (o : Op) (s : State) : exec (.mulh o) s = execMulh o s := rfl
theorem exec_mulhn (o : Op) (s : State) : exec (.mulhn o) s = execMulhn o s := rfl
theorem exec_div (o : Op) (s : State) : exec (.div o) s = execDiv o s := rfl
theorem exec_divn (o : Op) (s : State) : exec (.divn o) s = execDivn o s := rfl
theorem exec_rem (o : Op) (s : State) : exec (.rem o) s = execRem o s := rfl
theorem exec_remn (o : Op) (s : State) : exec (.remn o) s = execRemn o s := rfl
theorem exec_and (o : Op) (s : State) : exec (.and o) s = execAnd o s := rfl
theorem exec_or (o : Op) (s : State) : exec (.or o) s = execOr o s := rfl
theorem exec_xor (o : Op) (s : State) : exec (.xor o) s = execXor o s := rfl
theorem exec_andn (o : Op) (s : State) : exec (.andn o) s = execAndn o s := rfl
theorem exec_orn (o : Op) (s : State) : exec (.orn o) s = execOrn o s := rfl
theorem exec_shl (o : Op) (s : State) : exec (.shl o) s = execShl o s := rfl
theorem exec_shr (o : Op) (s : State) : exec (.shr o) s = execShr o s := rfl
theorem exec_sra (o : Op) (s : State) : exec (.sra o) s = execSra o s := rfl
theorem exec_rol (o : Op) (s : State) : exec (.rol o) s = execRol o s := rfl
theorem exec_ror (o : Op) (s : State) : exec (.ror o) s = execRor o s := rfl
theorem exec_min (o : Op) (s : State) : exec (.min o) s = execMin o s := rfl
theorem exec_max (o : Op) (s : State) : exec (.max o) s = execMax o s := rfl
theorem exec_minn (o : Op) (s : State) : exec (.minn o) s = execMinn o s := rfl
theorem exec_maxn (o : Op) (s : State) : exec (.maxn o) s = execMaxn o s := rfl
theorem exec_clz (o : Op) (s : State) : exec (.clz o) s = execClz o s := rfl
theorem exec_ctz (o : Op) (s : State) : exec (.ctz o) s = execCtz o s := rfl
theorem exec_popc (o : Op) (s : State) : exec (.popc o) s = execPopc o s := rfl
theorem exec_brev (o : Op) (s : State) : exec (.brev o) s = execBrev o s := rfl
theorem exec_bswap (o : Op) (s : State) : exec (.bswap o) s = execBswap o s := rfl
theorem exec_bext (o : Op) (s : State) : exec (.bext o) s = execBext o s := rfl
theorem exec_bins (o : Op) (s : State) : exec (.bins o) s = execBins o s := rfl
theorem exec_sel (o : Op) (s : State) : exec (.sel o) s = execSel o s := rfl
theorem exec_setCond (o : Op) (s : State) : exec (.setCond o) s = execSetCond o s := rfl
theorem exec_pset (o : Op) (s : State) : exec (.pset o) s = execPset o s := rfl
theorem exec_pand (o : Op) (s : State) : exec (.pand o) s = execPand o s := rfl
theorem exec_por (o : Op) (s : State) : exec (.por o) s = execPor o s := rfl
theorem exec_pxor (o : Op) (s : State) : exec (.pxor o) s = execPxor o s := rfl
theorem exec_pnot (o : Op) (s : State) : exec (.pnot o) s = execPnot o s := rfl
theorem exec_li (o : Op) (s : State) : exec (.li o) s = execLi o s := rfl
theorem exec_lea (o : Op) (s : State) : exec (.lea o) s = execLea o s := rfl
theorem exec_mkaddr (o : Op) (s : State) : exec (.mkaddr o) s = execMkaddr o s := rfl
theorem exec_mkact (o : Op) (s : State) : exec (.mkact o) s = execMkact o s := rfl
theorem exec_ext (o : Op) (s : State) : exec (.ext o) s = execExt o s := rfl
theorem exec_br (o : Op) (s : State) : exec (.br o) s = execBr o s := rfl
theorem exec_jRelative (o : Op) (s : State) : exec (.jRelative o) s = execJRelative o s := rfl
theorem exec_jAbsolute (o : Op) (s : State) : exec (.jAbsolute o) s = execJAbsolute o s := rfl
theorem exec_jalRelative (o : Op) (s : State) : exec (.jalRelative o) s = execJalRelative o s := rfl
theorem exec_jalAbsolute (o : Op) (s : State) : exec (.jalAbsolute o) s = execJalAbsolute o s := rfl
theorem exec_jr (o : Op) (s : State) : exec (.jr o) s = execJr o s := rfl
theorem exec_jalr (o : Op) (s : State) : exec (.jalr o) s = execJalr o s := rfl
theorem exec_loop (o : Op) (s : State) : exec (.loop o) s = execLoop o s := rfl
theorem exec_loopc (o : Op) (s : State) : exec (.loopc o) s = execLoopc o s := rfl
theorem exec_nop (o : Op) (s : State) : exec (.nop o) s = execNop o s := rfl
theorem exec_brk (o : Op) (s : State) : exec (.brk o) s = execBrk o s := rfl
theorem exec_fadd (o : Op) (s : State) : exec (.fadd o) s = execFadd o s := rfl
theorem exec_fsub (o : Op) (s : State) : exec (.fsub o) s = execFsub o s := rfl
theorem exec_fmul (o : Op) (s : State) : exec (.fmul o) s = execFmul o s := rfl
theorem exec_ffma (o : Op) (s : State) : exec (.ffma o) s = execFfma o s := rfl
theorem exec_fdiv (o : Op) (s : State) : exec (.fdiv o) s = execFdiv o s := rfl
theorem exec_fsqrt (o : Op) (s : State) : exec (.fsqrt o) s = execFsqrt o s := rfl
theorem exec_fmin (o : Op) (s : State) : exec (.fmin o) s = execFmin o s := rfl
theorem exec_fmax (o : Op) (s : State) : exec (.fmax o) s = execFmax o s := rfl
theorem exec_fcmp (o : Op) (s : State) : exec (.fcmp o) s = execFcmp o s := rfl
theorem exec_fcvt (o : Op) (s : State) : exec (.fcvt o) s = execFcvt o s := rfl
theorem exec_fclass (o : Op) (s : State) : exec (.fclass o) s = execFclass o s := rfl
theorem exec_fsgn (o : Op) (s : State) : exec (.fsgn o) s = execFsgn o s := rfl
theorem exec_ld (o : Op) (s : State) : exec (.ld o) s = execLd o s := rfl
theorem exec_st (o : Op) (s : State) : exec (.st o) s = execSt o s := rfl
theorem exec_ldp (o : Op) (s : State) : exec (.ldp o) s = execLdp o s := rfl
theorem exec_stp (o : Op) (s : State) : exec (.stp o) s = execStp o s := rfl
theorem exec_vld (o : Op) (s : State) : exec (.vld o) s = execVld o s := rfl
theorem exec_vst (o : Op) (s : State) : exec (.vst o) s = execVst o s := rfl
theorem exec_vlds (o : Op) (s : State) : exec (.vlds o) s = execVlds o s := rfl
theorem exec_vsts (o : Op) (s : State) : exec (.vsts o) s = execVsts o s := rfl
theorem exec_lgld (o : Op) (s : State) : exec (.lgld o) s = execLgld o s := rfl
theorem exec_lgst (o : Op) (s : State) : exec (.lgst o) s = execLgst o s := rfl
theorem exec_pref (o : Op) (s : State) : exec (.pref o) s = execPref o s := rfl
theorem exec_fence (o : Op) (s : State) : exec (.fence o) s = execFence o s := rfl
theorem exec_drain (o : Op) (s : State) : exec (.drain o) s = execDrain o s := rfl
theorem exec_amadd (o : Op) (s : State) : exec (.amadd o) s = execAmadd o s := rfl
theorem exec_amand (o : Op) (s : State) : exec (.amand o) s = execAmand o s := rfl
theorem exec_amor (o : Op) (s : State) : exec (.amor o) s = execAmor o s := rfl
theorem exec_amxor (o : Op) (s : State) : exec (.amxor o) s = execAmxor o s := rfl
theorem exec_ammin (o : Op) (s : State) : exec (.ammin o) s = execAmmin o s := rfl
theorem exec_ammax (o : Op) (s : State) : exec (.ammax o) s = execAmmax o s := rfl
theorem exec_amminn (o : Op) (s : State) : exec (.amminn o) s = execAmminn o s := rfl
theorem exec_ammaxn (o : Op) (s : State) : exec (.ammaxn o) s = execAmmaxn o s := rfl
theorem exec_amswap (o : Op) (s : State) : exec (.amswap o) s = execAmswap o s := rfl
theorem exec_amcas (o : Op) (s : State) : exec (.amcas o) s = execAmcas o s := rfl
theorem exec_amfadd (o : Op) (s : State) : exec (.amfadd o) s = execAmfadd o s := rfl
theorem exec_vadd (o : Op) (s : State) : exec (.vadd o) s = execVadd o s := rfl
theorem exec_vsub (o : Op) (s : State) : exec (.vsub o) s = execVsub o s := rfl
theorem exec_vmul (o : Op) (s : State) : exec (.vmul o) s = execVmul o s := rfl
theorem exec_vmulh (o : Op) (s : State) : exec (.vmulh o) s = execVmulh o s := rfl
theorem exec_vand (o : Op) (s : State) : exec (.vand o) s = execVand o s := rfl
theorem exec_vor (o : Op) (s : State) : exec (.vor o) s = execVor o s := rfl
theorem exec_vxor (o : Op) (s : State) : exec (.vxor o) s = execVxor o s := rfl
theorem exec_vshl (o : Op) (s : State) : exec (.vshl o) s = execVshl o s := rfl
theorem exec_vshr (o : Op) (s : State) : exec (.vshr o) s = execVshr o s := rfl
theorem exec_vsra (o : Op) (s : State) : exec (.vsra o) s = execVsra o s := rfl
theorem exec_vmin (o : Op) (s : State) : exec (.vmin o) s = execVmin o s := rfl
theorem exec_vmax (o : Op) (s : State) : exec (.vmax o) s = execVmax o s := rfl
theorem exec_vabs (o : Op) (s : State) : exec (.vabs o) s = execVabs o s := rfl
theorem exec_vfadd (o : Op) (s : State) : exec (.vfadd o) s = execVfadd o s := rfl
theorem exec_vfsub (o : Op) (s : State) : exec (.vfsub o) s = execVfsub o s := rfl
theorem exec_vfmul (o : Op) (s : State) : exec (.vfmul o) s = execVfmul o s := rfl
theorem exec_vfma (o : Op) (s : State) : exec (.vfma o) s = execVfma o s := rfl
theorem exec_vfmin (o : Op) (s : State) : exec (.vfmin o) s = execVfmin o s := rfl
theorem exec_vfmax (o : Op) (s : State) : exec (.vfmax o) s = execVfmax o s := rfl
theorem exec_vfdiv (o : Op) (s : State) : exec (.vfdiv o) s = execVfdiv o s := rfl
theorem exec_vfsqrt (o : Op) (s : State) : exec (.vfsqrt o) s = execVfsqrt o s := rfl
theorem exec_vexp2 (o : Op) (s : State) : exec (.vexp2 o) s = execVexp2 o s := rfl
theorem exec_vlog2 (o : Op) (s : State) : exec (.vlog2 o) s = execVlog2 o s := rfl
theorem exec_vrcp (o : Op) (s : State) : exec (.vrcp o) s = execVrcp o s := rfl
theorem exec_vrsq (o : Op) (s : State) : exec (.vrsq o) s = execVrsq o s := rfl
theorem exec_vcmp (o : Op) (s : State) : exec (.vcmp o) s = execVcmp o s := rfl
theorem exec_vfcmp (o : Op) (s : State) : exec (.vfcmp o) s = execVfcmp o s := rfl
theorem exec_vsel (o : Op) (s : State) : exec (.vsel o) s = execVsel o s := rfl
theorem exec_vbcast (o : Op) (s : State) : exec (.vbcast o) s = execVbcast o s := rfl
theorem exec_vext (o : Op) (s : State) : exec (.vext o) s = execVext o s := rfl
theorem exec_vins (o : Op) (s : State) : exec (.vins o) s = execVins o s := rfl
theorem exec_vperm (o : Op) (s : State) : exec (.vperm o) s = execVperm o s := rfl
theorem exec_vslide (o : Op) (s : State) : exec (.vslide o) s = execVslide o s := rfl
theorem exec_vredadd (o : Op) (s : State) : exec (.vredadd o) s = execVredadd o s := rfl
theorem exec_vredmax (o : Op) (s : State) : exec (.vredmax o) s = execVredmax o s := rfl
theorem exec_vredmin (o : Op) (s : State) : exec (.vredmin o) s = execVredmin o s := rfl
theorem exec_vfred (o : Op) (s : State) : exec (.vfred o) s = execVfred o s := rfl
theorem exec_vcvt (o : Op) (s : State) : exec (.vcvt o) s = execVcvt o s := rfl
theorem exec_vamax (o : Op) (s : State) : exec (.vamax o) s = execVamax o s := rfl
theorem exec_vscaleq (o : Op) (s : State) : exec (.vscaleq o) s = execVscaleq o s := rfl
theorem exec_vquant (o : Op) (s : State) : exec (.vquant o) s = execVquant o s := rfl
theorem exec_vdeq (o : Op) (s : State) : exec (.vdeq o) s = execVdeq o s := rfl
theorem exec_vpopc (o : Op) (s : State) : exec (.vpopc o) s = execVpopc o s := rfl
theorem exec_vpfx (o : Op) (s : State) : exec (.vpfx o) s = execVpfx o s := rfl
theorem exec_vcompr (o : Op) (s : State) : exec (.vcompr o) s = execVcompr o s := rfl
theorem exec_vexpnd (o : Op) (s : State) : exec (.vexpnd o) s = execVexpnd o s := rfl
theorem exec_vgath (o : Op) (s : State) : exec (.vgath o) s = execVgath o s := rfl
theorem exec_vscat (o : Op) (s : State) : exec (.vscat o) s = execVscat o s := rfl
theorem exec_bpers (o : Op) (s : State) : exec (.bpers o) s = execBpers o s := rfl
theorem exec_bspan (o : Op) (s : State) : exec (.bspan o) s = execBspan o s := rfl
theorem exec_bput (o : Op) (s : State) : exec (.bput o) s = execBput o s := rfl
theorem exec_bputu (o : Op) (s : State) : exec (.bputu o) s = execBputu o s := rfl
theorem exec_bget (o : Op) (s : State) : exec (.bget o) s = execBget o s := rfl
theorem exec_bpeek (o : Op) (s : State) : exec (.bpeek o) s = execBpeek o s := rfl
theorem exec_btake (o : Op) (s : State) : exec (.btake o) s = execBtake o s := rfl
theorem exec_bfind (o : Op) (s : State) : exec (.bfind o) s = execBfind o s := rfl
theorem exec_binc (o : Op) (s : State) : exec (.binc o) s = execBinc o s := rfl
theorem exec_bcnt (o : Op) (s : State) : exec (.bcnt o) s = execBcnt o s := rfl
theorem exec_bclr (o : Op) (s : State) : exec (.bclr o) s = execBclr o s := rfl
theorem exec_blatch (o : Op) (s : State) : exec (.blatch o) s = execBlatch o s := rfl
theorem exec_bstat (o : Op) (s : State) : exec (.bstat o) s = execBstat o s := rfl
theorem exec_send (o : Op) (s : State) : exec (.send o) s = execSend o s := rfl
theorem exec_chcnt (o : Op) (s : State) : exec (.chcnt o) s = execChcnt o s := rfl
theorem exec_chdrop (o : Op) (s : State) : exec (.chdrop o) s = execChdrop o s := rfl
theorem exec_hen (o : Op) (s : State) : exec (.hen o) s = execHen o s := rfl
theorem exec_hdis (o : Op) (s : State) : exec (.hdis o) s = execHdis o s := rfl
theorem exec_hset (o : Op) (s : State) : exec (.hset o) s = execHset o s := rfl
theorem exec_done (o : Op) (s : State) : exec (.done o) s = execDone o s := rfl
theorem exec_fork (o : Op) (s : State) : exec (.fork o) s = execFork o s := rfl
theorem exec_tend (o : Op) (s : State) : exec (.tend o) s = execTend o s := rfl
theorem exec_bar (o : Op) (s : State) : exec (.bar o) s = execBar o s := rfl
theorem exec_bara (o : Op) (s : State) : exec (.bara o) s = execBara o s := rfl
theorem exec_barw (o : Op) (s : State) : exec (.barw o) s = execBarw o s := rfl
theorem exec_self (o : Op) (s : State) : exec (.self o) s = execSelf o s := rfl
theorem exec_mlda (o : Op) (s : State) : exec (.mlda o) s = execMlda o s := rfl
theorem exec_mldb (o : Op) (s : State) : exec (.mldb o) s = execMldb o s := rfl
theorem exec_mldbs (o : Op) (s : State) : exec (.mldbs o) s = execMldbs o s := rfl
theorem exec_mzero (o : Op) (s : State) : exec (.mzero o) s = execMzero o s := rfl
theorem exec_mmul (o : Op) (s : State) : exec (.mmul o) s = execMmul o s := rfl
theorem exec_mmuls (o : Op) (s : State) : exec (.mmuls o) s = execMmuls o s := rfl
theorem exec_mgemm (o : Op) (s : State) : exec (.mgemm o) s = execMgemm o s := rfl
theorem exec_mdrain (o : Op) (s : State) : exec (.mdrain o) s = execMdrain o s := rfl
theorem exec_mchain (o : Op) (s : State) : exec (.mchain o) s = execMchain o s := rfl
theorem exec_mst (o : Op) (s : State) : exec (.mst o) s = execMst o s := rfl
theorem exec_msync (o : Op) (s : State) : exec (.msync o) s = execMsync o s := rfl
theorem exec_mstat (o : Op) (s : State) : exec (.mstat o) s = execMstat o s := rfl
theorem exec_jobCopy (o : Op) (s : State) : exec (.jobCopy o) s = execJobCopy o s := rfl
theorem exec_jobGather (o : Op) (s : State) : exec (.jobGather o) s = execJobGather o s := rfl
theorem exec_jobScatter (o : Op) (s : State) : exec (.jobScatter o) s = execJobScatter o s := rfl
theorem exec_jobReduce (o : Op) (s : State) : exec (.jobReduce o) s = execJobReduce o s := rfl
theorem exec_jobBcast (o : Op) (s : State) : exec (.jobBcast o) s = execJobBcast o s := rfl
theorem exec_gather (o : Op) (s : State) : exec (.gather o) s = execGather o s := rfl
theorem exec_srec (o : Op) (s : State) : exec (.srec o) s = execSrec o s := rfl
theorem exec_sstart (o : Op) (s : State) : exec (.sstart o) s = execSstart o s := rfl
theorem exec_sstop (o : Op) (s : State) : exec (.sstop o) s = execSstop o s := rfl
theorem exec_qcnt (o : Op) (s : State) : exec (.qcnt o) s = execQcnt o s := rfl
theorem exec_qflush (o : Op) (s : State) : exec (.qflush o) s = execQflush o s := rfl
theorem exec_deep (o : Op) (s : State) : exec (.deep o) s = execDeep o s := rfl
theorem exec_rdrow (o : Op) (s : State) : exec (.rdrow o) s = execRdrow o s := rfl
theorem exec_wrrow (o : Op) (s : State) : exec (.wrrow o) s = execWrrow o s := rfl
theorem exec_scanrow (o : Op) (s : State) : exec (.scanrow o) s = execScanrow o s := rfl
theorem exec_dot16 (o : Op) (s : State) : exec (.dot16 o) s = execDot16 o s := rfl
theorem exec_dend (o : Op) (s : State) : exec (.dend o) s = execDend o s := rfl
theorem exec_dyield (o : Op) (s : State) : exec (.dyield o) s = execDyield o s := rfl
theorem exec_darg (o : Op) (s : State) : exec (.darg o) s = execDarg o s := rfl
theorem exec_sget (o : Op) (s : State) : exec (.sget o) s = execSget o s := rfl
theorem exec_sset (o : Op) (s : State) : exec (.sset o) s = execSset o s := rfl
theorem exec_trap (o : Op) (s : State) : exec (.trap o) s = execTrap o s := rfl
theorem exec_kret (o : Op) (s : State) : exec (.kret o) s = execKret o s := rfl
theorem exec_plbinv (o : Op) (s : State) : exec (.plbinv o) s = execPlbinv o s := rfl
theorem exec_ibar (o : Op) (s : State) : exec (.ibar o) s = execIbar o s := rfl
theorem exec_cyc (o : Op) (s : State) : exec (.cyc o) s = execCyc o s := rfl
theorem exec_fget (o : Op) (s : State) : exec (.fget o) s = execFget o s := rfl
theorem exec_fclr (o : Op) (s : State) : exec (.fclr o) s = execFclr o s := rfl
theorem exec_gkill (o : Op) (s : State) : exec (.gkill o) s = execGkill o s := rfl
theorem exec_aevict (o : Op) (s : State) : exec (.aevict o) s = execAevict o s := rfl
theorem exec_arestore (o : Op) (s : State) : exec (.arestore o) s = execArestore o s := rfl
theorem exec_klaunch (o : Op) (s : State) : exec (.klaunch o) s = execKlaunch o s := rfl
theorem exec_travpop (o : Op) (s : State) : exec (.travpop o) s = execTravpop o s := rfl
theorem exec_sfrqpop (o : Op) (s : State) : exec (.sfrqpop o) s = execSfrqpop o s := rfl
theorem exec_samppop (o : Op) (s : State) : exec (.samppop o) s = execSamppop o s := rfl
theorem exec_mseqWrite (o : Op) (s : State) : exec (.mseqWrite o) s = execMseqWrite o s := rfl
theorem exec_munitWrite (o : Op) (s : State) : exec (.munitWrite o) s = execMunitWrite o s := rfl
theorem exec_travctlWrite (o : Op) (s : State) : exec (.travctlWrite o) s = execTravctlWrite o s := rfl
theorem exec_sampctlWrite (o : Op) (s : State) : exec (.sampctlWrite o) s = execSampctlWrite o s := rfl
theorem exec_amodeWrite (o : Op) (s : State) : exec (.amodeWrite o) s = execAmodeWrite o s := rfl
theorem exec_vuseWrite (o : Op) (s : State) : exec (.vuseWrite o) s = execVuseWrite o s := rfl
theorem exec_cmpctlWrite (o : Op) (s : State) : exec (.cmpctlWrite o) s = execCmpctlWrite o s := rfl
theorem exec_strecWrite (o : Op) (s : State) : exec (.strecWrite o) s = execStrecWrite o s := rfl
theorem exec_qosbudWrite (o : Op) (s : State) : exec (.qosbudWrite o) s = execQosbudWrite o s := rfl
theorem exec_darbWrite (o : Op) (s : State) : exec (.darbWrite o) s = execDarbWrite o s := rfl
theorem exec_forcedIssue (core : Nat) (s : State) : exec (.forcedIssue core) s = execForcedIssue core s := rfl
theorem exec_firingStart (core slot : Nat) (s : State) : exec (.firingStart core slot) s = execFiringStart core slot s := rfl
theorem exec_taskTake (core slot : Nat) (s : State) : exec (.taskTake core slot) s = execTaskTake core slot s := rfl
theorem exec_stealWaitExpiry (core slot : Nat) (s : State) : exec (.stealWaitExpiry core slot) s = execStealWaitExpiry core slot s := rfl
theorem exec_qstall (core slot : Nat) (s : State) : exec (.qstall core slot) s = execQstall core slot s := rfl
theorem exec_vectorWake (core slot : Nat) (s : State) : exec (.vectorWake core slot) s = execVectorWake core slot s := rfl
theorem exec_messageArrival (i : Nat) (s : State) : exec (.messageArrival i) s = execMessageArrival i s := rfl
theorem exec_sendLaunch (unit n : Nat) (s : State) : exec (.sendLaunch unit n) s = execSendLaunch unit n s := rfl
theorem exec_messageAnswer (i : Nat) (s : State) : exec (.messageAnswer i) s = execMessageAnswer i s := rfl
theorem exec_returnDelivery (unit n : Nat) (s : State) : exec (.returnDelivery unit n) s = execReturnDelivery unit n s := rfl
theorem exec_retryBackoffExpiry (unit n : Nat) (s : State) : exec (.retryBackoffExpiry unit n) s = execRetryBackoffExpiry unit n s := rfl
theorem exec_remoteStoreArrival (i : Nat) (s : State) : exec (.remoteStoreArrival i) s = execRemoteStoreArrival i s := rfl
theorem exec_storeAck (i : Nat) (s : State) : exec (.storeAck i) s = execStoreAck i s := rfl
theorem exec_remoteLoadArrival (i : Nat) (s : State) : exec (.remoteLoadArrival i) s = execRemoteLoadArrival i s := rfl
theorem exec_loadReply (i : Nat) (s : State) : exec (.loadReply i) s = execLoadReply i s := rfl
theorem exec_remoteBankOpArrival (i : Nat) (s : State) : exec (.remoteBankOpArrival i) s = execRemoteBankOpArrival i s := rfl
theorem exec_bankOpReply (i : Nat) (s : State) : exec (.bankOpReply i) s = execBankOpReply i s := rfl
theorem exec_atomicArrival (i : Nat) (s : State) : exec (.atomicArrival i) s = execAtomicArrival i s := rfl
theorem exec_atomicReply (i : Nat) (s : State) : exec (.atomicReply i) s = execAtomicReply i s := rfl
theorem exec_storeLeavesQueue (core slot : Nat) (s : State) : exec (.storeLeavesQueue core slot) s = execStoreLeavesQueue core slot s := rfl
theorem exec_combiningBufferSend (core slot n : Nat) (s : State) : exec (.combiningBufferSend core slot n) s = execCombiningBufferSend core slot n s := rfl
theorem exec_plbFillComplete (core n : Nat) (s : State) : exec (.plbFillComplete core n) s = execPlbFillComplete core n s := rfl
theorem exec_translationWalkComplete (n : Nat) (s : State) : exec (.translationWalkComplete n) s = execTranslationWalkComplete n s := rfl
theorem exec_l2Eviction (n : Nat) (s : State) : exec (.l2Eviction n) s = execL2Eviction n s := rfl
theorem exec_storefault (core slot : Nat) (s : State) : exec (.storefault core slot) s = execStorefault core slot s := rfl
theorem exec_matrixOpComplete (core : Nat) (s : State) : exec (.matrixOpComplete core) s = execMatrixOpComplete core s := rfl
theorem exec_mgemmStepComplete (core : Nat) (s : State) : exec (.mgemmStepComplete core) s = execMgemmStepComplete core s := rfl
theorem exec_mgemmRestart (core : Nat) (s : State) : exec (.mgemmRestart core) s = execMgemmRestart core s := rfl
theorem exec_drainBlockArrival (i : Nat) (s : State) : exec (.drainBlockArrival i) s = execDrainBlockArrival i s := rfl
theorem exec_drainWake (core n : Nat) (s : State) : exec (.drainWake core n) s = execDrainWake core n s := rfl
theorem exec_migrationArrival (i : Nat) (s : State) : exec (.migrationArrival i) s = execMigrationArrival i s := rfl
theorem exec_waypointForward (i : Nat) (s : State) : exec (.waypointForward i) s = execWaypointForward i s := rfl
theorem exec_migrateBack (core slot : Nat) (s : State) : exec (.migrateBack core slot) s = execMigrateBack core slot s := rfl
theorem exec_barrierComplete (team entry : Nat) (s : State) : exec (.barrierComplete team entry) s = execBarrierComplete team entry s := rfl
theorem exec_tendDecrementReply (i : Nat) (s : State) : exec (.tendDecrementReply i) s = execTendDecrementReply i s := rfl
theorem exec_jobStart (cluster n : Nat) (s : State) : exec (.jobStart cluster n) s = execJobStart cluster n s := rfl
theorem exec_jobEnd (cluster n : Nat) (s : State) : exec (.jobEnd cluster n) s = execJobEnd cluster n s := rfl
theorem exec_collectiveInstanceComplete (team entry bcast : Nat) (s : State) : exec (.collectiveInstanceComplete team entry bcast) s = execCollectiveInstanceComplete team entry bcast s := rfl
theorem exec_gatherLaneReply (core n : Nat) (s : State) : exec (.gatherLaneReply core n) s = execGatherLaneReply core n s := rfl
theorem exec_streamPush (core k : Nat) (s : State) : exec (.streamPush core k) s = execStreamPush core k s := rfl
theorem exec_rangeRetire (core n : Nat) (s : State) : exec (.rangeRetire core n) s = execRangeRetire core n s := rfl
theorem exec_leaseGrant (n : Nat) (s : State) : exec (.leaseGrant n) s = execLeaseGrant n s := rfl
theorem exec_cleaningDone (n : Nat) (s : State) : exec (.cleaningDone n) s = execCleaningDone n s := rfl
theorem exec_kernelLeaseExpiry (n : Nat) (s : State) : exec (.kernelLeaseExpiry n) s = execKernelLeaseExpiry n s := rfl
theorem exec_kernelSaved (n : Nat) (s : State) : exec (.kernelSaved n) s = execKernelSaved n s := rfl
theorem exec_kernelEnd (n : Nat) (s : State) : exec (.kernelEnd n) s = execKernelEnd n s := rfl
theorem exec_kernelFault (n : Nat) (s : State) : exec (.kernelFault n) s = execKernelFault n s := rfl
theorem exec_rowAccessPerformed (svc : Nat) (s : State) : exec (.rowAccessPerformed svc) s = execRowAccessPerformed svc s := rfl
theorem exec_scanrowWave (svc : Nat) (s : State) : exec (.scanrowWave svc) s = execScanrowWave svc s := rfl
theorem exec_arbSlot (channel : Nat) (s : State) : exec (.arbSlot channel) s = execArbSlot channel s := rfl
theorem exec_tokenRefill (unit : Nat) (s : State) : exec (.tokenRefill unit) s = execTokenRefill unit s := rfl
theorem exec_preemptionRequest (scope arg : Nat) (s : State) : exec (.preemptionRequest scope arg) s = execPreemptionRequest scope arg s := rfl
theorem exec_slotHalt (core slot : Nat) (s : State) : exec (.slotHalt core slot) s = execSlotHalt core slot s := rfl
theorem exec_preemptionWithdraw (scope arg : Nat) (s : State) : exec (.preemptionWithdraw scope arg) s = execPreemptionWithdraw scope arg s := rfl
theorem exec_teamSwapOut (team : Nat) (s : State) : exec (.teamSwapOut team) s = execTeamSwapOut team s := rfl
theorem exec_teamSwapIn (team place : Nat) (s : State) : exec (.teamSwapIn team place) s = execTeamSwapIn team place s := rfl
theorem exec_quantumExpiry (s : State) : exec .quantumExpiry s = execQuantumExpiry s := rfl
theorem exec_teamLaunch (team place : Nat) (s : State) : exec (.teamLaunch team place) s = execTeamLaunch team place s := rfl
theorem exec_teamEnd (team : Nat) (s : State) : exec (.teamEnd team) s = execTeamEnd team s := rfl
theorem exec_pcSample (core : Nat) (s : State) : exec (.pcSample core) s = execPcSample core s := rfl
theorem exec_errorDetected (unit addr unc : Nat) (s : State) : exec (.errorDetected unit addr unc) s = execErrorDetected unit addr unc s := rfl
theorem exec_surveyorTestDone (n outcome : Nat) (s : State) : exec (.surveyorTestDone n outcome) s = execSurveyorTestDone n outcome s := rfl
theorem exec_linkRetrain (link phase : Nat) (s : State) : exec (.linkRetrain link phase) s = execLinkRetrain link phase s := rfl
theorem exec_deviceLost (device : Nat) (s : State) : exec (.deviceLost device) s = execDeviceLost device s := rfl
theorem exec_powerLimitAction (action arg : Nat) (s : State) : exec (.powerLimitAction action arg) s = execPowerLimitAction action arg s := rfl
theorem exec_thermalTrip (s : State) : exec .thermalTrip s = execThermalTrip s := rfl
theorem exec_powerOnReset (s : State) : exec .powerOnReset s = execPowerOnReset s := rfl
theorem exec_watchdogReset (s : State) : exec .watchdogReset s = execWatchdogReset s := rfl
theorem exec_ownershipLapse (s : State) : exec .ownershipLapse s = execOwnershipLapse s := rfl
theorem exec_hread (cmd : HostCmd) (s : State) : exec (.hread cmd) s = execHread cmd s := rfl
theorem exec_hwrite (cmd : HostCmd) (s : State) : exec (.hwrite cmd) s = execHwrite cmd s := rfl
theorem exec_hsend (cmd : HostCmd) (s : State) : exec (.hsend cmd) s = execHsend cmd s := rfl
theorem exec_claim (cmd : HostCmd) (s : State) : exec (.claim cmd) s = execClaim cmd s := rfl
theorem exec_renew (cmd : HostCmd) (s : State) : exec (.renew cmd) s = execRenew cmd s := rfl
theorem exec_yield (cmd : HostCmd) (s : State) : exec (.yield cmd) s = execYield cmd s := rfl
theorem exec_leaseset (cmd : HostCmd) (s : State) : exec (.leaseset cmd) s = execLeaseset cmd s := rfl
theorem exec_image (cmd : HostCmd) (s : State) : exec (.image cmd) s = execImage cmd s := rfl
theorem exec_attest (cmd : HostCmd) (s : State) : exec (.attest cmd) s = execAttest cmd s := rfl
theorem exec_lcset (cmd : HostCmd) (s : State) : exec (.lcset cmd) s = execLcset cmd s := rfl
theorem exec_partset (cmd : HostCmd) (s : State) : exec (.partset cmd) s = execPartset cmd s := rfl
theorem exec_dompart (cmd : HostCmd) (s : State) : exec (.dompart cmd) s = execDompart cmd s := rfl
theorem exec_traceset (cmd : HostCmd) (s : State) : exec (.traceset cmd) s = execTraceset cmd s := rfl
theorem exec_quantum (cmd : HostCmd) (s : State) : exec (.quantum cmd) s = execQuantum cmd s := rfl
theorem exec_devidset (cmd : HostCmd) (s : State) : exec (.devidset cmd) s = execDevidset cmd s := rfl
theorem exec_replay (cmd : HostCmd) (s : State) : exec (.replay cmd) s = execReplay cmd s := rfl
theorem exec_reset (cmd : HostCmd) (s : State) : exec (.reset cmd) s = execReset cmd s := rfl
theorem exec_commandActorMessage (i : Nat) (s : State) : exec (.commandActorMessage i) s = execCommandActorMessage i s := rfl
theorem exec_deviceReinstate (device : Nat) (s : State) : exec (.deviceReinstate device) s = execDeviceReinstate device s := rfl
theorem exec_hostLinkDrop (master connected : Nat) (s : State) : exec (.hostLinkDrop master connected) s = execHostLinkDrop master connected s := rfl

end Sys2Proof.Machine
end

