-- ==== Sys2Proof/Laws/Memory.lean ====
section
/-! SUPPORT. Memories keep their canonical form under every operation, and a byte read after a write is the byte written. -/

namespace Sys2Proof.Machine

variable {α : Type} [DecidableEq α]

/-- The canonical form, said of a head and its tail. -/
theorem canon_cons (z : α) (k : Nat) (v : α) (r : List (Nat × α)) :
    Canon z ((k, v) :: r) = true ↔ v ≠ z ∧ (∀ e ∈ r, k < e.1) ∧ Canon z r = true := by
  induction r generalizing k v with
  | nil => simp [Canon]
  | cons e r ih =>
    obtain ⟨k', v'⟩ := e
    rw [show Canon z ((k, v) :: (k', v') :: r) = (decide (v ≠ z) && decide (k < k') && Canon z ((k', v') :: r)) from rfl]
    simp only [Bool.and_eq_true, decide_eq_true_eq, List.mem_cons, forall_eq_or_imp]
    constructor
    · rintro ⟨⟨h1, h2⟩, h3⟩
      have h4 := ((ih k' v').1 h3).2.1
      exact ⟨h1, ⟨h2, fun x hx => Nat.lt_trans h2 (h4 x hx)⟩, h3⟩
    · rintro ⟨h1, ⟨h2, _⟩, h3⟩
      exact ⟨⟨h1, h2⟩, h3⟩

theorem canon_nil (z : α) : Canon z ([] : List (Nat × α)) = true := rfl

/-- Writing keeps every key below a bound's reach. -/
theorem mem_cput {z : α} {l : List (Nat × α)} {a : Nat} {v : α} {e : Nat × α} (h : e ∈ cput z l a v) : e.1 = a ∨ e ∈ l := by
  induction l with
  | nil =>
    simp only [cput] at h
    split at h
    · simp at h
    · simp at h; simp [h]
  | cons x r ih =>
    obtain ⟨k, w⟩ := x
    simp only [cput] at h
    split at h
    · split at h
      · exact .inr (List.mem_cons_of_mem _ h)
      · rcases List.mem_cons.1 h with h | h
        · simp [h]
        · exact .inr (List.mem_cons_of_mem _ h)
    · split at h
      · split at h
        · exact .inr h
        · rcases List.mem_cons.1 h with h | h
          · simp [h]
          · exact .inr h
      · rcases List.mem_cons.1 h with h | h
        · exact .inr (by simp [h])
        · rcases ih h with h | h
          · exact .inl h
          · exact .inr (List.mem_cons_of_mem _ h)

/-- A write keeps the canonical form. -/
theorem canon_cput (z : α) (l : List (Nat × α)) (a : Nat) (v : α) (h : Canon z l = true) : Canon z (cput z l a v) = true := by
  induction l with
  | nil =>
    simp only [cput]
    split
    · rfl
    · rename_i hv; simp [Canon, hv]
  | cons x r ih =>
    obtain ⟨k, w⟩ := x
    obtain ⟨hw, hk, hr⟩ := (canon_cons z k w r).1 h
    simp only [cput]
    split
    · rename_i ha; subst ha
      split
      · exact hr
      · rename_i hv; exact (canon_cons z a v r).2 ⟨hv, hk, hr⟩
    · split
      · rename_i ha
        split
        · exact h
        · rename_i hv
          refine (canon_cons z a v _).2 ⟨hv, ?_, h⟩
          intro e he
          rcases List.mem_cons.1 he with he | he
          · simpa [he] using ha
          · exact Nat.lt_trans ha (hk e he)
      · rename_i h1 h2
        refine (canon_cons z k w _).2 ⟨hw, ?_, ih hr⟩
        intro e he
        rcases mem_cput he with he | he
        · omega
        · exact hk e he

omit [DecidableEq α] in
/-- An address that no entry bears reads as the default. -/
theorem aget_absent (z : α) (l : List (Nat × α)) (a : Nat) (h : ∀ e ∈ l, a < e.1) : aget z l a = z := by
  induction l with
  | nil => rfl
  | cons x r ih =>
    obtain ⟨k, w⟩ := x
    have hk : a < k := h (k, w) (by simp)
    simp only [aget, if_neg (show ¬ k = a by omega)]
    exact ih (fun e he => h e (List.mem_cons_of_mem _ he))

/-- Reading what was written. -/
theorem aget_cput_same (z : α) (l : List (Nat × α)) (a : Nat) (v : α) (h : Canon z l = true) : aget z (cput z l a v) a = v := by
  induction l with
  | nil =>
    simp only [cput]
    split
    · rename_i hv; simp [aget, hv]
    · simp [aget]
  | cons x r ih =>
    obtain ⟨k, w⟩ := x
    obtain ⟨_, hk, hr⟩ := (canon_cons z k w r).1 h
    simp only [cput]
    split
    · rename_i ha; subst ha
      split
      · rename_i hv; subst hv; exact aget_absent _ r a hk
      · simp [aget]
    · rename_i hne
      split
      · rename_i hlt
        split
        · rename_i hv; subst hv
          refine aget_absent _ _ a ?_
          intro e he
          rcases List.mem_cons.1 he with he | he
          · simpa [he] using hlt
          · exact Nat.lt_trans hlt (hk e he)
        · simp [aget]
      · simp only [aget, if_neg (show ¬ k = a by omega)]
        exact ih hr

/-- Every other address reads as before. -/
theorem aget_cput_ne (z : α) (l : List (Nat × α)) {a b : Nat} (v : α) (h : b ≠ a) : aget z (cput z l a v) b = aget z l b := by
  have h' : ¬ a = b := fun e => h e.symm
  induction l with
  | nil =>
    simp only [cput]
    split
    · rfl
    · simp [aget, h']
  | cons x r ih =>
    obtain ⟨k, w⟩ := x
    simp only [cput]
    split
    · rename_i hk; subst hk
      split
      · simp [aget, h']
      · simp [aget, h']
    · split
      · split
        · rfl
        · simp [aget, h']
      · simp [aget, ih]

/-! ### Memory (R8) -/

theorem Mem.read_write (m : Mem) (a : Nat) (b : Byte) (h : Memory.wf m = true) : (m.write a b).read a = b :=
  aget_cput_same _ _ _ _ h

theorem Mem.read_write_ne (m : Mem) {a c : Nat} (b : Byte) (h : c ≠ a) : (m.write a b).read c = m.read c :=
  aget_cput_ne _ _ _ h

theorem Memory.wf_write (m : Mem) (a : Nat) (b : Byte) (h : Memory.wf m = true) : Memory.wf (m.write a b) = true :=
  canon_cput _ _ _ _ h

theorem Memory.wf_writeN (m : Mem) (a : Nat) (bs : List Byte) (h : Memory.wf m = true) : Memory.wf (m.writeN a bs) = true := by
  induction bs generalizing m a with
  | nil => exact h
  | cons b bs ih => exact ih _ _ (Memory.wf_write m a b h)

theorem Memory.wf_writeMasked (m : Mem) (a : Nat) (bs : List (Option Byte)) (h : Memory.wf m = true) :
    Memory.wf (m.writeMasked a bs) = true := by
  induction bs generalizing m a with
  | nil => exact h
  | cons b bs ih =>
    cases b with
    | none => exact ih _ _ h
    | some b => exact ih _ _ (Memory.wf_write m a b h)

theorem Memory.wf_setWord (m : Mem) (a n v : Nat) (h : Memory.wf m = true) : Memory.wf (m.setWord a n v) = true :=
  Memory.wf_writeN _ _ _ h

/-- Wiping a range keeps the canonical form. -/
theorem canon_filter (z : α) (p : Nat × α → Bool) (l : List (Nat × α)) (h : Canon z l = true) : Canon z (l.filter p) = true := by
  induction l with
  | nil => rfl
  | cons x r ih =>
    obtain ⟨k, w⟩ := x
    obtain ⟨hw, hk, hr⟩ := (canon_cons z k w r).1 h
    simp only [List.filter]
    split
    · exact (canon_cons z k w _).2 ⟨hw, fun e he => hk e (List.mem_filter.1 he).1, ih hr⟩
    · exact ih hr

theorem Memory.wf_wipe (m : Mem) (lo hi : Nat) (h : Memory.wf m = true) : Memory.wf (wipeRange m lo hi) = true :=
  canon_filter _ _ _ h

theorem LegMap.read_write (l : LegMap) (b : Nat) (v : Legend) (h : Canon (0 : Legend) l = true) : LegMap.read (LegMap.write l b v) b = v :=
  aget_cput_same _ _ _ _ h

theorem LegMap.canon_write (l : LegMap) (b : Nat) (v : Legend) (h : Canon (0 : Legend) l = true) :
    Canon (0 : Legend) (LegMap.write l b v) = true := canon_cput _ _ _ _ h

/-- Outside the bytes written, every byte reads as before. -/
theorem Mem.read_writeN_outside (m : Mem) (a : Nat) (bs : List Byte) (c : Nat) (h : c < a ∨ a + bs.length ≤ c) :
    (m.writeN a bs).read c = m.read c := by
  induction bs generalizing m a with
  | nil => rfl
  | cons b bs ih =>
    simp only [List.length_cons] at h
    rw [Mem.writeN, ih _ _ (by omega), Mem.read_write_ne _ _ (by omega)]

/-- The byte written at each place of a range. -/
theorem Mem.read_writeN_inside (m : Mem) (a : Nat) (bs : List Byte) (i : Nat) (h : Memory.wf m = true) (hi : i < bs.length) :
    (m.writeN a bs).read (a + i) = bs[i] := by
  induction bs generalizing m a i with
  | nil => simp at hi
  | cons b bs ih =>
    cases i with
    | zero =>
      simp only [Mem.writeN, Nat.add_zero, List.getElem_cons_zero]
      rw [Mem.read_writeN_outside _ _ _ _ (by omega), Mem.read_write m a b h]
    | succ i =>
      have := ih (m.write a b) (a + 1) i (Memory.wf_write m a b h) (by simpa using hi)
      simpa [Mem.writeN, Nat.add_assoc, Nat.add_comm 1 i] using this

/-- Outside the bytes stored, a masked write leaves every byte. -/
theorem Mem.read_writeMasked_outside (m : Mem) (a : Nat) (bs : List (Option Byte)) (c : Nat) (h : c < a ∨ a + bs.length ≤ c) :
    (m.writeMasked a bs).read c = m.read c := by
  induction bs generalizing m a with
  | nil => rfl
  | cons b bs ih =>
    simp only [List.length_cons] at h
    cases b with
    | none => rw [Mem.writeMasked, ih _ _ (by omega)]
    | some b => rw [Mem.writeMasked, ih _ _ (by omega), Mem.read_write_ne _ _ (by omega)]

end Sys2Proof.Machine
end

