-- ==== Sys2Proof/Laws/State.lean ====
section
/-! SUPPORT. What the named updates of the state leave as it was: one lemma a field, by unfolding, for `simp`. -/

namespace Sys2Proof.Machine

/-! ### Sparse maps -/

@[simp] theorem aget_aput_same {α : Type} (d v : α) (l : List (Nat × α)) (a : Nat) : aget d (aput l a v) a = v := by
  induction l with
  | nil => simp [aput, aget]
  | cons e r ih =>
    obtain ⟨k, w⟩ := e
    simp only [aput]
    split
    · simp [aget]
    · split
      · simp [aget]
      · rename_i h1 h2
        have hk : ¬ k = a := fun h => h1 h.symm
        simp [aget, hk, ih]

theorem aget_aput_ne {α : Type} (d v : α) (l : List (Nat × α)) {a b : Nat} (h : b ≠ a) :
    aget d (aput l a v) b = aget d l b := by
  have h' : ¬ a = b := fun e => h e.symm
  induction l with
  | nil => simp [aput, aget, h']
  | cons e r ih =>
    obtain ⟨k, w⟩ := e
    simp only [aput]
    split
    · rename_i hk
      subst hk
      simp [aget, h']
    · split
      · simp [aget, h']
      · simp [aget, ih]

@[simp] theorem vget_vput_same {α : Type} {n : Nat} (d x : α) (v : Vector α n) (i : Nat) (h : i < n) :
    vget d (vput v i x) i = x := by
  simp [vget, vput, h]

theorem vget_vput_ne {α : Type} {n : Nat} (d x : α) (v : Vector α n) {i j : Nat} (h : j ≠ i) :
    vget d (vput v i x) j = vget d v j := by
  have h' : ¬ i = j := fun e => h e.symm
  simp only [vget, vput]
  by_cases hj : j < n
  · simp [hj, h']
  · simp [hj]

/-! ### The state -/

@[simp] theorem State.setCore_svcs (s : State) (c : Nat) (x : Core) : (s.setCore c x).svcs = s.svcs := rfl
@[simp] theorem State.setCore_clusters (s : State) (c : Nat) (x : Core) : (s.setCore c x).clusters = s.clusters := rfl
@[simp] theorem State.setCore_channels (s : State) (c : Nat) (x : Core) : (s.setCore c x).channels = s.channels := rfl
@[simp] theorem State.setCore_slices (s : State) (c : Nat) (x : Core) : (s.setCore c x).slices = s.slices := rfl
@[simp] theorem State.setCore_teams (s : State) (c : Nat) (x : Core) : (s.setCore c x).teams = s.teams := rfl
@[simp] theorem State.setCore_nextHandle (s : State) (c : Nat) (x : Core) : (s.setCore c x).nextHandle = s.nextHandle := rfl
@[simp] theorem State.setCore_kernels (s : State) (c : Nat) (x : Core) : (s.setCore c x).kernels = s.kernels := rfl
@[simp] theorem State.setCore_nextTicket (s : State) (c : Nat) (x : Core) : (s.setCore c x).nextTicket = s.nextTicket := rfl
@[simp] theorem State.setCore_net (s : State) (c : Nat) (x : Core) : (s.setCore c x).net = s.net := rfl
@[simp] theorem State.setCore_nextId (s : State) (c : Nat) (x : Core) : (s.setCore c x).nextId = s.nextId := rfl
@[simp] theorem State.setCore_hbm (s : State) (c : Nat) (x : Core) : (s.setCore c x).hbm = s.hbm := rfl
@[simp] theorem State.setCore_hbmLeg (s : State) (c : Nat) (x : Core) : (s.setCore c x).hbmLeg = s.hbmLeg := rfl
@[simp] theorem State.setCore_l2 (s : State) (c : Nat) (x : Core) : (s.setCore c x).l2 = s.l2 := rfl
@[simp] theorem State.setCore_walks (s : State) (c : Nat) (x : Core) : (s.setCore c x).walks = s.walks := rfl
@[simp] theorem State.setCore_xlat (s : State) (c : Nat) (x : Core) : (s.setCore c x).xlat = s.xlat := rfl
@[simp] theorem State.setCore_domtab (s : State) (c : Nat) (x : Core) : (s.setCore c x).domtab = s.domtab := rfl
@[simp] theorem State.setCore_ptroot (s : State) (c : Nat) (x : Core) : (s.setCore c x).ptroot = s.ptroot := rfl
@[simp] theorem State.setCore_poison (s : State) (c : Nat) (x : Core) : (s.setCore c x).poison = s.poison := rfl
@[simp] theorem State.setCore_port (s : State) (c : Nat) (x : Core) : (s.setCore c x).port = s.port := rfl
@[simp] theorem State.setCore_cur (s : State) (c : Nat) (x : Core) : (s.setCore c x).cur = s.cur := rfl
@[simp] theorem State.setCore_granted (s : State) (c : Nat) (x : Core) : (s.setCore c x).granted = s.granted := rfl
@[simp] theorem State.setCore_agenda (s : State) (c : Nat) (x : Core) : (s.setCore c x).agenda = s.agenda := rfl
@[simp] theorem State.setCore_freeCtr (s : State) (c : Nat) (x : Core) : (s.setCore c x).freeCtr = s.freeCtr := rfl

@[simp] theorem State.modCore_svcs (s : State) (c : Nat) (f : Core → Core) : (s.modCore c f).svcs = s.svcs := rfl
@[simp] theorem State.modCore_clusters (s : State) (c : Nat) (f : Core → Core) : (s.modCore c f).clusters = s.clusters := rfl
@[simp] theorem State.modCore_channels (s : State) (c : Nat) (f : Core → Core) : (s.modCore c f).channels = s.channels := rfl
@[simp] theorem State.modCore_slices (s : State) (c : Nat) (f : Core → Core) : (s.modCore c f).slices = s.slices := rfl
@[simp] theorem State.modCore_teams (s : State) (c : Nat) (f : Core → Core) : (s.modCore c f).teams = s.teams := rfl
@[simp] theorem State.modCore_nextHandle (s : State) (c : Nat) (f : Core → Core) : (s.modCore c f).nextHandle = s.nextHandle := rfl
@[simp] theorem State.modCore_kernels (s : State) (c : Nat) (f : Core → Core) : (s.modCore c f).kernels = s.kernels := rfl
@[simp] theorem State.modCore_nextTicket (s : State) (c : Nat) (f : Core → Core) : (s.modCore c f).nextTicket = s.nextTicket := rfl
@[simp] theorem State.modCore_net (s : State) (c : Nat) (f : Core → Core) : (s.modCore c f).net = s.net := rfl
@[simp] theorem State.modCore_nextId (s : State) (c : Nat) (f : Core → Core) : (s.modCore c f).nextId = s.nextId := rfl
@[simp] theorem State.modCore_hbm (s : State) (c : Nat) (f : Core → Core) : (s.modCore c f).hbm = s.hbm := rfl
@[simp] theorem State.modCore_hbmLeg (s : State) (c : Nat) (f : Core → Core) : (s.modCore c f).hbmLeg = s.hbmLeg := rfl
@[simp] theorem State.modCore_l2 (s : State) (c : Nat) (f : Core → Core) : (s.modCore c f).l2 = s.l2 := rfl
@[simp] theorem State.modCore_walks (s : State) (c : Nat) (f : Core → Core) : (s.modCore c f).walks = s.walks := rfl
@[simp] theorem State.modCore_xlat (s : State) (c : Nat) (f : Core → Core) : (s.modCore c f).xlat = s.xlat := rfl
@[simp] theorem State.modCore_domtab (s : State) (c : Nat) (f : Core → Core) : (s.modCore c f).domtab = s.domtab := rfl
@[simp] theorem State.modCore_ptroot (s : State) (c : Nat) (f : Core → Core) : (s.modCore c f).ptroot = s.ptroot := rfl
@[simp] theorem State.modCore_poison (s : State) (c : Nat) (f : Core → Core) : (s.modCore c f).poison = s.poison := rfl
@[simp] theorem State.modCore_port (s : State) (c : Nat) (f : Core → Core) : (s.modCore c f).port = s.port := rfl
@[simp] theorem State.modCore_cur (s : State) (c : Nat) (f : Core → Core) : (s.modCore c f).cur = s.cur := rfl
@[simp] theorem State.modCore_granted (s : State) (c : Nat) (f : Core → Core) : (s.modCore c f).granted = s.granted := rfl
@[simp] theorem State.modCore_agenda (s : State) (c : Nat) (f : Core → Core) : (s.modCore c f).agenda = s.agenda := rfl
@[simp] theorem State.modCore_freeCtr (s : State) (c : Nat) (f : Core → Core) : (s.modCore c f).freeCtr = s.freeCtr := rfl

@[simp] theorem State.setSlot_svcs (s : State) (c k : Nat) (x : Slot) : (s.setSlot c k x).svcs = s.svcs := rfl
@[simp] theorem State.setSlot_clusters (s : State) (c k : Nat) (x : Slot) : (s.setSlot c k x).clusters = s.clusters := rfl
@[simp] theorem State.setSlot_channels (s : State) (c k : Nat) (x : Slot) : (s.setSlot c k x).channels = s.channels := rfl
@[simp] theorem State.setSlot_slices (s : State) (c k : Nat) (x : Slot) : (s.setSlot c k x).slices = s.slices := rfl
@[simp] theorem State.setSlot_teams (s : State) (c k : Nat) (x : Slot) : (s.setSlot c k x).teams = s.teams := rfl
@[simp] theorem State.setSlot_nextHandle (s : State) (c k : Nat) (x : Slot) : (s.setSlot c k x).nextHandle = s.nextHandle := rfl
@[simp] theorem State.setSlot_kernels (s : State) (c k : Nat) (x : Slot) : (s.setSlot c k x).kernels = s.kernels := rfl
@[simp] theorem State.setSlot_nextTicket (s : State) (c k : Nat) (x : Slot) : (s.setSlot c k x).nextTicket = s.nextTicket := rfl
@[simp] theorem State.setSlot_net (s : State) (c k : Nat) (x : Slot) : (s.setSlot c k x).net = s.net := rfl
@[simp] theorem State.setSlot_nextId (s : State) (c k : Nat) (x : Slot) : (s.setSlot c k x).nextId = s.nextId := rfl
@[simp] theorem State.setSlot_hbm (s : State) (c k : Nat) (x : Slot) : (s.setSlot c k x).hbm = s.hbm := rfl
@[simp] theorem State.setSlot_hbmLeg (s : State) (c k : Nat) (x : Slot) : (s.setSlot c k x).hbmLeg = s.hbmLeg := rfl
@[simp] theorem State.setSlot_l2 (s : State) (c k : Nat) (x : Slot) : (s.setSlot c k x).l2 = s.l2 := rfl
@[simp] theorem State.setSlot_walks (s : State) (c k : Nat) (x : Slot) : (s.setSlot c k x).walks = s.walks := rfl
@[simp] theorem State.setSlot_xlat (s : State) (c k : Nat) (x : Slot) : (s.setSlot c k x).xlat = s.xlat := rfl
@[simp] theorem State.setSlot_domtab (s : State) (c k : Nat) (x : Slot) : (s.setSlot c k x).domtab = s.domtab := rfl
@[simp] theorem State.setSlot_ptroot (s : State) (c k : Nat) (x : Slot) : (s.setSlot c k x).ptroot = s.ptroot := rfl
@[simp] theorem State.setSlot_poison (s : State) (c k : Nat) (x : Slot) : (s.setSlot c k x).poison = s.poison := rfl
@[simp] theorem State.setSlot_port (s : State) (c k : Nat) (x : Slot) : (s.setSlot c k x).port = s.port := rfl
@[simp] theorem State.setSlot_cur (s : State) (c k : Nat) (x : Slot) : (s.setSlot c k x).cur = s.cur := rfl
@[simp] theorem State.setSlot_granted (s : State) (c k : Nat) (x : Slot) : (s.setSlot c k x).granted = s.granted := rfl
@[simp] theorem State.setSlot_agenda (s : State) (c k : Nat) (x : Slot) : (s.setSlot c k x).agenda = s.agenda := rfl
@[simp] theorem State.setSlot_freeCtr (s : State) (c k : Nat) (x : Slot) : (s.setSlot c k x).freeCtr = s.freeCtr := rfl

@[simp] theorem State.modSlot_svcs (s : State) (c k : Nat) (f : Slot → Slot) : (s.modSlot c k f).svcs = s.svcs := rfl
@[simp] theorem State.modSlot_clusters (s : State) (c k : Nat) (f : Slot → Slot) : (s.modSlot c k f).clusters = s.clusters := rfl
@[simp] theorem State.modSlot_channels (s : State) (c k : Nat) (f : Slot → Slot) : (s.modSlot c k f).channels = s.channels := rfl
@[simp] theorem State.modSlot_slices (s : State) (c k : Nat) (f : Slot → Slot) : (s.modSlot c k f).slices = s.slices := rfl
@[simp] theorem State.modSlot_teams (s : State) (c k : Nat) (f : Slot → Slot) : (s.modSlot c k f).teams = s.teams := rfl
@[simp] theorem State.modSlot_nextHandle (s : State) (c k : Nat) (f : Slot → Slot) : (s.modSlot c k f).nextHandle = s.nextHandle := rfl
@[simp] theorem State.modSlot_kernels (s : State) (c k : Nat) (f : Slot → Slot) : (s.modSlot c k f).kernels = s.kernels := rfl
@[simp] theorem State.modSlot_nextTicket (s : State) (c k : Nat) (f : Slot → Slot) : (s.modSlot c k f).nextTicket = s.nextTicket := rfl
@[simp] theorem State.modSlot_net (s : State) (c k : Nat) (f : Slot → Slot) : (s.modSlot c k f).net = s.net := rfl
@[simp] theorem State.modSlot_nextId (s : State) (c k : Nat) (f : Slot → Slot) : (s.modSlot c k f).nextId = s.nextId := rfl
@[simp] theorem State.modSlot_hbm (s : State) (c k : Nat) (f : Slot → Slot) : (s.modSlot c k f).hbm = s.hbm := rfl
@[simp] theorem State.modSlot_hbmLeg (s : State) (c k : Nat) (f : Slot → Slot) : (s.modSlot c k f).hbmLeg = s.hbmLeg := rfl
@[simp] theorem State.modSlot_l2 (s : State) (c k : Nat) (f : Slot → Slot) : (s.modSlot c k f).l2 = s.l2 := rfl
@[simp] theorem State.modSlot_walks (s : State) (c k : Nat) (f : Slot → Slot) : (s.modSlot c k f).walks = s.walks := rfl
@[simp] theorem State.modSlot_xlat (s : State) (c k : Nat) (f : Slot → Slot) : (s.modSlot c k f).xlat = s.xlat := rfl
@[simp] theorem State.modSlot_domtab (s : State) (c k : Nat) (f : Slot → Slot) : (s.modSlot c k f).domtab = s.domtab := rfl
@[simp] theorem State.modSlot_ptroot (s : State) (c k : Nat) (f : Slot → Slot) : (s.modSlot c k f).ptroot = s.ptroot := rfl
@[simp] theorem State.modSlot_poison (s : State) (c k : Nat) (f : Slot → Slot) : (s.modSlot c k f).poison = s.poison := rfl
@[simp] theorem State.modSlot_port (s : State) (c k : Nat) (f : Slot → Slot) : (s.modSlot c k f).port = s.port := rfl
@[simp] theorem State.modSlot_cur (s : State) (c k : Nat) (f : Slot → Slot) : (s.modSlot c k f).cur = s.cur := rfl
@[simp] theorem State.modSlot_granted (s : State) (c k : Nat) (f : Slot → Slot) : (s.modSlot c k f).granted = s.granted := rfl
@[simp] theorem State.modSlot_agenda (s : State) (c k : Nat) (f : Slot → Slot) : (s.modSlot c k f).agenda = s.agenda := rfl
@[simp] theorem State.modSlot_freeCtr (s : State) (c k : Nat) (f : Slot → Slot) : (s.modSlot c k f).freeCtr = s.freeCtr := rfl

@[simp] theorem State.modBank_svcs (s : State) (c b : Nat) (f : Bank → Bank) : (s.modBank c b f).svcs = s.svcs := rfl
@[simp] theorem State.modBank_clusters (s : State) (c b : Nat) (f : Bank → Bank) : (s.modBank c b f).clusters = s.clusters := rfl
@[simp] theorem State.modBank_channels (s : State) (c b : Nat) (f : Bank → Bank) : (s.modBank c b f).channels = s.channels := rfl
@[simp] theorem State.modBank_slices (s : State) (c b : Nat) (f : Bank → Bank) : (s.modBank c b f).slices = s.slices := rfl
@[simp] theorem State.modBank_teams (s : State) (c b : Nat) (f : Bank → Bank) : (s.modBank c b f).teams = s.teams := rfl
@[simp] theorem State.modBank_nextHandle (s : State) (c b : Nat) (f : Bank → Bank) : (s.modBank c b f).nextHandle = s.nextHandle := rfl
@[simp] theorem State.modBank_kernels (s : State) (c b : Nat) (f : Bank → Bank) : (s.modBank c b f).kernels = s.kernels := rfl
@[simp] theorem State.modBank_nextTicket (s : State) (c b : Nat) (f : Bank → Bank) : (s.modBank c b f).nextTicket = s.nextTicket := rfl
@[simp] theorem State.modBank_net (s : State) (c b : Nat) (f : Bank → Bank) : (s.modBank c b f).net = s.net := rfl
@[simp] theorem State.modBank_nextId (s : State) (c b : Nat) (f : Bank → Bank) : (s.modBank c b f).nextId = s.nextId := rfl
@[simp] theorem State.modBank_hbm (s : State) (c b : Nat) (f : Bank → Bank) : (s.modBank c b f).hbm = s.hbm := rfl
@[simp] theorem State.modBank_hbmLeg (s : State) (c b : Nat) (f : Bank → Bank) : (s.modBank c b f).hbmLeg = s.hbmLeg := rfl
@[simp] theorem State.modBank_l2 (s : State) (c b : Nat) (f : Bank → Bank) : (s.modBank c b f).l2 = s.l2 := rfl
@[simp] theorem State.modBank_walks (s : State) (c b : Nat) (f : Bank → Bank) : (s.modBank c b f).walks = s.walks := rfl
@[simp] theorem State.modBank_xlat (s : State) (c b : Nat) (f : Bank → Bank) : (s.modBank c b f).xlat = s.xlat := rfl
@[simp] theorem State.modBank_domtab (s : State) (c b : Nat) (f : Bank → Bank) : (s.modBank c b f).domtab = s.domtab := rfl
@[simp] theorem State.modBank_ptroot (s : State) (c b : Nat) (f : Bank → Bank) : (s.modBank c b f).ptroot = s.ptroot := rfl
@[simp] theorem State.modBank_poison (s : State) (c b : Nat) (f : Bank → Bank) : (s.modBank c b f).poison = s.poison := rfl
@[simp] theorem State.modBank_port (s : State) (c b : Nat) (f : Bank → Bank) : (s.modBank c b f).port = s.port := rfl
@[simp] theorem State.modBank_cur (s : State) (c b : Nat) (f : Bank → Bank) : (s.modBank c b f).cur = s.cur := rfl
@[simp] theorem State.modBank_granted (s : State) (c b : Nat) (f : Bank → Bank) : (s.modBank c b f).granted = s.granted := rfl
@[simp] theorem State.modBank_agenda (s : State) (c b : Nat) (f : Bank → Bank) : (s.modBank c b f).agenda = s.agenda := rfl
@[simp] theorem State.modBank_freeCtr (s : State) (c b : Nat) (f : Bank → Bank) : (s.modBank c b f).freeCtr = s.freeCtr := rfl

@[simp] theorem State.setSvc_cores (s : State) (n : Nat) (x : Svc) : (s.setSvc n x).cores = s.cores := rfl
@[simp] theorem State.setSvc_clusters (s : State) (n : Nat) (x : Svc) : (s.setSvc n x).clusters = s.clusters := rfl
@[simp] theorem State.setSvc_channels (s : State) (n : Nat) (x : Svc) : (s.setSvc n x).channels = s.channels := rfl
@[simp] theorem State.setSvc_slices (s : State) (n : Nat) (x : Svc) : (s.setSvc n x).slices = s.slices := rfl
@[simp] theorem State.setSvc_teams (s : State) (n : Nat) (x : Svc) : (s.setSvc n x).teams = s.teams := rfl
@[simp] theorem State.setSvc_nextHandle (s : State) (n : Nat) (x : Svc) : (s.setSvc n x).nextHandle = s.nextHandle := rfl
@[simp] theorem State.setSvc_kernels (s : State) (n : Nat) (x : Svc) : (s.setSvc n x).kernels = s.kernels := rfl
@[simp] theorem State.setSvc_nextTicket (s : State) (n : Nat) (x : Svc) : (s.setSvc n x).nextTicket = s.nextTicket := rfl
@[simp] theorem State.setSvc_net (s : State) (n : Nat) (x : Svc) : (s.setSvc n x).net = s.net := rfl
@[simp] theorem State.setSvc_nextId (s : State) (n : Nat) (x : Svc) : (s.setSvc n x).nextId = s.nextId := rfl
@[simp] theorem State.setSvc_hbm (s : State) (n : Nat) (x : Svc) : (s.setSvc n x).hbm = s.hbm := rfl
@[simp] theorem State.setSvc_hbmLeg (s : State) (n : Nat) (x : Svc) : (s.setSvc n x).hbmLeg = s.hbmLeg := rfl
@[simp] theorem State.setSvc_l2 (s : State) (n : Nat) (x : Svc) : (s.setSvc n x).l2 = s.l2 := rfl
@[simp] theorem State.setSvc_walks (s : State) (n : Nat) (x : Svc) : (s.setSvc n x).walks = s.walks := rfl
@[simp] theorem State.setSvc_xlat (s : State) (n : Nat) (x : Svc) : (s.setSvc n x).xlat = s.xlat := rfl
@[simp] theorem State.setSvc_domtab (s : State) (n : Nat) (x : Svc) : (s.setSvc n x).domtab = s.domtab := rfl
@[simp] theorem State.setSvc_ptroot (s : State) (n : Nat) (x : Svc) : (s.setSvc n x).ptroot = s.ptroot := rfl
@[simp] theorem State.setSvc_poison (s : State) (n : Nat) (x : Svc) : (s.setSvc n x).poison = s.poison := rfl
@[simp] theorem State.setSvc_port (s : State) (n : Nat) (x : Svc) : (s.setSvc n x).port = s.port := rfl
@[simp] theorem State.setSvc_cur (s : State) (n : Nat) (x : Svc) : (s.setSvc n x).cur = s.cur := rfl
@[simp] theorem State.setSvc_granted (s : State) (n : Nat) (x : Svc) : (s.setSvc n x).granted = s.granted := rfl
@[simp] theorem State.setSvc_agenda (s : State) (n : Nat) (x : Svc) : (s.setSvc n x).agenda = s.agenda := rfl
@[simp] theorem State.setSvc_freeCtr (s : State) (n : Nat) (x : Svc) : (s.setSvc n x).freeCtr = s.freeCtr := rfl

@[simp] theorem State.modSvc_cores (s : State) (n : Nat) (f : Svc → Svc) : (s.modSvc n f).cores = s.cores := rfl
@[simp] theorem State.modSvc_clusters (s : State) (n : Nat) (f : Svc → Svc) : (s.modSvc n f).clusters = s.clusters := rfl
@[simp] theorem State.modSvc_channels (s : State) (n : Nat) (f : Svc → Svc) : (s.modSvc n f).channels = s.channels := rfl
@[simp] theorem State.modSvc_slices (s : State) (n : Nat) (f : Svc → Svc) : (s.modSvc n f).slices = s.slices := rfl
@[simp] theorem State.modSvc_teams (s : State) (n : Nat) (f : Svc → Svc) : (s.modSvc n f).teams = s.teams := rfl
@[simp] theorem State.modSvc_nextHandle (s : State) (n : Nat) (f : Svc → Svc) : (s.modSvc n f).nextHandle = s.nextHandle := rfl
@[simp] theorem State.modSvc_kernels (s : State) (n : Nat) (f : Svc → Svc) : (s.modSvc n f).kernels = s.kernels := rfl
@[simp] theorem State.modSvc_nextTicket (s : State) (n : Nat) (f : Svc → Svc) : (s.modSvc n f).nextTicket = s.nextTicket := rfl
@[simp] theorem State.modSvc_net (s : State) (n : Nat) (f : Svc → Svc) : (s.modSvc n f).net = s.net := rfl
@[simp] theorem State.modSvc_nextId (s : State) (n : Nat) (f : Svc → Svc) : (s.modSvc n f).nextId = s.nextId := rfl
@[simp] theorem State.modSvc_hbm (s : State) (n : Nat) (f : Svc → Svc) : (s.modSvc n f).hbm = s.hbm := rfl
@[simp] theorem State.modSvc_hbmLeg (s : State) (n : Nat) (f : Svc → Svc) : (s.modSvc n f).hbmLeg = s.hbmLeg := rfl
@[simp] theorem State.modSvc_l2 (s : State) (n : Nat) (f : Svc → Svc) : (s.modSvc n f).l2 = s.l2 := rfl
@[simp] theorem State.modSvc_walks (s : State) (n : Nat) (f : Svc → Svc) : (s.modSvc n f).walks = s.walks := rfl
@[simp] theorem State.modSvc_xlat (s : State) (n : Nat) (f : Svc → Svc) : (s.modSvc n f).xlat = s.xlat := rfl
@[simp] theorem State.modSvc_domtab (s : State) (n : Nat) (f : Svc → Svc) : (s.modSvc n f).domtab = s.domtab := rfl
@[simp] theorem State.modSvc_ptroot (s : State) (n : Nat) (f : Svc → Svc) : (s.modSvc n f).ptroot = s.ptroot := rfl
@[simp] theorem State.modSvc_poison (s : State) (n : Nat) (f : Svc → Svc) : (s.modSvc n f).poison = s.poison := rfl
@[simp] theorem State.modSvc_port (s : State) (n : Nat) (f : Svc → Svc) : (s.modSvc n f).port = s.port := rfl
@[simp] theorem State.modSvc_cur (s : State) (n : Nat) (f : Svc → Svc) : (s.modSvc n f).cur = s.cur := rfl
@[simp] theorem State.modSvc_granted (s : State) (n : Nat) (f : Svc → Svc) : (s.modSvc n f).granted = s.granted := rfl
@[simp] theorem State.modSvc_agenda (s : State) (n : Nat) (f : Svc → Svc) : (s.modSvc n f).agenda = s.agenda := rfl
@[simp] theorem State.modSvc_freeCtr (s : State) (n : Nat) (f : Svc → Svc) : (s.modSvc n f).freeCtr = s.freeCtr := rfl

@[simp] theorem State.modCluster_cores (s : State) (n : Nat) (f : Cluster → Cluster) : (s.modCluster n f).cores = s.cores := rfl
@[simp] theorem State.modCluster_svcs (s : State) (n : Nat) (f : Cluster → Cluster) : (s.modCluster n f).svcs = s.svcs := rfl
@[simp] theorem State.modCluster_channels (s : State) (n : Nat) (f : Cluster → Cluster) : (s.modCluster n f).channels = s.channels := rfl
@[simp] theorem State.modCluster_slices (s : State) (n : Nat) (f : Cluster → Cluster) : (s.modCluster n f).slices = s.slices := rfl
@[simp] theorem State.modCluster_teams (s : State) (n : Nat) (f : Cluster → Cluster) : (s.modCluster n f).teams = s.teams := rfl
@[simp] theorem State.modCluster_nextHandle (s : State) (n : Nat) (f : Cluster → Cluster) : (s.modCluster n f).nextHandle = s.nextHandle := rfl
@[simp] theorem State.modCluster_kernels (s : State) (n : Nat) (f : Cluster → Cluster) : (s.modCluster n f).kernels = s.kernels := rfl
@[simp] theorem State.modCluster_nextTicket (s : State) (n : Nat) (f : Cluster → Cluster) : (s.modCluster n f).nextTicket = s.nextTicket := rfl
@[simp] theorem State.modCluster_net (s : State) (n : Nat) (f : Cluster → Cluster) : (s.modCluster n f).net = s.net := rfl
@[simp] theorem State.modCluster_nextId (s : State) (n : Nat) (f : Cluster → Cluster) : (s.modCluster n f).nextId = s.nextId := rfl
@[simp] theorem State.modCluster_hbm (s : State) (n : Nat) (f : Cluster → Cluster) : (s.modCluster n f).hbm = s.hbm := rfl
@[simp] theorem State.modCluster_hbmLeg (s : State) (n : Nat) (f : Cluster → Cluster) : (s.modCluster n f).hbmLeg = s.hbmLeg := rfl
@[simp] theorem State.modCluster_l2 (s : State) (n : Nat) (f : Cluster → Cluster) : (s.modCluster n f).l2 = s.l2 := rfl
@[simp] theorem State.modCluster_walks (s : State) (n : Nat) (f : Cluster → Cluster) : (s.modCluster n f).walks = s.walks := rfl
@[simp] theorem State.modCluster_xlat (s : State) (n : Nat) (f : Cluster → Cluster) : (s.modCluster n f).xlat = s.xlat := rfl
@[simp] theorem State.modCluster_domtab (s : State) (n : Nat) (f : Cluster → Cluster) : (s.modCluster n f).domtab = s.domtab := rfl
@[simp] theorem State.modCluster_ptroot (s : State) (n : Nat) (f : Cluster → Cluster) : (s.modCluster n f).ptroot = s.ptroot := rfl
@[simp] theorem State.modCluster_poison (s : State) (n : Nat) (f : Cluster → Cluster) : (s.modCluster n f).poison = s.poison := rfl
@[simp] theorem State.modCluster_port (s : State) (n : Nat) (f : Cluster → Cluster) : (s.modCluster n f).port = s.port := rfl
@[simp] theorem State.modCluster_cur (s : State) (n : Nat) (f : Cluster → Cluster) : (s.modCluster n f).cur = s.cur := rfl
@[simp] theorem State.modCluster_granted (s : State) (n : Nat) (f : Cluster → Cluster) : (s.modCluster n f).granted = s.granted := rfl
@[simp] theorem State.modCluster_agenda (s : State) (n : Nat) (f : Cluster → Cluster) : (s.modCluster n f).agenda = s.agenda := rfl
@[simp] theorem State.modCluster_freeCtr (s : State) (n : Nat) (f : Cluster → Cluster) : (s.modCluster n f).freeCtr = s.freeCtr := rfl

@[simp] theorem State.modChannel_cores (s : State) (n : Nat) (f : Channel → Channel) : (s.modChannel n f).cores = s.cores := rfl
@[simp] theorem State.modChannel_svcs (s : State) (n : Nat) (f : Channel → Channel) : (s.modChannel n f).svcs = s.svcs := rfl
@[simp] theorem State.modChannel_clusters (s : State) (n : Nat) (f : Channel → Channel) : (s.modChannel n f).clusters = s.clusters := rfl
@[simp] theorem State.modChannel_slices (s : State) (n : Nat) (f : Channel → Channel) : (s.modChannel n f).slices = s.slices := rfl
@[simp] theorem State.modChannel_teams (s : State) (n : Nat) (f : Channel → Channel) : (s.modChannel n f).teams = s.teams := rfl
@[simp] theorem State.modChannel_nextHandle (s : State) (n : Nat) (f : Channel → Channel) : (s.modChannel n f).nextHandle = s.nextHandle := rfl
@[simp] theorem State.modChannel_kernels (s : State) (n : Nat) (f : Channel → Channel) : (s.modChannel n f).kernels = s.kernels := rfl
@[simp] theorem State.modChannel_nextTicket (s : State) (n : Nat) (f : Channel → Channel) : (s.modChannel n f).nextTicket = s.nextTicket := rfl
@[simp] theorem State.modChannel_net (s : State) (n : Nat) (f : Channel → Channel) : (s.modChannel n f).net = s.net := rfl
@[simp] theorem State.modChannel_nextId (s : State) (n : Nat) (f : Channel → Channel) : (s.modChannel n f).nextId = s.nextId := rfl
@[simp] theorem State.modChannel_hbm (s : State) (n : Nat) (f : Channel → Channel) : (s.modChannel n f).hbm = s.hbm := rfl
@[simp] theorem State.modChannel_hbmLeg (s : State) (n : Nat) (f : Channel → Channel) : (s.modChannel n f).hbmLeg = s.hbmLeg := rfl
@[simp] theorem State.modChannel_l2 (s : State) (n : Nat) (f : Channel → Channel) : (s.modChannel n f).l2 = s.l2 := rfl
@[simp] theorem State.modChannel_walks (s : State) (n : Nat) (f : Channel → Channel) : (s.modChannel n f).walks = s.walks := rfl
@[simp] theorem State.modChannel_xlat (s : State) (n : Nat) (f : Channel → Channel) : (s.modChannel n f).xlat = s.xlat := rfl
@[simp] theorem State.modChannel_domtab (s : State) (n : Nat) (f : Channel → Channel) : (s.modChannel n f).domtab = s.domtab := rfl
@[simp] theorem State.modChannel_ptroot (s : State) (n : Nat) (f : Channel → Channel) : (s.modChannel n f).ptroot = s.ptroot := rfl
@[simp] theorem State.modChannel_poison (s : State) (n : Nat) (f : Channel → Channel) : (s.modChannel n f).poison = s.poison := rfl
@[simp] theorem State.modChannel_port (s : State) (n : Nat) (f : Channel → Channel) : (s.modChannel n f).port = s.port := rfl
@[simp] theorem State.modChannel_cur (s : State) (n : Nat) (f : Channel → Channel) : (s.modChannel n f).cur = s.cur := rfl
@[simp] theorem State.modChannel_granted (s : State) (n : Nat) (f : Channel → Channel) : (s.modChannel n f).granted = s.granted := rfl
@[simp] theorem State.modChannel_agenda (s : State) (n : Nat) (f : Channel → Channel) : (s.modChannel n f).agenda = s.agenda := rfl
@[simp] theorem State.modChannel_freeCtr (s : State) (n : Nat) (f : Channel → Channel) : (s.modChannel n f).freeCtr = s.freeCtr := rfl

@[simp] theorem State.modSlice_cores (s : State) (n : Nat) (f : Channel → Channel) : (s.modSlice n f).cores = s.cores := rfl
@[simp] theorem State.modSlice_svcs (s : State) (n : Nat) (f : Channel → Channel) : (s.modSlice n f).svcs = s.svcs := rfl
@[simp] theorem State.modSlice_clusters (s : State) (n : Nat) (f : Channel → Channel) : (s.modSlice n f).clusters = s.clusters := rfl
@[simp] theorem State.modSlice_channels (s : State) (n : Nat) (f : Channel → Channel) : (s.modSlice n f).channels = s.channels := rfl
@[simp] theorem State.modSlice_teams (s : State) (n : Nat) (f : Channel → Channel) : (s.modSlice n f).teams = s.teams := rfl
@[simp] theorem State.modSlice_nextHandle (s : State) (n : Nat) (f : Channel → Channel) : (s.modSlice n f).nextHandle = s.nextHandle := rfl
@[simp] theorem State.modSlice_kernels (s : State) (n : Nat) (f : Channel → Channel) : (s.modSlice n f).kernels = s.kernels := rfl
@[simp] theorem State.modSlice_nextTicket (s : State) (n : Nat) (f : Channel → Channel) : (s.modSlice n f).nextTicket = s.nextTicket := rfl
@[simp] theorem State.modSlice_net (s : State) (n : Nat) (f : Channel → Channel) : (s.modSlice n f).net = s.net := rfl
@[simp] theorem State.modSlice_nextId (s : State) (n : Nat) (f : Channel → Channel) : (s.modSlice n f).nextId = s.nextId := rfl
@[simp] theorem State.modSlice_hbm (s : State) (n : Nat) (f : Channel → Channel) : (s.modSlice n f).hbm = s.hbm := rfl
@[simp] theorem State.modSlice_hbmLeg (s : State) (n : Nat) (f : Channel → Channel) : (s.modSlice n f).hbmLeg = s.hbmLeg := rfl
@[simp] theorem State.modSlice_l2 (s : State) (n : Nat) (f : Channel → Channel) : (s.modSlice n f).l2 = s.l2 := rfl
@[simp] theorem State.modSlice_walks (s : State) (n : Nat) (f : Channel → Channel) : (s.modSlice n f).walks = s.walks := rfl
@[simp] theorem State.modSlice_xlat (s : State) (n : Nat) (f : Channel → Channel) : (s.modSlice n f).xlat = s.xlat := rfl
@[simp] theorem State.modSlice_domtab (s : State) (n : Nat) (f : Channel → Channel) : (s.modSlice n f).domtab = s.domtab := rfl
@[simp] theorem State.modSlice_ptroot (s : State) (n : Nat) (f : Channel → Channel) : (s.modSlice n f).ptroot = s.ptroot := rfl
@[simp] theorem State.modSlice_poison (s : State) (n : Nat) (f : Channel → Channel) : (s.modSlice n f).poison = s.poison := rfl
@[simp] theorem State.modSlice_port (s : State) (n : Nat) (f : Channel → Channel) : (s.modSlice n f).port = s.port := rfl
@[simp] theorem State.modSlice_cur (s : State) (n : Nat) (f : Channel → Channel) : (s.modSlice n f).cur = s.cur := rfl
@[simp] theorem State.modSlice_granted (s : State) (n : Nat) (f : Channel → Channel) : (s.modSlice n f).granted = s.granted := rfl
@[simp] theorem State.modSlice_agenda (s : State) (n : Nat) (f : Channel → Channel) : (s.modSlice n f).agenda = s.agenda := rfl
@[simp] theorem State.modSlice_freeCtr (s : State) (n : Nat) (f : Channel → Channel) : (s.modSlice n f).freeCtr = s.freeCtr := rfl

@[simp] theorem State.modPort_cores (s : State) (f : Port → Port) : (s.modPort f).cores = s.cores := rfl
@[simp] theorem State.modPort_svcs (s : State) (f : Port → Port) : (s.modPort f).svcs = s.svcs := rfl
@[simp] theorem State.modPort_clusters (s : State) (f : Port → Port) : (s.modPort f).clusters = s.clusters := rfl
@[simp] theorem State.modPort_channels (s : State) (f : Port → Port) : (s.modPort f).channels = s.channels := rfl
@[simp] theorem State.modPort_slices (s : State) (f : Port → Port) : (s.modPort f).slices = s.slices := rfl
@[simp] theorem State.modPort_teams (s : State) (f : Port → Port) : (s.modPort f).teams = s.teams := rfl
@[simp] theorem State.modPort_nextHandle (s : State) (f : Port → Port) : (s.modPort f).nextHandle = s.nextHandle := rfl
@[simp] theorem State.modPort_kernels (s : State) (f : Port → Port) : (s.modPort f).kernels = s.kernels := rfl
@[simp] theorem State.modPort_nextTicket (s : State) (f : Port → Port) : (s.modPort f).nextTicket = s.nextTicket := rfl
@[simp] theorem State.modPort_net (s : State) (f : Port → Port) : (s.modPort f).net = s.net := rfl
@[simp] theorem State.modPort_nextId (s : State) (f : Port → Port) : (s.modPort f).nextId = s.nextId := rfl
@[simp] theorem State.modPort_hbm (s : State) (f : Port → Port) : (s.modPort f).hbm = s.hbm := rfl
@[simp] theorem State.modPort_hbmLeg (s : State) (f : Port → Port) : (s.modPort f).hbmLeg = s.hbmLeg := rfl
@[simp] theorem State.modPort_l2 (s : State) (f : Port → Port) : (s.modPort f).l2 = s.l2 := rfl
@[simp] theorem State.modPort_walks (s : State) (f : Port → Port) : (s.modPort f).walks = s.walks := rfl
@[simp] theorem State.modPort_xlat (s : State) (f : Port → Port) : (s.modPort f).xlat = s.xlat := rfl
@[simp] theorem State.modPort_domtab (s : State) (f : Port → Port) : (s.modPort f).domtab = s.domtab := rfl
@[simp] theorem State.modPort_ptroot (s : State) (f : Port → Port) : (s.modPort f).ptroot = s.ptroot := rfl
@[simp] theorem State.modPort_poison (s : State) (f : Port → Port) : (s.modPort f).poison = s.poison := rfl
@[simp] theorem State.modPort_cur (s : State) (f : Port → Port) : (s.modPort f).cur = s.cur := rfl
@[simp] theorem State.modPort_granted (s : State) (f : Port → Port) : (s.modPort f).granted = s.granted := rfl
@[simp] theorem State.modPort_agenda (s : State) (f : Port → Port) : (s.modPort f).agenda = s.agenda := rfl
@[simp] theorem State.modPort_freeCtr (s : State) (f : Port → Port) : (s.modPort f).freeCtr = s.freeCtr := rfl

@[simp] theorem State.modTeam_cores (s : State) (h : Nat) (f : Team → Team) : (s.modTeam h f).cores = s.cores := rfl
@[simp] theorem State.modTeam_svcs (s : State) (h : Nat) (f : Team → Team) : (s.modTeam h f).svcs = s.svcs := rfl
@[simp] theorem State.modTeam_clusters (s : State) (h : Nat) (f : Team → Team) : (s.modTeam h f).clusters = s.clusters := rfl
@[simp] theorem State.modTeam_channels (s : State) (h : Nat) (f : Team → Team) : (s.modTeam h f).channels = s.channels := rfl
@[simp] theorem State.modTeam_slices (s : State) (h : Nat) (f : Team → Team) : (s.modTeam h f).slices = s.slices := rfl
@[simp] theorem State.modTeam_nextHandle (s : State) (h : Nat) (f : Team → Team) : (s.modTeam h f).nextHandle = s.nextHandle := rfl
@[simp] theorem State.modTeam_kernels (s : State) (h : Nat) (f : Team → Team) : (s.modTeam h f).kernels = s.kernels := rfl
@[simp] theorem State.modTeam_nextTicket (s : State) (h : Nat) (f : Team → Team) : (s.modTeam h f).nextTicket = s.nextTicket := rfl
@[simp] theorem State.modTeam_net (s : State) (h : Nat) (f : Team → Team) : (s.modTeam h f).net = s.net := rfl
@[simp] theorem State.modTeam_nextId (s : State) (h : Nat) (f : Team → Team) : (s.modTeam h f).nextId = s.nextId := rfl
@[simp] theorem State.modTeam_hbm (s : State) (h : Nat) (f : Team → Team) : (s.modTeam h f).hbm = s.hbm := rfl
@[simp] theorem State.modTeam_hbmLeg (s : State) (h : Nat) (f : Team → Team) : (s.modTeam h f).hbmLeg = s.hbmLeg := rfl
@[simp] theorem State.modTeam_l2 (s : State) (h : Nat) (f : Team → Team) : (s.modTeam h f).l2 = s.l2 := rfl
@[simp] theorem State.modTeam_walks (s : State) (h : Nat) (f : Team → Team) : (s.modTeam h f).walks = s.walks := rfl
@[simp] theorem State.modTeam_xlat (s : State) (h : Nat) (f : Team → Team) : (s.modTeam h f).xlat = s.xlat := rfl
@[simp] theorem State.modTeam_domtab (s : State) (h : Nat) (f : Team → Team) : (s.modTeam h f).domtab = s.domtab := rfl
@[simp] theorem State.modTeam_ptroot (s : State) (h : Nat) (f : Team → Team) : (s.modTeam h f).ptroot = s.ptroot := rfl
@[simp] theorem State.modTeam_poison (s : State) (h : Nat) (f : Team → Team) : (s.modTeam h f).poison = s.poison := rfl
@[simp] theorem State.modTeam_port (s : State) (h : Nat) (f : Team → Team) : (s.modTeam h f).port = s.port := rfl
@[simp] theorem State.modTeam_cur (s : State) (h : Nat) (f : Team → Team) : (s.modTeam h f).cur = s.cur := rfl
@[simp] theorem State.modTeam_granted (s : State) (h : Nat) (f : Team → Team) : (s.modTeam h f).granted = s.granted := rfl
@[simp] theorem State.modTeam_agenda (s : State) (h : Nat) (f : Team → Team) : (s.modTeam h f).agenda = s.agenda := rfl
@[simp] theorem State.modTeam_freeCtr (s : State) (h : Nat) (f : Team → Team) : (s.modTeam h f).freeCtr = s.freeCtr := rfl

@[simp] theorem State.modKernel_cores (s : State) (n : Nat) (f : Kernel → Kernel) : (s.modKernel n f).cores = s.cores := rfl
@[simp] theorem State.modKernel_svcs (s : State) (n : Nat) (f : Kernel → Kernel) : (s.modKernel n f).svcs = s.svcs := rfl
@[simp] theorem State.modKernel_clusters (s : State) (n : Nat) (f : Kernel → Kernel) : (s.modKernel n f).clusters = s.clusters := rfl
@[simp] theorem State.modKernel_channels (s : State) (n : Nat) (f : Kernel → Kernel) : (s.modKernel n f).channels = s.channels := rfl
@[simp] theorem State.modKernel_slices (s : State) (n : Nat) (f : Kernel → Kernel) : (s.modKernel n f).slices = s.slices := rfl
@[simp] theorem State.modKernel_teams (s : State) (n : Nat) (f : Kernel → Kernel) : (s.modKernel n f).teams = s.teams := rfl
@[simp] theorem State.modKernel_nextHandle (s : State) (n : Nat) (f : Kernel → Kernel) : (s.modKernel n f).nextHandle = s.nextHandle := rfl
@[simp] theorem State.modKernel_nextTicket (s : State) (n : Nat) (f : Kernel → Kernel) : (s.modKernel n f).nextTicket = s.nextTicket := rfl
@[simp] theorem State.modKernel_net (s : State) (n : Nat) (f : Kernel → Kernel) : (s.modKernel n f).net = s.net := rfl
@[simp] theorem State.modKernel_nextId (s : State) (n : Nat) (f : Kernel → Kernel) : (s.modKernel n f).nextId = s.nextId := rfl
@[simp] theorem State.modKernel_hbm (s : State) (n : Nat) (f : Kernel → Kernel) : (s.modKernel n f).hbm = s.hbm := rfl
@[simp] theorem State.modKernel_hbmLeg (s : State) (n : Nat) (f : Kernel → Kernel) : (s.modKernel n f).hbmLeg = s.hbmLeg := rfl
@[simp] theorem State.modKernel_l2 (s : State) (n : Nat) (f : Kernel → Kernel) : (s.modKernel n f).l2 = s.l2 := rfl
@[simp] theorem State.modKernel_walks (s : State) (n : Nat) (f : Kernel → Kernel) : (s.modKernel n f).walks = s.walks := rfl
@[simp] theorem State.modKernel_xlat (s : State) (n : Nat) (f : Kernel → Kernel) : (s.modKernel n f).xlat = s.xlat := rfl
@[simp] theorem State.modKernel_domtab (s : State) (n : Nat) (f : Kernel → Kernel) : (s.modKernel n f).domtab = s.domtab := rfl
@[simp] theorem State.modKernel_ptroot (s : State) (n : Nat) (f : Kernel → Kernel) : (s.modKernel n f).ptroot = s.ptroot := rfl
@[simp] theorem State.modKernel_poison (s : State) (n : Nat) (f : Kernel → Kernel) : (s.modKernel n f).poison = s.poison := rfl
@[simp] theorem State.modKernel_port (s : State) (n : Nat) (f : Kernel → Kernel) : (s.modKernel n f).port = s.port := rfl
@[simp] theorem State.modKernel_cur (s : State) (n : Nat) (f : Kernel → Kernel) : (s.modKernel n f).cur = s.cur := rfl
@[simp] theorem State.modKernel_granted (s : State) (n : Nat) (f : Kernel → Kernel) : (s.modKernel n f).granted = s.granted := rfl
@[simp] theorem State.modKernel_agenda (s : State) (n : Nat) (f : Kernel → Kernel) : (s.modKernel n f).agenda = s.agenda := rfl
@[simp] theorem State.modKernel_freeCtr (s : State) (n : Nat) (f : Kernel → Kernel) : (s.modKernel n f).freeCtr = s.freeCtr := rfl

@[simp] theorem State.fresh_cores (s : State) : s.fresh.2.cores = s.cores := rfl
@[simp] theorem State.fresh_svcs (s : State) : s.fresh.2.svcs = s.svcs := rfl
@[simp] theorem State.fresh_clusters (s : State) : s.fresh.2.clusters = s.clusters := rfl
@[simp] theorem State.fresh_channels (s : State) : s.fresh.2.channels = s.channels := rfl
@[simp] theorem State.fresh_slices (s : State) : s.fresh.2.slices = s.slices := rfl
@[simp] theorem State.fresh_teams (s : State) : s.fresh.2.teams = s.teams := rfl
@[simp] theorem State.fresh_nextHandle (s : State) : s.fresh.2.nextHandle = s.nextHandle := rfl
@[simp] theorem State.fresh_kernels (s : State) : s.fresh.2.kernels = s.kernels := rfl
@[simp] theorem State.fresh_nextTicket (s : State) : s.fresh.2.nextTicket = s.nextTicket := rfl
@[simp] theorem State.fresh_net (s : State) : s.fresh.2.net = s.net := rfl
@[simp] theorem State.fresh_hbm (s : State) : s.fresh.2.hbm = s.hbm := rfl
@[simp] theorem State.fresh_hbmLeg (s : State) : s.fresh.2.hbmLeg = s.hbmLeg := rfl
@[simp] theorem State.fresh_l2 (s : State) : s.fresh.2.l2 = s.l2 := rfl
@[simp] theorem State.fresh_walks (s : State) : s.fresh.2.walks = s.walks := rfl
@[simp] theorem State.fresh_xlat (s : State) : s.fresh.2.xlat = s.xlat := rfl
@[simp] theorem State.fresh_domtab (s : State) : s.fresh.2.domtab = s.domtab := rfl
@[simp] theorem State.fresh_ptroot (s : State) : s.fresh.2.ptroot = s.ptroot := rfl
@[simp] theorem State.fresh_poison (s : State) : s.fresh.2.poison = s.poison := rfl
@[simp] theorem State.fresh_port (s : State) : s.fresh.2.port = s.port := rfl
@[simp] theorem State.fresh_cur (s : State) : s.fresh.2.cur = s.cur := rfl
@[simp] theorem State.fresh_granted (s : State) : s.fresh.2.granted = s.granted := rfl
@[simp] theorem State.fresh_agenda (s : State) : s.fresh.2.agenda = s.agenda := rfl
@[simp] theorem State.fresh_freeCtr (s : State) : s.fresh.2.freeCtr = s.freeCtr := rfl
@[simp] theorem State.fresh_fst (s : State) : s.fresh.1 = s.nextId := rfl
@[simp] theorem State.fresh_nextId (s : State) : s.fresh.2.nextId = s.nextId + 1 := rfl

@[simp] theorem State.free_cores (s : State) : s.free.2.cores = s.cores := rfl
@[simp] theorem State.free_svcs (s : State) : s.free.2.svcs = s.svcs := rfl
@[simp] theorem State.free_clusters (s : State) : s.free.2.clusters = s.clusters := rfl
@[simp] theorem State.free_channels (s : State) : s.free.2.channels = s.channels := rfl
@[simp] theorem State.free_slices (s : State) : s.free.2.slices = s.slices := rfl
@[simp] theorem State.free_teams (s : State) : s.free.2.teams = s.teams := rfl
@[simp] theorem State.free_nextHandle (s : State) : s.free.2.nextHandle = s.nextHandle := rfl
@[simp] theorem State.free_kernels (s : State) : s.free.2.kernels = s.kernels := rfl
@[simp] theorem State.free_nextTicket (s : State) : s.free.2.nextTicket = s.nextTicket := rfl
@[simp] theorem State.free_net (s : State) : s.free.2.net = s.net := rfl
@[simp] theorem State.free_nextId (s : State) : s.free.2.nextId = s.nextId := rfl
@[simp] theorem State.free_hbm (s : State) : s.free.2.hbm = s.hbm := rfl
@[simp] theorem State.free_hbmLeg (s : State) : s.free.2.hbmLeg = s.hbmLeg := rfl
@[simp] theorem State.free_l2 (s : State) : s.free.2.l2 = s.l2 := rfl
@[simp] theorem State.free_walks (s : State) : s.free.2.walks = s.walks := rfl
@[simp] theorem State.free_xlat (s : State) : s.free.2.xlat = s.xlat := rfl
@[simp] theorem State.free_domtab (s : State) : s.free.2.domtab = s.domtab := rfl
@[simp] theorem State.free_ptroot (s : State) : s.free.2.ptroot = s.ptroot := rfl
@[simp] theorem State.free_poison (s : State) : s.free.2.poison = s.poison := rfl
@[simp] theorem State.free_port (s : State) : s.free.2.port = s.port := rfl
@[simp] theorem State.free_cur (s : State) : s.free.2.cur = s.cur := rfl
@[simp] theorem State.free_granted (s : State) : s.free.2.granted = s.granted := rfl
@[simp] theorem State.free_agenda (s : State) : s.free.2.agenda = s.agenda := rfl
@[simp] theorem State.free_freeCtr (s : State) : s.free.2.freeCtr = s.freeCtr + 1 := rfl

/-! ### Units -/

@[simp] theorem State.core_setCore (s : State) (c : Nat) (x : Core) : (s.setCore c x).core c = x := by simp [State.setCore, State.core]
theorem State.core_setCore_ne (s : State) {c d : Nat} (x : Core) (h : d ≠ c) : (s.setCore c x).core d = s.core d := by
  simp [State.setCore, State.core, aget_aput_ne _ _ _ h]
@[simp] theorem State.core_modCore (s : State) (c : Nat) (f : Core → Core) : (s.modCore c f).core c = f (s.core c) := by
  simp [State.modCore]
theorem State.core_modCore_ne (s : State) {c d : Nat} (f : Core → Core) (h : d ≠ c) : (s.modCore c f).core d = s.core d :=
  s.core_setCore_ne _ h
@[simp] theorem Core.slot_setSlot (x : Core) (k : Nat) (sl : Slot) (h : k < 4) : (x.setSlot k sl).slot k = sl := by
  simp [Core.setSlot, Core.slot, h]
theorem Core.slot_setSlot_ne (x : Core) {k j : Nat} (sl : Slot) (h : j ≠ k) : (x.setSlot k sl).slot j = x.slot j := by
  simp [Core.setSlot, Core.slot, vget_vput_ne _ _ _ h]
@[simp] theorem State.slot_setSlot (s : State) (c k : Nat) (sl : Slot) (h : k < 4) : (s.setSlot c k sl).slot c k = sl := by
  simp [State.setSlot, State.slot, h]
theorem State.slot_setSlot_core (s : State) {c d : Nat} (k j : Nat) (sl : Slot) (h : d ≠ c) :
    (s.setSlot c k sl).slot d j = s.slot d j := by
  simp [State.setSlot, State.slot, State.core_modCore_ne _ _ h]
theorem State.slot_setSlot_ne (s : State) (c : Nat) {k j : Nat} (sl : Slot) (h : j ≠ k) :
    (s.setSlot c k sl).slot c j = s.slot c j := by
  simp [State.setSlot, State.slot, Core.slot_setSlot_ne _ _ h]
@[simp] theorem State.slot_modSlot (s : State) (c k : Nat) (f : Slot → Slot) (h : k < 4) :
    (s.modSlot c k f).slot c k = f (s.slot c k) := by
  simp [State.modSlot, h]
theorem State.slot_modSlot_core (s : State) {c d : Nat} (k j : Nat) (f : Slot → Slot) (h : d ≠ c) :
    (s.modSlot c k f).slot d j = s.slot d j := s.slot_setSlot_core k j _ h
theorem State.slot_modSlot_ne (s : State) (c : Nat) {k j : Nat} (f : Slot → Slot) (h : j ≠ k) :
    (s.modSlot c k f).slot c j = s.slot c j := s.slot_setSlot_ne c _ h
@[simp] theorem State.svc_setSvc (s : State) (n : Nat) (x : Svc) : (s.setSvc n x).svc n = x := by simp [State.setSvc, State.svc]
theorem State.svc_setSvc_ne (s : State) {n m : Nat} (x : Svc) (h : m ≠ n) : (s.setSvc n x).svc m = s.svc m := by
  simp [State.setSvc, State.svc, aget_aput_ne _ _ _ h]
@[simp] theorem State.svc_modSvc (s : State) (n : Nat) (f : Svc → Svc) : (s.modSvc n f).svc n = f (s.svc n) := by simp [State.modSvc]
theorem State.svc_modSvc_ne (s : State) {n m : Nat} (f : Svc → Svc) (h : m ≠ n) : (s.modSvc n f).svc m = s.svc m :=
  s.svc_setSvc_ne _ h
@[simp] theorem State.svc_modCore (s : State) (c : Nat) (f : Core → Core) (n : Nat) : (s.modCore c f).svc n = s.svc n := rfl
@[simp] theorem State.svc_modSlot (s : State) (c k : Nat) (f : Slot → Slot) (n : Nat) : (s.modSlot c k f).svc n = s.svc n := rfl
@[simp] theorem State.core_modSvc (s : State) (n : Nat) (f : Svc → Svc) (c : Nat) : (s.modSvc n f).core c = s.core c := rfl
@[simp] theorem State.slot_modSvc (s : State) (n : Nat) (f : Svc → Svc) (c k : Nat) : (s.modSvc n f).slot c k = s.slot c k := rfl
@[simp] theorem State.core_modPort (s : State) (f : Port → Port) (c : Nat) : (s.modPort f).core c = s.core c := rfl
@[simp] theorem State.slot_modPort (s : State) (f : Port → Port) (c k : Nat) : (s.modPort f).slot c k = s.slot c k := rfl
@[simp] theorem State.svc_modPort (s : State) (f : Port → Port) (n : Nat) : (s.modPort f).svc n = s.svc n := rfl
@[simp] theorem State.cluster_modCluster (s : State) (n : Nat) (f : Cluster → Cluster) :
    (s.modCluster n f).cluster n = f (s.cluster n) := by simp [State.modCluster, State.cluster]
@[simp] theorem State.channel_modChannel (s : State) (n : Nat) (f : Channel → Channel) :
    (s.modChannel n f).channel n = f (s.channel n) := by simp [State.modChannel, State.channel]
@[simp] theorem State.slice_modSlice (s : State) (n : Nat) (f : Channel → Channel) :
    (s.modSlice n f).slice n = f (s.slice n) := by simp [State.modSlice, State.slice]
@[simp] theorem State.port_modPort (s : State) (f : Port → Port) : (s.modPort f).port = f s.port := rfl

/-- A slot update leaves every other part of its core as it was. -/
@[simp] theorem Core.setSlot_last (x : Core) (k : Nat) (sl : Slot) : (x.setSlot k sl).last = x.last := rfl
@[simp] theorem Core.setSlot_issued (x : Core) (k : Nat) (sl : Slot) : (x.setSlot k sl).issued = x.issued := rfl
@[simp] theorem Core.setSlot_cyc (x : Core) (k : Nat) (sl : Slot) : (x.setSlot k sl).cyc = x.cyc := rfl
@[simp] theorem Core.setSlot_queues (x : Core) (k : Nat) (sl : Slot) : (x.setSlot k sl).queues = x.queues := rfl
@[simp] theorem Core.setSlot_qerr (x : Core) (k : Nat) (sl : Slot) : (x.setSlot k sl).qerr = x.qerr := rfl
@[simp] theorem Core.setSlot_qfault (x : Core) (k : Nat) (sl : Slot) : (x.setSlot k sl).qfault = x.qfault := rfl
@[simp] theorem Core.setSlot_qbad (x : Core) (k : Nat) (sl : Slot) : (x.setSlot k sl).qbad = x.qbad := rfl
@[simp] theorem Core.setSlot_mem (x : Core) (k : Nat) (sl : Slot) : (x.setSlot k sl).mem = x.mem := rfl
@[simp] theorem Core.setSlot_leg (x : Core) (k : Nat) (sl : Slot) : (x.setSlot k sl).leg = x.leg := rfl
@[simp] theorem Core.setSlot_banks (x : Core) (k : Nat) (sl : Slot) : (x.setSlot k sl).banks = x.banks := rfl
@[simp] theorem Core.setSlot_mu (x : Core) (k : Nat) (sl : Slot) : (x.setSlot k sl).mu = x.mu := rfl
@[simp] theorem Core.setSlot_drains (x : Core) (k : Nat) (sl : Slot) : (x.setSlot k sl).drains = x.drains := rfl
@[simp] theorem Core.setSlot_ranges (x : Core) (k : Nat) (sl : Slot) : (x.setSlot k sl).ranges = x.ranges := rfl
@[simp] theorem Core.setSlot_deque (x : Core) (k : Nat) (sl : Slot) : (x.setSlot k sl).deque = x.deque := rfl
@[simp] theorem Core.setSlot_streams (x : Core) (k : Nat) (sl : Slot) : (x.setSlot k sl).streams = x.streams := rfl
@[simp] theorem Core.setSlot_gathers (x : Core) (k : Nat) (sl : Slot) : (x.setSlot k sl).gathers = x.gathers := rfl
@[simp] theorem Core.setSlot_plb (x : Core) (k : Nat) (sl : Slot) : (x.setSlot k sl).plb = x.plb := rfl
@[simp] theorem Core.setSlot_fills (x : Core) (k : Nat) (sl : Slot) : (x.setSlot k sl).fills = x.fills := rfl
@[simp] theorem Core.setSlot_l1 (x : Core) (k : Nat) (sl : Slot) : (x.setSlot k sl).l1 = x.l1 := rfl
@[simp] theorem Core.setSlot_icache (x : Core) (k : Nat) (sl : Slot) : (x.setSlot k sl).icache = x.icache := rfl
@[simp] theorem Core.setSlot_waypoints (x : Core) (k : Nat) (sl : Slot) : (x.setSlot k sl).waypoints = x.waypoints := rfl
@[simp] theorem Core.setSlot_trav (x : Core) (k : Nat) (sl : Slot) : (x.setSlot k sl).trav = x.trav := rfl
@[simp] theorem Core.setSlot_samp (x : Core) (k : Nat) (sl : Slot) : (x.setSlot k sl).samp = x.samp := rfl
@[simp] theorem Core.setSlot_clock (x : Core) (k : Nat) (sl : Slot) : (x.setSlot k sl).clock = x.clock := rfl

@[simp] theorem State.core_modSlot_last (s : State) (c k : Nat) (f : Slot → Slot) (d : Nat) : ((s.modSlot c k f).core d).last = (s.core d).last := by
  by_cases h : d = c
  · subst h; simp [State.modSlot, State.setSlot]
  · simp [State.modSlot, State.setSlot, State.core_modCore_ne _ _ h]
@[simp] theorem State.core_modSlot_issued (s : State) (c k : Nat) (f : Slot → Slot) (d : Nat) : ((s.modSlot c k f).core d).issued = (s.core d).issued := by
  by_cases h : d = c
  · subst h; simp [State.modSlot, State.setSlot]
  · simp [State.modSlot, State.setSlot, State.core_modCore_ne _ _ h]
@[simp] theorem State.core_modSlot_cyc (s : State) (c k : Nat) (f : Slot → Slot) (d : Nat) : ((s.modSlot c k f).core d).cyc = (s.core d).cyc := by
  by_cases h : d = c
  · subst h; simp [State.modSlot, State.setSlot]
  · simp [State.modSlot, State.setSlot, State.core_modCore_ne _ _ h]
@[simp] theorem State.core_modSlot_queues (s : State) (c k : Nat) (f : Slot → Slot) (d : Nat) : ((s.modSlot c k f).core d).queues = (s.core d).queues := by
  by_cases h : d = c
  · subst h; simp [State.modSlot, State.setSlot]
  · simp [State.modSlot, State.setSlot, State.core_modCore_ne _ _ h]
@[simp] theorem State.core_modSlot_qerr (s : State) (c k : Nat) (f : Slot → Slot) (d : Nat) : ((s.modSlot c k f).core d).qerr = (s.core d).qerr := by
  by_cases h : d = c
  · subst h; simp [State.modSlot, State.setSlot]
  · simp [State.modSlot, State.setSlot, State.core_modCore_ne _ _ h]
@[simp] theorem State.core_modSlot_qfault (s : State) (c k : Nat) (f : Slot → Slot) (d : Nat) : ((s.modSlot c k f).core d).qfault = (s.core d).qfault := by
  by_cases h : d = c
  · subst h; simp [State.modSlot, State.setSlot]
  · simp [State.modSlot, State.setSlot, State.core_modCore_ne _ _ h]
@[simp] theorem State.core_modSlot_qbad (s : State) (c k : Nat) (f : Slot → Slot) (d : Nat) : ((s.modSlot c k f).core d).qbad = (s.core d).qbad := by
  by_cases h : d = c
  · subst h; simp [State.modSlot, State.setSlot]
  · simp [State.modSlot, State.setSlot, State.core_modCore_ne _ _ h]
@[simp] theorem State.core_modSlot_mem (s : State) (c k : Nat) (f : Slot → Slot) (d : Nat) : ((s.modSlot c k f).core d).mem = (s.core d).mem := by
  by_cases h : d = c
  · subst h; simp [State.modSlot, State.setSlot]
  · simp [State.modSlot, State.setSlot, State.core_modCore_ne _ _ h]
@[simp] theorem State.core_modSlot_leg (s : State) (c k : Nat) (f : Slot → Slot) (d : Nat) : ((s.modSlot c k f).core d).leg = (s.core d).leg := by
  by_cases h : d = c
  · subst h; simp [State.modSlot, State.setSlot]
  · simp [State.modSlot, State.setSlot, State.core_modCore_ne _ _ h]
@[simp] theorem State.core_modSlot_banks (s : State) (c k : Nat) (f : Slot → Slot) (d : Nat) : ((s.modSlot c k f).core d).banks = (s.core d).banks := by
  by_cases h : d = c
  · subst h; simp [State.modSlot, State.setSlot]
  · simp [State.modSlot, State.setSlot, State.core_modCore_ne _ _ h]
@[simp] theorem State.core_modSlot_mu (s : State) (c k : Nat) (f : Slot → Slot) (d : Nat) : ((s.modSlot c k f).core d).mu = (s.core d).mu := by
  by_cases h : d = c
  · subst h; simp [State.modSlot, State.setSlot]
  · simp [State.modSlot, State.setSlot, State.core_modCore_ne _ _ h]
@[simp] theorem State.core_modSlot_drains (s : State) (c k : Nat) (f : Slot → Slot) (d : Nat) : ((s.modSlot c k f).core d).drains = (s.core d).drains := by
  by_cases h : d = c
  · subst h; simp [State.modSlot, State.setSlot]
  · simp [State.modSlot, State.setSlot, State.core_modCore_ne _ _ h]
@[simp] theorem State.core_modSlot_ranges (s : State) (c k : Nat) (f : Slot → Slot) (d : Nat) : ((s.modSlot c k f).core d).ranges = (s.core d).ranges := by
  by_cases h : d = c
  · subst h; simp [State.modSlot, State.setSlot]
  · simp [State.modSlot, State.setSlot, State.core_modCore_ne _ _ h]
@[simp] theorem State.core_modSlot_deque (s : State) (c k : Nat) (f : Slot → Slot) (d : Nat) : ((s.modSlot c k f).core d).deque = (s.core d).deque := by
  by_cases h : d = c
  · subst h; simp [State.modSlot, State.setSlot]
  · simp [State.modSlot, State.setSlot, State.core_modCore_ne _ _ h]
@[simp] theorem State.core_modSlot_streams (s : State) (c k : Nat) (f : Slot → Slot) (d : Nat) : ((s.modSlot c k f).core d).streams = (s.core d).streams := by
  by_cases h : d = c
  · subst h; simp [State.modSlot, State.setSlot]
  · simp [State.modSlot, State.setSlot, State.core_modCore_ne _ _ h]
@[simp] theorem State.core_modSlot_gathers (s : State) (c k : Nat) (f : Slot → Slot) (d : Nat) : ((s.modSlot c k f).core d).gathers = (s.core d).gathers := by
  by_cases h : d = c
  · subst h; simp [State.modSlot, State.setSlot]
  · simp [State.modSlot, State.setSlot, State.core_modCore_ne _ _ h]
@[simp] theorem State.core_modSlot_plb (s : State) (c k : Nat) (f : Slot → Slot) (d : Nat) : ((s.modSlot c k f).core d).plb = (s.core d).plb := by
  by_cases h : d = c
  · subst h; simp [State.modSlot, State.setSlot]
  · simp [State.modSlot, State.setSlot, State.core_modCore_ne _ _ h]
@[simp] theorem State.core_modSlot_fills (s : State) (c k : Nat) (f : Slot → Slot) (d : Nat) : ((s.modSlot c k f).core d).fills = (s.core d).fills := by
  by_cases h : d = c
  · subst h; simp [State.modSlot, State.setSlot]
  · simp [State.modSlot, State.setSlot, State.core_modCore_ne _ _ h]
@[simp] theorem State.core_modSlot_l1 (s : State) (c k : Nat) (f : Slot → Slot) (d : Nat) : ((s.modSlot c k f).core d).l1 = (s.core d).l1 := by
  by_cases h : d = c
  · subst h; simp [State.modSlot, State.setSlot]
  · simp [State.modSlot, State.setSlot, State.core_modCore_ne _ _ h]
@[simp] theorem State.core_modSlot_icache (s : State) (c k : Nat) (f : Slot → Slot) (d : Nat) : ((s.modSlot c k f).core d).icache = (s.core d).icache := by
  by_cases h : d = c
  · subst h; simp [State.modSlot, State.setSlot]
  · simp [State.modSlot, State.setSlot, State.core_modCore_ne _ _ h]
@[simp] theorem State.core_modSlot_waypoints (s : State) (c k : Nat) (f : Slot → Slot) (d : Nat) : ((s.modSlot c k f).core d).waypoints = (s.core d).waypoints := by
  by_cases h : d = c
  · subst h; simp [State.modSlot, State.setSlot]
  · simp [State.modSlot, State.setSlot, State.core_modCore_ne _ _ h]
@[simp] theorem State.core_modSlot_trav (s : State) (c k : Nat) (f : Slot → Slot) (d : Nat) : ((s.modSlot c k f).core d).trav = (s.core d).trav := by
  by_cases h : d = c
  · subst h; simp [State.modSlot, State.setSlot]
  · simp [State.modSlot, State.setSlot, State.core_modCore_ne _ _ h]
@[simp] theorem State.core_modSlot_samp (s : State) (c k : Nat) (f : Slot → Slot) (d : Nat) : ((s.modSlot c k f).core d).samp = (s.core d).samp := by
  by_cases h : d = c
  · subst h; simp [State.modSlot, State.setSlot]
  · simp [State.modSlot, State.setSlot, State.core_modCore_ne _ _ h]
@[simp] theorem State.core_modSlot_clock (s : State) (c k : Nat) (f : Slot → Slot) (d : Nat) : ((s.modSlot c k f).core d).clock = (s.core d).clock := by
  by_cases h : d = c
  · subst h; simp [State.modSlot, State.setSlot]
  · simp [State.modSlot, State.setSlot, State.core_modCore_ne _ _ h]

/-! ### Threads -/

@[simp] theorem Thread.getX_zero (t : Thread) : t.getX 0 = 0 := rfl
@[simp] theorem Thread.setX_zero (t : Thread) (v : BitVec 64) : t.setX 0 v = t := rfl
theorem Thread.getX_setX (t : Thread) (n : Nat) (v : BitVec 64) (h0 : n ≠ 0) (h : n < 32) : (t.setX n v).getX n = v := by
  simp [Thread.getX, Thread.setX, h0, h]
theorem Thread.getX_setX_ne (t : Thread) {n m : Nat} (v : BitVec 64) (h : m ≠ n) : (t.setX n v).getX m = t.getX m := by
  unfold Thread.getX Thread.setX
  split
  · rfl
  · split
    · rfl
    · simp [vget_vput_ne _ _ _ h]
@[simp] theorem Thread.setX_p (t : Thread) (n : Nat) (v : BitVec 64) : (t.setX n v).p = t.p := by unfold Thread.setX; split <;> rfl
@[simp] theorem Thread.setX_pc (t : Thread) (n : Nat) (v : BitVec 64) : (t.setX n v).pc = t.pc := by unfold Thread.setX; split <;> rfl
@[simp] theorem Thread.setX_rm (t : Thread) (n : Nat) (v : BitVec 64) : (t.setX n v).rm = t.rm := by unfold Thread.setX; split <;> rfl
@[simp] theorem Thread.setX_flags (t : Thread) (n : Nat) (v : BitVec 64) : (t.setX n v).flags = t.flags := by
  unfold Thread.setX; split <;> rfl
@[simp] theorem Thread.setP_x (t : Thread) (n : Nat) (v : BitVec 32) : (t.setP n v).x = t.x := by unfold Thread.setP; split <;> rfl
@[simp] theorem Thread.setP_pc (t : Thread) (n : Nat) (v : BitVec 32) : (t.setP n v).pc = t.pc := by unfold Thread.setP; split <;> rfl
@[simp] theorem Thread.orFlags_x (t : Thread) (f : Flags) : (t.orFlags f).x = t.x := rfl
@[simp] theorem Thread.orFlags_p (t : Thread) (f : Flags) : (t.orFlags f).p = t.p := rfl
@[simp] theorem Thread.orFlags_pc (t : Thread) (f : Flags) : (t.orFlags f).pc = t.pc := rfl
@[simp] theorem Thread.orFlags_flags (t : Thread) (f : Flags) : (t.orFlags f).flags = t.flags ||| f := rfl

end Sys2Proof.Machine
end

