-- ==== Sys2Proof/Laws/Run.lean ====
section
/-! SUPPORT. How an instruction's body runs: what each step of the monad answers, and what an instruction answers when its
checks pass, stall or fault. -/

namespace Sys2Proof.Machine

/-! ### The monad -/

theorem bind_ok {α β : Type} {m : M α} {f : α → M β} {s s1 : State} {a : α} (h : m s = .ok (a, s1)) : (m >>= f) s = f a s1 := by
  simp only [bind, StateT.bind, h, Except.bind]

theorem bind_error {α β : Type} {m : M α} {f : α → M β} {s : State} {e : Stop} (h : m s = .error e) : (m >>= f) s = .error e := by
  simp only [bind, StateT.bind, h, Except.bind]

@[simp] theorem pure_run {α : Type} (a : α) (s : State) : (pure a : M α) s = .ok (a, s) := rfl
@[simp] theorem getS_run (s : State) : getS s = .ok (s, s) := rfl
@[simp] theorem modS_run (f : State → State) (s : State) : modS f s = .ok ((), f s) := rfl
@[simp] theorem stallOn_run {α : Type} (w : Wait) (s : State) : (stallOn w : M α) s = .error (.stall w) := rfl
@[simp] theorem askFor_run {α : Type} (f : State → State) (s : State) : (askFor f : M α) s = .error (.ask f) := rfl
@[simp] theorem holdIn_run {α : Type} (t s : State) : (holdIn t : M α) s = .error (.hold t) := rfl
@[simp] theorem raise_run {α : Type} (c : Cause) (v : BitVec 64) (s : State) : (raise c v : M α) s = .error (.trap c v) := rfl
@[simp] theorem curThread_run (s : State) : curThread s = .ok (s.thread, s) := rfl
@[simp] theorem curSlot_run (s : State) : curSlot s = .ok (s.slot s.at_.1 s.at_.2, s) := rfl
@[simp] theorem curCore_run (s : State) : curCore s = .ok (s.core s.at_.1, s) := rfl
@[simp] theorem curTeam_run (s : State) : curTeam s = .ok (s.teamOf s.at_.1 s.at_.2, s) := rfl
@[simp] theorem roundMode_run (s : State) : roundMode s = .ok (s.thread.rm.toNat, s) := rfl
@[simp] theorem guardM_run (o : Op) (s : State) : guardM o s = .ok (s.thread.guardBit o, s) := rfl
@[simp] theorem laneMaskM_run (o : Op) (l : Nat) (s : State) : laneMaskM o l s = .ok (s.thread.laneMask o l, s) := rfl
@[simp] theorem setFlags_run (f : Flags) (s : State) : setFlags f s = .ok ((), s.modThread (·.orFlags f)) := rfl
@[simp] theorem freeM_run (s : State) : freeM s = .ok s.free := rfl

/-- A p register that holds no error is read (R332). -/
theorem rdP_ok {n : Nat} {s : State} (h : s.maskError n = none) : rdP n s = .ok (s.thread.getP n, s) := by
  simp only [rdP, h]

/-- One that holds an error raises MACHINECHECK with its address. -/
theorem rdP_trap {n : Nat} {s : State} {a : BitVec 64} (h : s.maskError n = some a) :
    rdP n s = .error (.trap .machinecheck a) := by
  simp only [rdP, h]

/-- A write of a p register leaves its value in the agent's thread. -/
theorem wrP_ok (n : Nat) (v : BitVec 32) (s : State) : ∃ t, wrP n v s = .ok ((), t) := by
  unfold wrP
  split <;> exact ⟨_, rfl⟩

/-! ### Answers of an instruction -/

/-- Every attempt of an instruction that runs through `runLanes` answers a next state: the conclusion of its body, or
ILLEGAL or MACHINECHECK, or a wait for the store queue. -/
theorem runLanes_next (code : Nat) (o : Op) (body : M Flow) (s : State) : ∃ t, runLanes code o body s = .next t := by
  unfold runLanes
  repeat' split
  all_goals exact ⟨_, rfl⟩

/-- No p register holds an error where an opcode may run. -/
theorem mayRun_mask {code : Nat} {s : State} (h : s.mayRun code = true) (n : Nat) (hn : n < 32) : s.maskError n = none := by
  unfold State.mayRun at h
  cases hr : rowOf code with
  | none => simp [hr] at h
  | some r =>
    simp only [hr, Bool.and_eq_true, List.all_eq_true, List.mem_range] at h
    exact Option.isNone_iff_eq_none.mp (h.2 n hn)

theorem runLanes_run {code : Nat} {o : Op} {body : M Flow} {s : State} (h : s.mayRun code = true) :
    runLanes code o body s = .next (s.conclude o.len (body s)) := by
  have hp := mayRun_mask h o.p.toNat (by omega)
  unfold State.mayRun at h
  unfold runLanes
  cases hr : rowOf code with
  | none => simp [hr] at h
  | some r =>
    simp only [hr, Bool.and_eq_true, Bool.not_eq_eq_eq_not, Bool.not_true] at h
    simp [h.1.1, h.1.2, hp]

/-- A vector instruction whose body completes. -/
theorem runLanes_ok {code : Nat} {o : Op} {body : M Flow} {s t : State} {fl : Flow} (h : s.mayRun code = true)
    (hb : body s = .ok (fl, t)) : runLanes code o body s = .next (t.noteIssue.advance o.len fl) := by
  rw [runLanes_run h, hb]; rfl

/-- A scalar instruction whose guard holds and whose body completes. -/
theorem runScalar_ok {code : Nat} {o : Op} {body : M Flow} {s t : State} {fl : Flow} (h : s.mayRun code = true)
    (hg : s.thread.guardBit o = true) (hb : body s = .ok (fl, t)) :
    runScalar code o body s = .next (t.noteIssue.advance o.len fl) := by
  unfold runScalar
  exact runLanes_ok h (by simp [hg, hb])

/-- A scalar instruction whose guard holds, whatever its body answers. -/
theorem runScalar_run {code : Nat} {o : Op} {body : M Flow} {s : State} (h : s.mayRun code = true)
    (hg : s.thread.guardBit o = true) : runScalar code o body s = .next (s.conclude o.len (body s)) := by
  unfold runScalar
  rw [runLanes_run h]
  simp [hg]

/-- A scalar instruction whose guard is false issues and has no effect (R15, R43). -/
theorem runScalar_false {code : Nat} {o : Op} {body : M Flow} {s : State} (h : s.mayRun code = true)
    (hg : s.thread.guardBit o = false) : runScalar code o body s = .next (s.finish o.len) := by
  unfold runScalar
  rw [runLanes_run h]
  simp [hg, State.conclude, State.finish]

/-- A scalar instruction that transfers control. -/
theorem runScalar_goto {code : Nat} {o : Op} {body : M Flow} {s t : State} {a : BitVec 64} (h : s.mayRun code = true)
    (hg : s.thread.guardBit o = true) (hb : body s = .ok (.jump a, t)) : runScalar code o body s = .next (t.goto a) :=
  (runScalar_ok h hg hb).trans rfl

/-- A target that is a multiple of 4 is accepted (R35). -/
theorem jumpTo_ok {a : BitVec 64} (h : a.toNat % 4 = 0) (s : State) : jumpTo a s = .ok (.jump a, s) := by
  simp [jumpTo, h]

/-- Any other target raises ALIGN with the target (R35). -/
theorem jumpTo_trap {a : BitVec 64} (h : a.toNat % 4 ≠ 0) (s : State) : jumpTo a s = .error (.trap .align a) := by
  simp [jumpTo, h]

/-- An instruction that raises a fault. -/
theorem runScalar_trap {code : Nat} {o : Op} {body : M Flow} {s : State} {c : Cause} {v : BitVec 64} (h : s.mayRun code = true)
    (hg : s.thread.guardBit o = true) (hb : body s = .error (.trap c v)) : runScalar code o body s = .next (s.trapCur c v) := by
  rw [runScalar_run h hg, hb]; rfl

/-- An opcode that the profile or mode does not allow raises ILLEGAL with word 0 (R46). -/
theorem runLanes_illegal {code : Nat} {o : Op} {body : M Flow} {s : State} {r : Row} (hr : rowOf code = some r)
    (h : s.allowed r = false) : runLanes code o body s = .next (s.trapCur .illegal (packWord0 code o)) := by
  unfold runLanes
  simp [hr, h]

end Sys2Proof.Machine
end

