-- ==== Sys2Proof/Laws/Ops.lean ====
section
/-! SUPPORT. What each shared operation of an instruction's body can do: if it answers, then this (R18-R25, R41, R328). -/

namespace Sys2Proof.Machine

/-! ### Combining steps of a body -/

/-- A sequence answers only when both parts do. -/
theorem bind_cases {α β : Type} {m : M α} {f : α → M β} {s t : State} {b : β} (h : (m >>= f) s = .ok (b, t)) :
    ∃ (a : α) (s1 : State), m s = .ok (a, s1) ∧ f a s1 = .ok (b, t) := by
  cases hm : m s with
  | error e => rw [bind_error hm] at h; cases h
  | ok r => exact ⟨r.1, r.2, rfl, by rw [bind_ok (a := r.1) (s1 := r.2) hm] at h; exact h⟩

/-! ### Registers -/

/-- Reading an x register changes nothing and answers its value; a slot's register is owed nothing and holds no error. -/
theorem rdX_cases {n : Nat} {s t : State} {a : BitVec 64} (h : rdX n s = .ok (a, t)) :
    t = s ∧ a = s.thread.getX n ∧
      ∀ c k, s.cur = .slot c k → n ≠ 0 →
        (s.slot c k).owed.any (fun o => o.dst.coversX n) = false ∧ (s.slot c k).poisonAt (poisonKeyX n) = none := by
  unfold rdX at h
  split at h
  · rename_i i hc
    split at h
    · cases h
    · simp only [Except.ok.injEq, Prod.mk.injEq] at h
      exact ⟨h.2.symm, h.1.symm, by simp [hc]⟩
  · rename_i c k hc
    simp only at h
    split at h
    · rename_i h0
      simp only [Except.ok.injEq, Prod.mk.injEq] at h
      subst h0
      exact ⟨h.2.symm, h.1.symm.trans rfl, fun _ _ _ h0 => absurd rfl h0⟩
    · split at h
      · cases h
      · rename_i ho
        split at h
        · cases h
        · rename_i hp
          simp only [Except.ok.injEq, Prod.mk.injEq] at h
          refine ⟨h.2.symm, h.1.symm, fun c' k' e _ => ?_⟩
          rw [hc] at e
          cases e
          exact ⟨by simpa using ho, hp⟩

/-- Reading an x register that is owed nothing and holds no error. -/
theorem rdX_slot {n c k : Nat} {s : State} (hc : s.cur = .slot c k)
    (ho : (s.slot c k).owed.any (fun o => o.dst.coversX n) = false) (hp : (s.slot c k).poisonAt (poisonKeyX n) = none) :
    rdX n s = .ok (s.thread.getX n, s) := by
  unfold rdX
  simp only [hc, ho, hp]
  split <;> simp_all

/-- A slot's write of an x register. -/
theorem wrX_slot {n c k : Nat} {v : BitVec 64} {s : State} (hc : s.cur = .slot c k)
    (ho : n = 0 ∨ (s.slot c k).owed.any (fun o => o.dst.coversX n) = false) :
    wrX n v s = .ok ((), s.modSlot c k (fun x => { x.clearPoison (poisonKeyX n) with thr := x.thr.setX n v })) := by
  unfold wrX
  simp only [hc]
  rcases ho with rfl | ho
  · simp
  · simp [ho]

/-- What the write of an x register does when it answers. -/
theorem wrX_cases {n : Nat} {v : BitVec 64} {s t : State} (h : wrX n v s = .ok ((), t)) :
    (∃ c k, s.cur = .slot c k ∧ t = s.modSlot c k (fun x => { x.clearPoison (poisonKeyX n) with thr := x.thr.setX n v })) ∨
    (∃ i, s.cur = .svc i ∧ t = (s.cleanReg i (poisonKeyX n)).modThread (·.setX n v)) := by
  unfold wrX at h
  split at h
  · rename_i i hc
    simp only [Except.ok.injEq, Prod.mk.injEq, true_and] at h
    exact .inr ⟨i, hc, h.symm⟩
  · rename_i c k hc
    split at h
    · cases h
    · simp only [Except.ok.injEq, Prod.mk.injEq, true_and] at h
      exact .inl ⟨c, k, hc, h.symm⟩

/-- What the read of a vector register answers. -/
theorem rdV_cases {n : Nat} {s t : State} {a : Nat} (h : rdV n s = .ok (a, t)) :
    t = s ∧ ((∃ c k, s.cur = .slot c k ∧ a = (vget 0 (s.slot c k).v n).toNat ∧ (s.slot c k).regs.gated n = false ∧
        (s.slot c k).owed.any (fun o => o.dst.coversV n) = false ∧ (s.slot c k).poisonAt (poisonKeyV n) = none) ∨
      (∃ i, s.cur = .svc i ∧ a = (vget 0 (s.svc i).w n).toNat)) := by
  unfold rdV at h
  split at h
  · rename_i i hc
    split at h
    · cases h
    · simp only [Except.ok.injEq, Prod.mk.injEq] at h
      exact ⟨h.2.symm, .inr ⟨i, hc, h.1.symm⟩⟩
  · rename_i c k hc
    simp only at h
    split at h
    · cases h
    · rename_i hg
      split at h
      · cases h
      · rename_i ho
        split at h
        · cases h
        · rename_i hp
          simp only [Except.ok.injEq, Prod.mk.injEq] at h
          exact ⟨h.2.symm, .inl ⟨c, k, hc, h.1.symm, by simpa using hg, by simpa using ho, hp⟩⟩

/-- What the write of a vector register does when it answers. -/
theorem wrV_cases {n v : Nat} {s t : State} (h : wrV n v s = .ok ((), t)) :
    (∃ c k, s.cur = .slot c k ∧ (s.slot c k).regs.gated n = false ∧ (s.slot c k).owed.any (fun o => o.dst.coversV n) = false ∧
      t = s.modSlot c k (·.setV n (BitVec.ofNat 256 v))) ∨
    (∃ i, s.cur = .svc i ∧
      t = (s.cleanReg i (poisonKeyV n)).modSvc i (fun x => { x with w := vput x.w n (BitVec.ofNat 1024 v) })) := by
  unfold wrV at h
  split at h
  · rename_i i hc
    simp only [Except.ok.injEq, Prod.mk.injEq, true_and] at h
    exact .inr ⟨i, hc, h.symm⟩
  · rename_i c k hc
    simp only at h
    split at h
    · cases h
    · rename_i hg
      split at h
      · cases h
      · rename_i ho
        simp only [Except.ok.injEq, Prod.mk.injEq, true_and] at h
        exact .inl ⟨c, k, hc, by simpa using hg, by simpa using ho, h.symm⟩

/-! ### Queues and channels -/

/-- A queue whose head is gone: what is left of it, and the marks of loads with errors moved along. -/
abbrev Core.popped (c : Core) (q : Nat) (r : List (BitVec 256)) : Core := (c.setQueue q r).shiftBad q (· - 1)

/-- A pop answers the head of a queue that is not empty, and takes it. -/
theorem popQueue_cases {q : Nat} {s t : State} {e : BitVec 256} (h : popQueue q s = .ok (e, t)) :
    s.isGuest = false ∧ ∃ r, (s.core s.at_.1).queue q = e :: r ∧ t = s.modCore s.at_.1 (·.popped q r) := by
  unfold popQueue at h
  simp only at h
  split at h
  · cases h
  · rename_i hg
    split at h
    · cases h
    · split at h
      · split at h <;> cases h
      · rename_i e' r hq
        simp only [Except.ok.injEq, Prod.mk.injEq] at h
        exact ⟨by simpa using hg, r, by rw [hq, h.1], h.2.symm⟩

theorem popQueue_ok {q : Nat} {s : State} {e : BitVec 256} {r : List (BitVec 256)} (hg : s.isGuest = false)
    (hb : (s.core s.at_.1).qbad = []) (hq : (s.core s.at_.1).queue q = e :: r) :
    popQueue q s = .ok (e, s.modCore s.at_.1 (·.popped q r)) := by
  unfold popQueue
  simp only [hg, hb, hq, List.find?_nil]
  rfl

/-- A push goes behind the entries of a queue that has room and that no older push still concerns. -/
theorem pushQueue_cases {q : Nat} {e : BitVec 256} {s t : State} (h : pushQueue q e s = .ok ((), t)) :
    s.isGuest = false ∧ ((s.core s.at_.1).queue q).length < 16 ∧ (s.core s.at_.1).owesPush q = false ∧
      t = s.modCore s.at_.1 (·.setQueue q ((s.core s.at_.1).queue q ++ [e])) := by
  unfold pushQueue at h
  have h16 : queueCap = 16 := rfl
  dsimp only at h
  by_cases hg : s.isGuest = true
  · rw [if_pos hg] at h; cases h
  by_cases hr : ((s.core s.at_.1).room q == 0) = true
  · rw [if_neg hg, if_pos hr] at h; cases h
  by_cases ho : (s.core s.at_.1).owesPush q = true
  · rw [if_neg hg, if_neg hr, if_pos ho] at h; cases h
  rw [if_neg hg, if_neg hr, if_neg ho] at h
  have hl : ((s.core s.at_.1).queue q).length < 16 := by
    simp only [Core.room, beq_iff_eq] at hr
    omega
  simp only [Except.ok.injEq, Prod.mk.injEq, true_and] at h
  exact ⟨by simpa using hg, hl, by simpa using ho, h.symm⟩

theorem pushQueue_ok {q : Nat} {e : BitVec 256} {s : State} (hg : s.isGuest = false)
    (hl : (s.core s.at_.1).room q ≠ 0) (ho : (s.core s.at_.1).owesPush q = false) :
    pushQueue q e s = .ok ((), s.modCore s.at_.1 (·.setQueue q ((s.core s.at_.1).queue q ++ [e]))) := by
  unfold pushQueue
  simp [hg, hl, ho]

/-- A channel gives the entry at its head, and drops it. -/
theorem popChannel_cases {i : Nat} {s t : State} {e : BitVec 256} (h : popChannel i s = .ok (e, t)) :
    let mb := (s.slot s.at_.1 s.at_.2).act.mbox.toNat
    s.isGuest = false ∧ (s.bank s.at_.1 mb).count i ≠ 0 ∧
      e = bytesBv 256 (Mem.readN (s.core s.at_.1).mem (mb * 0x2000 + 32 * (s.bank s.at_.1 mb).entryIx i 0) 32) ∧
      t = s.modBank s.at_.1 mb (·.dropHead i 1) := by
  unfold popChannel at h
  simp only at h ⊢
  split at h
  · cases h
  · rename_i hg
    split at h
    · cases h
    · rename_i hn
      split at h
      · cases h
      · simp only [Except.ok.injEq, Prod.mk.injEq] at h
        exact ⟨by simpa using hg, by simpa using hn, h.1.symm, h.2.symm⟩

/-! ### Operands -/

/-- What an x source answers: a register unchanged, the low bytes of a queue's or a channel's head, or the immediate. -/
theorem srcX_cases {imm : BitVec 64} {d : Opd} {s t : State} {a : BitVec 64} (h : srcX imm d s = .ok (a, t)) :
    (∃ n, d = .reg n ∧ t = s ∧ a = s.thread.getX n.val) ∨
    (∃ q e r, d = .queue q ∧ s.isGuest = false ∧ (s.core s.at_.1).queue q.val = e :: r ∧ a = e.setWidth 64 ∧
      t = s.modCore s.at_.1 (·.popped q.val r)) ∨
    (∃ ch e, d = .chan ch ∧ popChannel ch.val s = .ok (e, t) ∧ a = e.setWidth 64) ∨
    ((∀ n, d ≠ .reg n) ∧ (∀ q, d ≠ .queue q) ∧ (∀ ch, d ≠ .chan ch) ∧ t = s ∧ a = imm) := by
  cases d with
  | reg n =>
    obtain ⟨h1, h2, -⟩ := rdX_cases h
    exact .inl ⟨n, rfl, h1, h2⟩
  | chan ch =>
    obtain ⟨e, s1, h1, h2⟩ := bind_cases h
    simp only [pure_run, Except.ok.injEq, Prod.mk.injEq] at h2
    exact .inr (.inr (.inl ⟨ch, e, rfl, h2.2 ▸ h1, h2.1.symm⟩))
  | queue q =>
    obtain ⟨e, s1, h1, h2⟩ := bind_cases h
    simp only [pure_run, Except.ok.injEq, Prod.mk.injEq] at h2
    obtain ⟨hg, r, hq, ht⟩ := popQueue_cases h1
    exact .inr (.inl ⟨q, e, r, rfl, hg, hq, h2.1.symm, by rw [← h2.2, ht]⟩)
  | _ =>
    simp only [srcX, pure_run, Except.ok.injEq, Prod.mk.injEq] at h
    exact .inr (.inr (.inr ⟨by simp, by simp, by simp, h.2.symm, h.1.symm⟩))

/-- What an x destination does when it takes a value. -/
theorem dstX_cases {d : Opd} {v : BitVec 64} {s t : State} (h : dstX d v s = .ok ((), t)) :
    (∃ n, d = .reg n ∧ wrX n.val v s = .ok ((), t)) ∨
    (∃ q, d = .queue q ∧ s.isGuest = false ∧ ((s.core s.at_.1).queue q.val).length < 16 ∧ (s.core s.at_.1).owesPush q.val = false ∧
      t = s.modCore s.at_.1 (·.setQueue q.val ((s.core s.at_.1).queue q.val ++ [v.setWidth 256]))) ∨
    ((∀ n, d ≠ .reg n) ∧ (∀ q, d ≠ .queue q) ∧ t = s) := by
  cases d with
  | reg n => exact .inl ⟨n, rfl, h⟩
  | queue q =>
    obtain ⟨h1, h2, h3, h4⟩ := pushQueue_cases h
    exact .inr (.inl ⟨q, rfl, h1, h2, h3, h4⟩)
  | _ =>
    simp only [dstX, pure_run, Except.ok.injEq, Prod.mk.injEq, true_and] at h
    exact .inr (.inr ⟨by simp, by simp, h.symm⟩)

/-! ### What a change of the state concerns -/

/-- Between two states, of the whole device only registers of the issuing slot, local queues and bank controllers of its core
differ: what the operands of an instruction can change. -/
structure State.Near (s t : State) : Prop where
  cur : t.cur = s.cur
  rest : s.sameRest t
  svcs : ∀ c k, s.cur = .slot c k → t.svcs = s.svcs
  cores : ∀ d, (t.core d).mem = (s.core d).mem ∧ (t.core d).leg = (s.core d).leg ∧ (t.core d).l1 = (s.core d).l1
  bufs : ∀ n, (t.svc n).mem = (s.svc n).mem ∧ (t.svc n).leg = (s.svc n).leg
  slots : ∀ c k, s.cur = .slot c k → ∀ c' k', (c', k') ≠ (c, k) → t.slot c' k' = s.slot c' k'
  pc : t.thread.pc = s.thread.pc

theorem State.Near.refl (s : State) : s.Near s :=
  ⟨rfl, ⟨rfl, rfl, rfl, rfl, rfl, rfl, rfl, rfl, rfl, rfl, rfl, rfl, rfl, rfl⟩, fun _ _ _ => rfl, fun _ => ⟨rfl, rfl, rfl⟩,
    fun _ => ⟨rfl, rfl⟩, fun _ _ _ _ _ _ => rfl, rfl⟩

theorem State.sameRest_trans {s t u : State} (h : s.sameRest t) (g : t.sameRest u) : s.sameRest u := by
  unfold State.sameRest at *
  simp_all

theorem State.Near.trans {s t u : State} (h : s.Near t) (g : t.Near u) : s.Near u :=
  ⟨g.cur.trans h.cur, State.sameRest_trans h.rest g.rest,
    fun c k e => (g.svcs c k (h.cur.trans e)).trans (h.svcs c k e),
    fun d => ⟨(g.cores d).1.trans (h.cores d).1, (g.cores d).2.1.trans (h.cores d).2.1, (g.cores d).2.2.trans (h.cores d).2.2⟩,
    fun n => ⟨(g.bufs n).1.trans (h.bufs n).1, (g.bufs n).2.trans (h.bufs n).2⟩,
    fun c k e c' k' ne => (g.slots c k (h.cur.trans e) c' k' ne).trans (h.slots c k e c' k' ne),
    g.pc.trans h.pc⟩

theorem State.Near.sameMemory {s t : State} (h : s.Near t) : s.sameMemory t :=
  ⟨h.cores, h.bufs, h.rest.2.2.2.2.2.2.1, h.rest.2.2.2.2.2.2.2.1, h.rest.2.2.2.2.2.2.2.2.1⟩

/-- A change of one core that keeps its slots and memories is near. -/
theorem State.near_modCore (s : State) (c : Nat) (f : Core → Core)
    (h : (f (s.core c)).mem = (s.core c).mem ∧ (f (s.core c)).leg = (s.core c).leg ∧ (f (s.core c)).l1 = (s.core c).l1 ∧
      (f (s.core c)).slots = (s.core c).slots) : s.Near (s.modCore c f) := by
  have hs : ∀ d j, (s.modCore c f).slot d j = s.slot d j := by
    intro d j
    by_cases e : d = c
    · subst e; simp [State.slot, Core.slot, h.2.2.2]
    · simp [State.slot, State.core_modCore_ne _ _ e]
  refine ⟨rfl, ⟨rfl, rfl, rfl, rfl, rfl, rfl, rfl, rfl, rfl, rfl, rfl, rfl, rfl, rfl⟩, fun _ _ _ => rfl, fun d => ?_,
    fun _ => ⟨rfl, rfl⟩, fun _ _ _ _ _ _ => hs _ _, ?_⟩
  · by_cases e : d = c
    · subst e; simp [h.1, h.2.1, h.2.2.1]
    · simp [State.core_modCore_ne _ _ e]
  · unfold State.thread
    simp only [State.modCore_cur]
    split
    · rw [hs]
    · rfl

/-- A change of the issuing slot that keeps its program counter is near. -/
theorem State.near_modSlot (s : State) {c k : Nat} (f : Slot → Slot) (hc : s.cur = .slot c k)
    (hpc : (f (s.slot c k)).thr.pc = (s.slot c k).thr.pc) : s.Near (s.modSlot c k f) := by
  refine ⟨rfl, ⟨rfl, rfl, rfl, rfl, rfl, rfl, rfl, rfl, rfl, rfl, rfl, rfl, rfl, rfl⟩, fun _ _ _ => rfl, fun d => by simp,
    fun _ => ⟨rfl, rfl⟩, ?_, ?_⟩
  · intro c' k' e c'' k'' ne
    rw [hc] at e
    cases e
    by_cases h1 : c'' = c
    · subst h1
      exact s.slot_modSlot_ne _ f (fun e => ne (by rw [e]))
    · exact s.slot_modSlot_core _ _ f h1
  · by_cases hk : k < 4
    · simp [State.thread, hc, hk, hpc]
    · simp only [State.thread, State.modSlot_cur, hc]
      have : (s.modSlot c k f).slot c k = s.slot c k := by
        simp [State.slot, State.modSlot, State.setSlot, Core.slot, Core.setSlot, vput, vget, hk]
      rw [this]

theorem State.near_modThread (s : State) (f : Thread → Thread) (hpc : (f s.thread).pc = s.thread.pc)
    {c k : Nat} (hc : s.cur = .slot c k) : s.Near (s.modThread f) := by
  have : s.modThread f = s.modSlot c k (fun x => { x with thr := f x.thr }) := by simp [State.modThread, hc]
  rw [this]
  refine s.near_modSlot _ hc ?_
  simpa [State.thread, hc] using hpc

theorem popQueue_near {q : Nat} {s t : State} {e : BitVec 256} (h : popQueue q s = .ok (e, t)) : s.Near t := by
  obtain ⟨-, r, -, rfl⟩ := popQueue_cases h
  exact s.near_modCore _ _ ⟨rfl, rfl, rfl, rfl⟩

theorem pushQueue_near {q : Nat} {s t : State} {e : BitVec 256} (h : pushQueue q e s = .ok ((), t)) : s.Near t := by
  obtain ⟨-, -, -, rfl⟩ := pushQueue_cases h
  exact s.near_modCore _ _ ⟨rfl, rfl, rfl, rfl⟩

theorem popChannel_near {i : Nat} {s t : State} {e : BitVec 256} (h : popChannel i s = .ok (e, t)) : s.Near t := by
  obtain ⟨-, -, -, rfl⟩ := popChannel_cases h
  exact s.near_modCore _ _ ⟨rfl, rfl, rfl, rfl⟩

/-- Reading an x source changes at most a queue or a mailbox of the core; the registers are as they were. -/
theorem srcX_near {imm : BitVec 64} {d : Opd} {s t : State} {a : BitVec 64} (h : srcX imm d s = .ok (a, t)) :
    s.Near t ∧ ∀ c k, t.slot c k = s.slot c k := by
  have modCoreSlots : ∀ (c : Nat) (f : Core → Core), (f (s.core c)).slots = (s.core c).slots → ∀ d j, (s.modCore c f).slot d j = s.slot d j := by
    intro c f hf d j
    by_cases e : d = c
    · subst e; simp [State.slot, Core.slot, hf]
    · simp [State.slot, State.core_modCore_ne _ _ e]
  rcases srcX_cases h with ⟨n, rfl, rfl, -⟩ | ⟨q, e, r, rfl, -, -, -, rfl⟩ | ⟨ch, e, rfl, hp, -⟩ | ⟨-, -, -, rfl, -⟩
  · exact ⟨.refl _, fun _ _ => rfl⟩
  · exact ⟨s.near_modCore _ _ ⟨rfl, rfl, rfl, rfl⟩, modCoreSlots _ _ rfl⟩
  · refine ⟨popChannel_near hp, ?_⟩
    obtain ⟨-, -, -, rfl⟩ := popChannel_cases hp
    exact modCoreSlots _ _ rfl
  · exact ⟨.refl _, fun _ _ => rfl⟩

/-- Writing an x destination changes at most the register of the issuing slot, or a queue of its core. -/
theorem dstX_near {d : Opd} {v : BitVec 64} {s t : State} {c k : Nat} (hc : s.cur = .slot c k) (h : dstX d v s = .ok ((), t)) :
    s.Near t := by
  rcases dstX_cases h with ⟨n, rfl, hw⟩ | ⟨q, rfl, -, -, -, rfl⟩ | ⟨-, -, rfl⟩
  · rcases wrX_cases hw with ⟨c', k', hc', rfl⟩ | ⟨i, hi, -⟩
    · exact s.near_modSlot _ hc' (by simp)
    · rw [hc] at hi; cases hi
  · exact s.near_modCore _ _ ⟨rfl, rfl, rfl, rfl⟩
  · exact .refl _

/-! ### Retirement -/

/-- What the note of an issue leaves of the slots, memories and units. -/
theorem State.noteIssue_slot (s : State) {c k : Nat} (hc : s.cur = .slot c k) (hk : k < 4) :
    s.noteIssue.slot c k =
      { s.slot c k with
        readyFor := 0, waited := 0, noMatch := false, badPage := none, badLine := none, draining := false, leaving := false
        sq := (s.slot c k).sq.map (·.skid) } := by
  simp only [State.noteIssue, hc, State.slot_modSlot _ _ _ _ hk]
  simp [State.slot, Core.slot]

theorem State.noteIssue_near (s : State) {c k : Nat} (hc : s.cur = .slot c k) : s.Near s.noteIssue := by
  simp only [State.noteIssue, hc]
  exact (s.near_modCore _ _ ⟨rfl, rfl, rfl, rfl⟩).trans (State.near_modSlot _ _ (by simp [hc]) rfl)

/-- The state in which an instruction of a slot has retired, slot by slot. -/
theorem State.finish_slot (s : State) (len : Len) {c k : Nat} (hc : s.cur = .slot c k) (hk : k < 4) :
    (s.finish len).slot c k = { s.noteIssue.slot c k with
      thr := { (s.slot c k).thr with pc := (s.slot c k).thr.pc + BitVec.ofNat 64 (lenBytes len) } } := by
  have hn : s.noteIssue.cur = .slot c k := (s.noteIssue_near hc).cur.trans hc
  simp only [State.finish, State.advance, State.setPc, State.modThread, State.thread, hn, State.slot_modSlot _ _ _ _ hk]
  simp [State.noteIssue_slot s hc hk]

theorem State.finish_frame (s : State) (len : Len) {c k : Nat} (hc : s.cur = .slot c k) :
    s.sameMemory (s.finish len) ∧ s.sameRest (s.finish len) ∧ (s.finish len).svcs = s.svcs ∧
      (∀ c' k', (c', k') ≠ (c, k) → (s.finish len).slot c' k' = s.slot c' k') ∧ (s.finish len).cur = s.cur ∧
      ∀ d, ((s.finish len).core d).queues = (s.core d).queues ∧ ((s.finish len).core d).banks = (s.core d).banks := by
  have hn : s.noteIssue.cur = .slot c k := (s.noteIssue_near hc).cur.trans hc
  have near := s.noteIssue_near hc
  have e : s.finish len = s.noteIssue.modSlot c k (fun x => { x with thr := { x.thr with
      pc := s.noteIssue.thread.pc + BitVec.ofNat 64 (lenBytes len) } }) := by
    simp [State.finish, State.advance, State.setPc, State.modThread, hn]
  have hq : ∀ d, (s.noteIssue.core d).queues = (s.core d).queues ∧ (s.noteIssue.core d).banks = (s.core d).banks := by
    intro d
    simp only [State.noteIssue, hc, State.core_modSlot_queues, State.core_modSlot_banks]
    by_cases h : d = c
    · subst h; simp
    · simp [State.core_modCore_ne _ _ h]
  rw [e]
  refine ⟨?_, near.rest, near.svcs c k hc, ?_, near.cur, fun d => by simp [hq d]⟩
  · have := near.sameMemory
    unfold State.sameMemory at *
    simpa using this
  · intro c' k' ne
    rw [← near.slots c k hc c' k' ne]
    by_cases h1 : c' = c
    · subst h1
      exact State.slot_modSlot_ne _ _ _ (fun e => ne (by rw [e]))
    · exact State.slot_modSlot_core _ _ _ _ h1

end Sys2Proof.Machine
end

