-- ==== Sys2Proof/Laws/PerInstr.lean ====
section
/-! SUPPORT. What well-formedness says of each constructor: its opcode has a row, the row accepts its fields in the profile,
and builds it from them (R38-R46). An event or a host command has no encoding, so its statement is empty. -/

open Sys2Proof

/-- A well-formed encoded instruction is the one that its opcode's row builds from fields that the row accepts. -/
def Sys2Proof.Laws.WellFormedRow.Statement (i : Instr) : Prop :=
  ∀ (prof : Profile) (code : Nat) (o : Op), Machine.opOf i = some (code, o) → i.wf prof = true →
    ∃ r, Machine.rowOf code = some r ∧ Machine.rowOk prof r o = true ∧ r.build o = i

theorem Sys2Proof.opWf_row {prof : Profile} {i : Instr} {code : Nat} {o : Op} (h : opWf prof i code o = true) :
    ∃ r, Machine.rowOf code = some r ∧ Machine.rowOk prof r o = true ∧ r.build o = i := by
  unfold opWf at h
  split at h
  · exact absurd h (by decide)
  · next r hr =>
    rw [Bool.and_eq_true, beq_iff_eq] at h
    exact ⟨r, hr, h⟩

namespace Sys2Proof.Laws

theorem WellFormedRow.add (o : Op) : WellFormedRow.Statement (.add o) := by
  intro _ _ _ h hw; cases h; exact opWf_row hw

theorem WellFormedRow.sub (o : Op) : WellFormedRow.Statement (.sub o) := by
  intro _ _ _ h hw; cases h; exact opWf_row hw

theorem WellFormedRow.mul (o : Op) : WellFormedRow.Statement (.mul o) := by
  intro _ _ _ h hw; cases h; exact opWf_row hw

theorem WellFormedRow.mulh (o : Op) : WellFormedRow.Statement (.mulh o) := by
  intro _ _ _ h hw; cases h; exact opWf_row hw

theorem WellFormedRow.mulhn (o : Op) : WellFormedRow.Statement (.mulhn o) := by
  intro _ _ _ h hw; cases h; exact opWf_row hw

theorem WellFormedRow.div (o : Op) : WellFormedRow.Statement (.div o) := by
  intro _ _ _ h hw; cases h; exact opWf_row hw

theorem WellFormedRow.divn (o : Op) : WellFormedRow.Statement (.divn o) := by
  intro _ _ _ h hw; cases h; exact opWf_row hw

theorem WellFormedRow.rem (o : Op) : WellFormedRow.Statement (.rem o) := by
  intro _ _ _ h hw; cases h; exact opWf_row hw

theorem WellFormedRow.remn (o : Op) : WellFormedRow.Statement (.remn o) := by
  intro _ _ _ h hw; cases h; exact opWf_row hw

theorem WellFormedRow.and (o : Op) : WellFormedRow.Statement (.and o) := by
  intro _ _ _ h hw; cases h; exact opWf_row hw

theorem WellFormedRow.or (o : Op) : WellFormedRow.Statement (.or o) := by
  intro _ _ _ h hw; cases h; exact opWf_row hw

theorem WellFormedRow.xor (o : Op) : WellFormedRow.Statement (.xor o) := by
  intro _ _ _ h hw; cases h; exact opWf_row hw

theorem WellFormedRow.andn (o : Op) : WellFormedRow.Statement (.andn o) := by
  intro _ _ _ h hw; cases h; exact opWf_row hw

theorem WellFormedRow.orn (o : Op) : WellFormedRow.Statement (.orn o) := by
  intro _ _ _ h hw; cases h; exact opWf_row hw

theorem WellFormedRow.shl (o : Op) : WellFormedRow.Statement (.shl o) := by
  intro _ _ _ h hw; cases h; exact opWf_row hw

theorem WellFormedRow.shr (o : Op) : WellFormedRow.Statement (.shr o) := by
  intro _ _ _ h hw; cases h; exact opWf_row hw

theorem WellFormedRow.sra (o : Op) : WellFormedRow.Statement (.sra o) := by
  intro _ _ _ h hw; cases h; exact opWf_row hw

theorem WellFormedRow.rol (o : Op) : WellFormedRow.Statement (.rol o) := by
  intro _ _ _ h hw; cases h; exact opWf_row hw

theorem WellFormedRow.ror (o : Op) : WellFormedRow.Statement (.ror o) := by
  intro _ _ _ h hw; cases h; exact opWf_row hw

theorem WellFormedRow.min (o : Op) : WellFormedRow.Statement (.min o) := by
  intro _ _ _ h hw; cases h; exact opWf_row hw

theorem WellFormedRow.max (o : Op) : WellFormedRow.Statement (.max o) := by
  intro _ _ _ h hw; cases h; exact opWf_row hw

theorem WellFormedRow.minn (o : Op) : WellFormedRow.Statement (.minn o) := by
  intro _ _ _ h hw; cases h; exact opWf_row hw

theorem WellFormedRow.maxn (o : Op) : WellFormedRow.Statement (.maxn o) := by
  intro _ _ _ h hw; cases h; exact opWf_row hw

theorem WellFormedRow.clz (o : Op) : WellFormedRow.Statement (.clz o) := by
  intro _ _ _ h hw; cases h; exact opWf_row hw

theorem WellFormedRow.ctz (o : Op) : WellFormedRow.Statement (.ctz o) := by
  intro _ _ _ h hw; cases h; exact opWf_row hw

theorem WellFormedRow.popc (o : Op) : WellFormedRow.Statement (.popc o) := by
  intro _ _ _ h hw; cases h; exact opWf_row hw

theorem WellFormedRow.brev (o : Op) : WellFormedRow.Statement (.brev o) := by
  intro _ _ _ h hw; cases h; exact opWf_row hw

theorem WellFormedRow.bswap (o : Op) : WellFormedRow.Statement (.bswap o) := by
  intro _ _ _ h hw; cases h; exact opWf_row hw

theorem WellFormedRow.bext (o : Op) : WellFormedRow.Statement (.bext o) := by
  intro _ _ _ h hw; cases h; exact opWf_row hw

theorem WellFormedRow.bins (o : Op) : WellFormedRow.Statement (.bins o) := by
  intro _ _ _ h hw; cases h; exact opWf_row hw

theorem WellFormedRow.sel (o : Op) : WellFormedRow.Statement (.sel o) := by
  intro _ _ _ h hw; cases h; exact opWf_row hw

theorem WellFormedRow.setCond (o : Op) : WellFormedRow.Statement (.setCond o) := by
  intro _ _ _ h hw; cases h; exact opWf_row hw

theorem WellFormedRow.pset (o : Op) : WellFormedRow.Statement (.pset o) := by
  intro _ _ _ h hw; cases h; exact opWf_row hw

theorem WellFormedRow.pand (o : Op) : WellFormedRow.Statement (.pand o) := by
  intro _ _ _ h hw; cases h; exact opWf_row hw

theorem WellFormedRow.por (o : Op) : WellFormedRow.Statement (.por o) := by
  intro _ _ _ h hw; cases h; exact opWf_row hw

theorem WellFormedRow.pxor (o : Op) : WellFormedRow.Statement (.pxor o) := by
  intro _ _ _ h hw; cases h; exact opWf_row hw

theorem WellFormedRow.pnot (o : Op) : WellFormedRow.Statement (.pnot o) := by
  intro _ _ _ h hw; cases h; exact opWf_row hw

theorem WellFormedRow.li (o : Op) : WellFormedRow.Statement (.li o) := by
  intro _ _ _ h hw; cases h; exact opWf_row hw

theorem WellFormedRow.lea (o : Op) : WellFormedRow.Statement (.lea o) := by
  intro _ _ _ h hw; cases h; exact opWf_row hw

theorem WellFormedRow.mkaddr (o : Op) : WellFormedRow.Statement (.mkaddr o) := by
  intro _ _ _ h hw; cases h; exact opWf_row hw

theorem WellFormedRow.mkact (o : Op) : WellFormedRow.Statement (.mkact o) := by
  intro _ _ _ h hw; cases h; exact opWf_row hw

theorem WellFormedRow.ext (o : Op) : WellFormedRow.Statement (.ext o) := by
  intro _ _ _ h hw; cases h; exact opWf_row hw

theorem WellFormedRow.br (o : Op) : WellFormedRow.Statement (.br o) := by
  intro _ _ _ h hw; cases h; exact opWf_row hw

theorem WellFormedRow.jRelative (o : Op) : WellFormedRow.Statement (.jRelative o) := by
  intro _ _ _ h hw; cases h; exact opWf_row hw

theorem WellFormedRow.jAbsolute (o : Op) : WellFormedRow.Statement (.jAbsolute o) := by
  intro _ _ _ h hw; cases h; exact opWf_row hw

theorem WellFormedRow.jalRelative (o : Op) : WellFormedRow.Statement (.jalRelative o) := by
  intro _ _ _ h hw; cases h; exact opWf_row hw

theorem WellFormedRow.jalAbsolute (o : Op) : WellFormedRow.Statement (.jalAbsolute o) := by
  intro _ _ _ h hw; cases h; exact opWf_row hw

theorem WellFormedRow.jr (o : Op) : WellFormedRow.Statement (.jr o) := by
  intro _ _ _ h hw; cases h; exact opWf_row hw

theorem WellFormedRow.jalr (o : Op) : WellFormedRow.Statement (.jalr o) := by
  intro _ _ _ h hw; cases h; exact opWf_row hw

theorem WellFormedRow.loop (o : Op) : WellFormedRow.Statement (.loop o) := by
  intro _ _ _ h hw; cases h; exact opWf_row hw

theorem WellFormedRow.loopc (o : Op) : WellFormedRow.Statement (.loopc o) := by
  intro _ _ _ h hw; cases h; exact opWf_row hw

theorem WellFormedRow.nop (o : Op) : WellFormedRow.Statement (.nop o) := by
  intro _ _ _ h hw; cases h; exact opWf_row hw

theorem WellFormedRow.brk (o : Op) : WellFormedRow.Statement (.brk o) := by
  intro _ _ _ h hw; cases h; exact opWf_row hw

theorem WellFormedRow.fadd (o : Op) : WellFormedRow.Statement (.fadd o) := by
  intro _ _ _ h hw; cases h; exact opWf_row hw

theorem WellFormedRow.fsub (o : Op) : WellFormedRow.Statement (.fsub o) := by
  intro _ _ _ h hw; cases h; exact opWf_row hw

theorem WellFormedRow.fmul (o : Op) : WellFormedRow.Statement (.fmul o) := by
  intro _ _ _ h hw; cases h; exact opWf_row hw

theorem WellFormedRow.ffma (o : Op) : WellFormedRow.Statement (.ffma o) := by
  intro _ _ _ h hw; cases h; exact opWf_row hw

theorem WellFormedRow.fdiv (o : Op) : WellFormedRow.Statement (.fdiv o) := by
  intro _ _ _ h hw; cases h; exact opWf_row hw

theorem WellFormedRow.fsqrt (o : Op) : WellFormedRow.Statement (.fsqrt o) := by
  intro _ _ _ h hw; cases h; exact opWf_row hw

theorem WellFormedRow.fmin (o : Op) : WellFormedRow.Statement (.fmin o) := by
  intro _ _ _ h hw; cases h; exact opWf_row hw

theorem WellFormedRow.fmax (o : Op) : WellFormedRow.Statement (.fmax o) := by
  intro _ _ _ h hw; cases h; exact opWf_row hw

theorem WellFormedRow.fcmp (o : Op) : WellFormedRow.Statement (.fcmp o) := by
  intro _ _ _ h hw; cases h; exact opWf_row hw

theorem WellFormedRow.fcvt (o : Op) : WellFormedRow.Statement (.fcvt o) := by
  intro _ _ _ h hw; cases h; exact opWf_row hw

theorem WellFormedRow.fclass (o : Op) : WellFormedRow.Statement (.fclass o) := by
  intro _ _ _ h hw; cases h; exact opWf_row hw

theorem WellFormedRow.fsgn (o : Op) : WellFormedRow.Statement (.fsgn o) := by
  intro _ _ _ h hw; cases h; exact opWf_row hw

theorem WellFormedRow.ld (o : Op) : WellFormedRow.Statement (.ld o) := by
  intro _ _ _ h hw; cases h; exact opWf_row hw

theorem WellFormedRow.st (o : Op) : WellFormedRow.Statement (.st o) := by
  intro _ _ _ h hw; cases h; exact opWf_row hw

theorem WellFormedRow.ldp (o : Op) : WellFormedRow.Statement (.ldp o) := by
  intro _ _ _ h hw; cases h; exact opWf_row hw

theorem WellFormedRow.stp (o : Op) : WellFormedRow.Statement (.stp o) := by
  intro _ _ _ h hw; cases h; exact opWf_row hw

theorem WellFormedRow.vld (o : Op) : WellFormedRow.Statement (.vld o) := by
  intro _ _ _ h hw; cases h; exact opWf_row hw

theorem WellFormedRow.vst (o : Op) : WellFormedRow.Statement (.vst o) := by
  intro _ _ _ h hw; cases h; exact opWf_row hw

theorem WellFormedRow.vlds (o : Op) : WellFormedRow.Statement (.vlds o) := by
  intro _ _ _ h hw; cases h; exact opWf_row hw

theorem WellFormedRow.vsts (o : Op) : WellFormedRow.Statement (.vsts o) := by
  intro _ _ _ h hw; cases h; exact opWf_row hw

theorem WellFormedRow.lgld (o : Op) : WellFormedRow.Statement (.lgld o) := by
  intro _ _ _ h hw; cases h; exact opWf_row hw

theorem WellFormedRow.lgst (o : Op) : WellFormedRow.Statement (.lgst o) := by
  intro _ _ _ h hw; cases h; exact opWf_row hw

theorem WellFormedRow.pref (o : Op) : WellFormedRow.Statement (.pref o) := by
  intro _ _ _ h hw; cases h; exact opWf_row hw

theorem WellFormedRow.fence (o : Op) : WellFormedRow.Statement (.fence o) := by
  intro _ _ _ h hw; cases h; exact opWf_row hw

theorem WellFormedRow.drain (o : Op) : WellFormedRow.Statement (.drain o) := by
  intro _ _ _ h hw; cases h; exact opWf_row hw

theorem WellFormedRow.amadd (o : Op) : WellFormedRow.Statement (.amadd o) := by
  intro _ _ _ h hw; cases h; exact opWf_row hw

theorem WellFormedRow.amand (o : Op) : WellFormedRow.Statement (.amand o) := by
  intro _ _ _ h hw; cases h; exact opWf_row hw

theorem WellFormedRow.amor (o : Op) : WellFormedRow.Statement (.amor o) := by
  intro _ _ _ h hw; cases h; exact opWf_row hw

theorem WellFormedRow.amxor (o : Op) : WellFormedRow.Statement (.amxor o) := by
  intro _ _ _ h hw; cases h; exact opWf_row hw

theorem WellFormedRow.ammin (o : Op) : WellFormedRow.Statement (.ammin o) := by
  intro _ _ _ h hw; cases h; exact opWf_row hw

theorem WellFormedRow.ammax (o : Op) : WellFormedRow.Statement (.ammax o) := by
  intro _ _ _ h hw; cases h; exact opWf_row hw

theorem WellFormedRow.amminn (o : Op) : WellFormedRow.Statement (.amminn o) := by
  intro _ _ _ h hw; cases h; exact opWf_row hw

theorem WellFormedRow.ammaxn (o : Op) : WellFormedRow.Statement (.ammaxn o) := by
  intro _ _ _ h hw; cases h; exact opWf_row hw

theorem WellFormedRow.amswap (o : Op) : WellFormedRow.Statement (.amswap o) := by
  intro _ _ _ h hw; cases h; exact opWf_row hw

theorem WellFormedRow.amcas (o : Op) : WellFormedRow.Statement (.amcas o) := by
  intro _ _ _ h hw; cases h; exact opWf_row hw

theorem WellFormedRow.amfadd (o : Op) : WellFormedRow.Statement (.amfadd o) := by
  intro _ _ _ h hw; cases h; exact opWf_row hw

theorem WellFormedRow.vadd (o : Op) : WellFormedRow.Statement (.vadd o) := by
  intro _ _ _ h hw; cases h; exact opWf_row hw

theorem WellFormedRow.vsub (o : Op) : WellFormedRow.Statement (.vsub o) := by
  intro _ _ _ h hw; cases h; exact opWf_row hw

theorem WellFormedRow.vmul (o : Op) : WellFormedRow.Statement (.vmul o) := by
  intro _ _ _ h hw; cases h; exact opWf_row hw

theorem WellFormedRow.vmulh (o : Op) : WellFormedRow.Statement (.vmulh o) := by
  intro _ _ _ h hw; cases h; exact opWf_row hw

theorem WellFormedRow.vand (o : Op) : WellFormedRow.Statement (.vand o) := by
  intro _ _ _ h hw; cases h; exact opWf_row hw

theorem WellFormedRow.vor (o : Op) : WellFormedRow.Statement (.vor o) := by
  intro _ _ _ h hw; cases h; exact opWf_row hw

theorem WellFormedRow.vxor (o : Op) : WellFormedRow.Statement (.vxor o) := by
  intro _ _ _ h hw; cases h; exact opWf_row hw

theorem WellFormedRow.vshl (o : Op) : WellFormedRow.Statement (.vshl o) := by
  intro _ _ _ h hw; cases h; exact opWf_row hw

theorem WellFormedRow.vshr (o : Op) : WellFormedRow.Statement (.vshr o) := by
  intro _ _ _ h hw; cases h; exact opWf_row hw

theorem WellFormedRow.vsra (o : Op) : WellFormedRow.Statement (.vsra o) := by
  intro _ _ _ h hw; cases h; exact opWf_row hw

theorem WellFormedRow.vmin (o : Op) : WellFormedRow.Statement (.vmin o) := by
  intro _ _ _ h hw; cases h; exact opWf_row hw

theorem WellFormedRow.vmax (o : Op) : WellFormedRow.Statement (.vmax o) := by
  intro _ _ _ h hw; cases h; exact opWf_row hw

theorem WellFormedRow.vabs (o : Op) : WellFormedRow.Statement (.vabs o) := by
  intro _ _ _ h hw; cases h; exact opWf_row hw

theorem WellFormedRow.vfadd (o : Op) : WellFormedRow.Statement (.vfadd o) := by
  intro _ _ _ h hw; cases h; exact opWf_row hw

theorem WellFormedRow.vfsub (o : Op) : WellFormedRow.Statement (.vfsub o) := by
  intro _ _ _ h hw; cases h; exact opWf_row hw

theorem WellFormedRow.vfmul (o : Op) : WellFormedRow.Statement (.vfmul o) := by
  intro _ _ _ h hw; cases h; exact opWf_row hw

theorem WellFormedRow.vfma (o : Op) : WellFormedRow.Statement (.vfma o) := by
  intro _ _ _ h hw; cases h; exact opWf_row hw

theorem WellFormedRow.vfmin (o : Op) : WellFormedRow.Statement (.vfmin o) := by
  intro _ _ _ h hw; cases h; exact opWf_row hw

theorem WellFormedRow.vfmax (o : Op) : WellFormedRow.Statement (.vfmax o) := by
  intro _ _ _ h hw; cases h; exact opWf_row hw

theorem WellFormedRow.vfdiv (o : Op) : WellFormedRow.Statement (.vfdiv o) := by
  intro _ _ _ h hw; cases h; exact opWf_row hw

theorem WellFormedRow.vfsqrt (o : Op) : WellFormedRow.Statement (.vfsqrt o) := by
  intro _ _ _ h hw; cases h; exact opWf_row hw

theorem WellFormedRow.vexp2 (o : Op) : WellFormedRow.Statement (.vexp2 o) := by
  intro _ _ _ h hw; cases h; exact opWf_row hw

theorem WellFormedRow.vlog2 (o : Op) : WellFormedRow.Statement (.vlog2 o) := by
  intro _ _ _ h hw; cases h; exact opWf_row hw

theorem WellFormedRow.vrcp (o : Op) : WellFormedRow.Statement (.vrcp o) := by
  intro _ _ _ h hw; cases h; exact opWf_row hw

theorem WellFormedRow.vrsq (o : Op) : WellFormedRow.Statement (.vrsq o) := by
  intro _ _ _ h hw; cases h; exact opWf_row hw

theorem WellFormedRow.vcmp (o : Op) : WellFormedRow.Statement (.vcmp o) := by
  intro _ _ _ h hw; cases h; exact opWf_row hw

theorem WellFormedRow.vfcmp (o : Op) : WellFormedRow.Statement (.vfcmp o) := by
  intro _ _ _ h hw; cases h; exact opWf_row hw

theorem WellFormedRow.vsel (o : Op) : WellFormedRow.Statement (.vsel o) := by
  intro _ _ _ h hw; cases h; exact opWf_row hw

theorem WellFormedRow.vbcast (o : Op) : WellFormedRow.Statement (.vbcast o) := by
  intro _ _ _ h hw; cases h; exact opWf_row hw

theorem WellFormedRow.vext (o : Op) : WellFormedRow.Statement (.vext o) := by
  intro _ _ _ h hw; cases h; exact opWf_row hw

theorem WellFormedRow.vins (o : Op) : WellFormedRow.Statement (.vins o) := by
  intro _ _ _ h hw; cases h; exact opWf_row hw

theorem WellFormedRow.vperm (o : Op) : WellFormedRow.Statement (.vperm o) := by
  intro _ _ _ h hw; cases h; exact opWf_row hw

theorem WellFormedRow.vslide (o : Op) : WellFormedRow.Statement (.vslide o) := by
  intro _ _ _ h hw; cases h; exact opWf_row hw

theorem WellFormedRow.vredadd (o : Op) : WellFormedRow.Statement (.vredadd o) := by
  intro _ _ _ h hw; cases h; exact opWf_row hw

theorem WellFormedRow.vredmax (o : Op) : WellFormedRow.Statement (.vredmax o) := by
  intro _ _ _ h hw; cases h; exact opWf_row hw

theorem WellFormedRow.vredmin (o : Op) : WellFormedRow.Statement (.vredmin o) := by
  intro _ _ _ h hw; cases h; exact opWf_row hw

theorem WellFormedRow.vfred (o : Op) : WellFormedRow.Statement (.vfred o) := by
  intro _ _ _ h hw; cases h; exact opWf_row hw

theorem WellFormedRow.vcvt (o : Op) : WellFormedRow.Statement (.vcvt o) := by
  intro _ _ _ h hw; cases h; exact opWf_row hw

theorem WellFormedRow.vamax (o : Op) : WellFormedRow.Statement (.vamax o) := by
  intro _ _ _ h hw; cases h; exact opWf_row hw

theorem WellFormedRow.vscaleq (o : Op) : WellFormedRow.Statement (.vscaleq o) := by
  intro _ _ _ h hw; cases h; exact opWf_row hw

theorem WellFormedRow.vquant (o : Op) : WellFormedRow.Statement (.vquant o) := by
  intro _ _ _ h hw; cases h; exact opWf_row hw

theorem WellFormedRow.vdeq (o : Op) : WellFormedRow.Statement (.vdeq o) := by
  intro _ _ _ h hw; cases h; exact opWf_row hw

theorem WellFormedRow.vpopc (o : Op) : WellFormedRow.Statement (.vpopc o) := by
  intro _ _ _ h hw; cases h; exact opWf_row hw

theorem WellFormedRow.vpfx (o : Op) : WellFormedRow.Statement (.vpfx o) := by
  intro _ _ _ h hw; cases h; exact opWf_row hw

theorem WellFormedRow.vcompr (o : Op) : WellFormedRow.Statement (.vcompr o) := by
  intro _ _ _ h hw; cases h; exact opWf_row hw

theorem WellFormedRow.vexpnd (o : Op) : WellFormedRow.Statement (.vexpnd o) := by
  intro _ _ _ h hw; cases h; exact opWf_row hw

theorem WellFormedRow.vgath (o : Op) : WellFormedRow.Statement (.vgath o) := by
  intro _ _ _ h hw; cases h; exact opWf_row hw

theorem WellFormedRow.vscat (o : Op) : WellFormedRow.Statement (.vscat o) := by
  intro _ _ _ h hw; cases h; exact opWf_row hw

theorem WellFormedRow.bpers (o : Op) : WellFormedRow.Statement (.bpers o) := by
  intro _ _ _ h hw; cases h; exact opWf_row hw

theorem WellFormedRow.bspan (o : Op) : WellFormedRow.Statement (.bspan o) := by
  intro _ _ _ h hw; cases h; exact opWf_row hw

theorem WellFormedRow.bput (o : Op) : WellFormedRow.Statement (.bput o) := by
  intro _ _ _ h hw; cases h; exact opWf_row hw

theorem WellFormedRow.bputu (o : Op) : WellFormedRow.Statement (.bputu o) := by
  intro _ _ _ h hw; cases h; exact opWf_row hw

theorem WellFormedRow.bget (o : Op) : WellFormedRow.Statement (.bget o) := by
  intro _ _ _ h hw; cases h; exact opWf_row hw

theorem WellFormedRow.bpeek (o : Op) : WellFormedRow.Statement (.bpeek o) := by
  intro _ _ _ h hw; cases h; exact opWf_row hw

theorem WellFormedRow.btake (o : Op) : WellFormedRow.Statement (.btake o) := by
  intro _ _ _ h hw; cases h; exact opWf_row hw

theorem WellFormedRow.bfind (o : Op) : WellFormedRow.Statement (.bfind o) := by
  intro _ _ _ h hw; cases h; exact opWf_row hw

theorem WellFormedRow.binc (o : Op) : WellFormedRow.Statement (.binc o) := by
  intro _ _ _ h hw; cases h; exact opWf_row hw

theorem WellFormedRow.bcnt (o : Op) : WellFormedRow.Statement (.bcnt o) := by
  intro _ _ _ h hw; cases h; exact opWf_row hw

theorem WellFormedRow.bclr (o : Op) : WellFormedRow.Statement (.bclr o) := by
  intro _ _ _ h hw; cases h; exact opWf_row hw

theorem WellFormedRow.blatch (o : Op) : WellFormedRow.Statement (.blatch o) := by
  intro _ _ _ h hw; cases h; exact opWf_row hw

theorem WellFormedRow.bstat (o : Op) : WellFormedRow.Statement (.bstat o) := by
  intro _ _ _ h hw; cases h; exact opWf_row hw

theorem WellFormedRow.send (o : Op) : WellFormedRow.Statement (.send o) := by
  intro _ _ _ h hw; cases h; exact opWf_row hw

theorem WellFormedRow.chcnt (o : Op) : WellFormedRow.Statement (.chcnt o) := by
  intro _ _ _ h hw; cases h; exact opWf_row hw

theorem WellFormedRow.chdrop (o : Op) : WellFormedRow.Statement (.chdrop o) := by
  intro _ _ _ h hw; cases h; exact opWf_row hw

theorem WellFormedRow.hen (o : Op) : WellFormedRow.Statement (.hen o) := by
  intro _ _ _ h hw; cases h; exact opWf_row hw

theorem WellFormedRow.hdis (o : Op) : WellFormedRow.Statement (.hdis o) := by
  intro _ _ _ h hw; cases h; exact opWf_row hw

theorem WellFormedRow.hset (o : Op) : WellFormedRow.Statement (.hset o) := by
  intro _ _ _ h hw; cases h; exact opWf_row hw

theorem WellFormedRow.done (o : Op) : WellFormedRow.Statement (.done o) := by
  intro _ _ _ h hw; cases h; exact opWf_row hw

theorem WellFormedRow.fork (o : Op) : WellFormedRow.Statement (.fork o) := by
  intro _ _ _ h hw; cases h; exact opWf_row hw

theorem WellFormedRow.tend (o : Op) : WellFormedRow.Statement (.tend o) := by
  intro _ _ _ h hw; cases h; exact opWf_row hw

theorem WellFormedRow.bar (o : Op) : WellFormedRow.Statement (.bar o) := by
  intro _ _ _ h hw; cases h; exact opWf_row hw

theorem WellFormedRow.bara (o : Op) : WellFormedRow.Statement (.bara o) := by
  intro _ _ _ h hw; cases h; exact opWf_row hw

theorem WellFormedRow.barw (o : Op) : WellFormedRow.Statement (.barw o) := by
  intro _ _ _ h hw; cases h; exact opWf_row hw

theorem WellFormedRow.self (o : Op) : WellFormedRow.Statement (.self o) := by
  intro _ _ _ h hw; cases h; exact opWf_row hw

theorem WellFormedRow.mlda (o : Op) : WellFormedRow.Statement (.mlda o) := by
  intro _ _ _ h hw; cases h; exact opWf_row hw

theorem WellFormedRow.mldb (o : Op) : WellFormedRow.Statement (.mldb o) := by
  intro _ _ _ h hw; cases h; exact opWf_row hw

theorem WellFormedRow.mldbs (o : Op) : WellFormedRow.Statement (.mldbs o) := by
  intro _ _ _ h hw; cases h; exact opWf_row hw

theorem WellFormedRow.mzero (o : Op) : WellFormedRow.Statement (.mzero o) := by
  intro _ _ _ h hw; cases h; exact opWf_row hw

theorem WellFormedRow.mmul (o : Op) : WellFormedRow.Statement (.mmul o) := by
  intro _ _ _ h hw; cases h; exact opWf_row hw

theorem WellFormedRow.mmuls (o : Op) : WellFormedRow.Statement (.mmuls o) := by
  intro _ _ _ h hw; cases h; exact opWf_row hw

theorem WellFormedRow.mgemm (o : Op) : WellFormedRow.Statement (.mgemm o) := by
  intro _ _ _ h hw; cases h; exact opWf_row hw

theorem WellFormedRow.mdrain (o : Op) : WellFormedRow.Statement (.mdrain o) := by
  intro _ _ _ h hw; cases h; exact opWf_row hw

theorem WellFormedRow.mchain (o : Op) : WellFormedRow.Statement (.mchain o) := by
  intro _ _ _ h hw; cases h; exact opWf_row hw

theorem WellFormedRow.mst (o : Op) : WellFormedRow.Statement (.mst o) := by
  intro _ _ _ h hw; cases h; exact opWf_row hw

theorem WellFormedRow.msync (o : Op) : WellFormedRow.Statement (.msync o) := by
  intro _ _ _ h hw; cases h; exact opWf_row hw

theorem WellFormedRow.mstat (o : Op) : WellFormedRow.Statement (.mstat o) := by
  intro _ _ _ h hw; cases h; exact opWf_row hw

theorem WellFormedRow.jobCopy (o : Op) : WellFormedRow.Statement (.jobCopy o) := by
  intro _ _ _ h hw; cases h; exact opWf_row hw

theorem WellFormedRow.jobGather (o : Op) : WellFormedRow.Statement (.jobGather o) := by
  intro _ _ _ h hw; cases h; exact opWf_row hw

theorem WellFormedRow.jobScatter (o : Op) : WellFormedRow.Statement (.jobScatter o) := by
  intro _ _ _ h hw; cases h; exact opWf_row hw

theorem WellFormedRow.jobReduce (o : Op) : WellFormedRow.Statement (.jobReduce o) := by
  intro _ _ _ h hw; cases h; exact opWf_row hw

theorem WellFormedRow.jobBcast (o : Op) : WellFormedRow.Statement (.jobBcast o) := by
  intro _ _ _ h hw; cases h; exact opWf_row hw

theorem WellFormedRow.gather (o : Op) : WellFormedRow.Statement (.gather o) := by
  intro _ _ _ h hw; cases h; exact opWf_row hw

theorem WellFormedRow.srec (o : Op) : WellFormedRow.Statement (.srec o) := by
  intro _ _ _ h hw; cases h; exact opWf_row hw

theorem WellFormedRow.sstart (o : Op) : WellFormedRow.Statement (.sstart o) := by
  intro _ _ _ h hw; cases h; exact opWf_row hw

theorem WellFormedRow.sstop (o : Op) : WellFormedRow.Statement (.sstop o) := by
  intro _ _ _ h hw; cases h; exact opWf_row hw

theorem WellFormedRow.qcnt (o : Op) : WellFormedRow.Statement (.qcnt o) := by
  intro _ _ _ h hw; cases h; exact opWf_row hw

theorem WellFormedRow.qflush (o : Op) : WellFormedRow.Statement (.qflush o) := by
  intro _ _ _ h hw; cases h; exact opWf_row hw

theorem WellFormedRow.deep (o : Op) : WellFormedRow.Statement (.deep o) := by
  intro _ _ _ h hw; cases h; exact opWf_row hw

theorem WellFormedRow.rdrow (o : Op) : WellFormedRow.Statement (.rdrow o) := by
  intro _ _ _ h hw; cases h; exact opWf_row hw

theorem WellFormedRow.wrrow (o : Op) : WellFormedRow.Statement (.wrrow o) := by
  intro _ _ _ h hw; cases h; exact opWf_row hw

theorem WellFormedRow.scanrow (o : Op) : WellFormedRow.Statement (.scanrow o) := by
  intro _ _ _ h hw; cases h; exact opWf_row hw

theorem WellFormedRow.dot16 (o : Op) : WellFormedRow.Statement (.dot16 o) := by
  intro _ _ _ h hw; cases h; exact opWf_row hw

theorem WellFormedRow.dend (o : Op) : WellFormedRow.Statement (.dend o) := by
  intro _ _ _ h hw; cases h; exact opWf_row hw

theorem WellFormedRow.dyield (o : Op) : WellFormedRow.Statement (.dyield o) := by
  intro _ _ _ h hw; cases h; exact opWf_row hw

theorem WellFormedRow.darg (o : Op) : WellFormedRow.Statement (.darg o) := by
  intro _ _ _ h hw; cases h; exact opWf_row hw

theorem WellFormedRow.sget (o : Op) : WellFormedRow.Statement (.sget o) := by
  intro _ _ _ h hw; cases h; exact opWf_row hw

theorem WellFormedRow.sset (o : Op) : WellFormedRow.Statement (.sset o) := by
  intro _ _ _ h hw; cases h; exact opWf_row hw

theorem WellFormedRow.trap (o : Op) : WellFormedRow.Statement (.trap o) := by
  intro _ _ _ h hw; cases h; exact opWf_row hw

theorem WellFormedRow.kret (o : Op) : WellFormedRow.Statement (.kret o) := by
  intro _ _ _ h hw; cases h; exact opWf_row hw

theorem WellFormedRow.plbinv (o : Op) : WellFormedRow.Statement (.plbinv o) := by
  intro _ _ _ h hw; cases h; exact opWf_row hw

theorem WellFormedRow.ibar (o : Op) : WellFormedRow.Statement (.ibar o) := by
  intro _ _ _ h hw; cases h; exact opWf_row hw

theorem WellFormedRow.cyc (o : Op) : WellFormedRow.Statement (.cyc o) := by
  intro _ _ _ h hw; cases h; exact opWf_row hw

theorem WellFormedRow.fget (o : Op) : WellFormedRow.Statement (.fget o) := by
  intro _ _ _ h hw; cases h; exact opWf_row hw

theorem WellFormedRow.fclr (o : Op) : WellFormedRow.Statement (.fclr o) := by
  intro _ _ _ h hw; cases h; exact opWf_row hw

theorem WellFormedRow.gkill (o : Op) : WellFormedRow.Statement (.gkill o) := by
  intro _ _ _ h hw; cases h; exact opWf_row hw

theorem WellFormedRow.aevict (o : Op) : WellFormedRow.Statement (.aevict o) := by
  intro _ _ _ h hw; cases h; exact opWf_row hw

theorem WellFormedRow.arestore (o : Op) : WellFormedRow.Statement (.arestore o) := by
  intro _ _ _ h hw; cases h; exact opWf_row hw

theorem WellFormedRow.klaunch (o : Op) : WellFormedRow.Statement (.klaunch o) := by
  intro _ _ _ h hw; cases h; exact opWf_row hw

theorem WellFormedRow.travpop (o : Op) : WellFormedRow.Statement (.travpop o) := by
  intro _ _ _ h hw; cases h; exact opWf_row hw

theorem WellFormedRow.sfrqpop (o : Op) : WellFormedRow.Statement (.sfrqpop o) := by
  intro _ _ _ h hw; cases h; exact opWf_row hw

theorem WellFormedRow.samppop (o : Op) : WellFormedRow.Statement (.samppop o) := by
  intro _ _ _ h hw; cases h; exact opWf_row hw

theorem WellFormedRow.mseqWrite (o : Op) : WellFormedRow.Statement (.mseqWrite o) := by
  intro _ _ _ h hw; cases h; exact opWf_row hw

theorem WellFormedRow.munitWrite (o : Op) : WellFormedRow.Statement (.munitWrite o) := by
  intro _ _ _ h hw; cases h; exact opWf_row hw

theorem WellFormedRow.travctlWrite (o : Op) : WellFormedRow.Statement (.travctlWrite o) := by
  intro _ _ _ h hw; cases h; exact opWf_row hw

theorem WellFormedRow.sampctlWrite (o : Op) : WellFormedRow.Statement (.sampctlWrite o) := by
  intro _ _ _ h hw; cases h; exact opWf_row hw

theorem WellFormedRow.amodeWrite (o : Op) : WellFormedRow.Statement (.amodeWrite o) := by
  intro _ _ _ h hw; cases h; exact opWf_row hw

theorem WellFormedRow.vuseWrite (o : Op) : WellFormedRow.Statement (.vuseWrite o) := by
  intro _ _ _ h hw; cases h; exact opWf_row hw

theorem WellFormedRow.cmpctlWrite (o : Op) : WellFormedRow.Statement (.cmpctlWrite o) := by
  intro _ _ _ h hw; cases h; exact opWf_row hw

theorem WellFormedRow.strecWrite (o : Op) : WellFormedRow.Statement (.strecWrite o) := by
  intro _ _ _ h hw; cases h; exact opWf_row hw

theorem WellFormedRow.qosbudWrite (o : Op) : WellFormedRow.Statement (.qosbudWrite o) := by
  intro _ _ _ h hw; cases h; exact opWf_row hw

theorem WellFormedRow.darbWrite (o : Op) : WellFormedRow.Statement (.darbWrite o) := by
  intro _ _ _ h hw; cases h; exact opWf_row hw

theorem WellFormedRow.forcedIssue (core : Nat) : WellFormedRow.Statement (.forcedIssue core) := by
  intro _ _ _ h; cases h

theorem WellFormedRow.firingStart (core slot : Nat) : WellFormedRow.Statement (.firingStart core slot) := by
  intro _ _ _ h; cases h

theorem WellFormedRow.taskTake (core slot : Nat) : WellFormedRow.Statement (.taskTake core slot) := by
  intro _ _ _ h; cases h

theorem WellFormedRow.stealWaitExpiry (core slot : Nat) : WellFormedRow.Statement (.stealWaitExpiry core slot) := by
  intro _ _ _ h; cases h

theorem WellFormedRow.qstall (core slot : Nat) : WellFormedRow.Statement (.qstall core slot) := by
  intro _ _ _ h; cases h

theorem WellFormedRow.vectorWake (core slot : Nat) : WellFormedRow.Statement (.vectorWake core slot) := by
  intro _ _ _ h; cases h

theorem WellFormedRow.messageArrival (i : Nat) : WellFormedRow.Statement (.messageArrival i) := by
  intro _ _ _ h; cases h

theorem WellFormedRow.sendLaunch (unit n : Nat) : WellFormedRow.Statement (.sendLaunch unit n) := by
  intro _ _ _ h; cases h

theorem WellFormedRow.messageAnswer (i : Nat) : WellFormedRow.Statement (.messageAnswer i) := by
  intro _ _ _ h; cases h

theorem WellFormedRow.returnDelivery (unit n : Nat) : WellFormedRow.Statement (.returnDelivery unit n) := by
  intro _ _ _ h; cases h

theorem WellFormedRow.retryBackoffExpiry (unit n : Nat) : WellFormedRow.Statement (.retryBackoffExpiry unit n) := by
  intro _ _ _ h; cases h

theorem WellFormedRow.remoteStoreArrival (i : Nat) : WellFormedRow.Statement (.remoteStoreArrival i) := by
  intro _ _ _ h; cases h

theorem WellFormedRow.storeAck (i : Nat) : WellFormedRow.Statement (.storeAck i) := by
  intro _ _ _ h; cases h

theorem WellFormedRow.remoteLoadArrival (i : Nat) : WellFormedRow.Statement (.remoteLoadArrival i) := by
  intro _ _ _ h; cases h

theorem WellFormedRow.loadReply (i : Nat) : WellFormedRow.Statement (.loadReply i) := by
  intro _ _ _ h; cases h

theorem WellFormedRow.remoteBankOpArrival (i : Nat) : WellFormedRow.Statement (.remoteBankOpArrival i) := by
  intro _ _ _ h; cases h

theorem WellFormedRow.bankOpReply (i : Nat) : WellFormedRow.Statement (.bankOpReply i) := by
  intro _ _ _ h; cases h

theorem WellFormedRow.atomicArrival (i : Nat) : WellFormedRow.Statement (.atomicArrival i) := by
  intro _ _ _ h; cases h

theorem WellFormedRow.atomicReply (i : Nat) : WellFormedRow.Statement (.atomicReply i) := by
  intro _ _ _ h; cases h

theorem WellFormedRow.storeLeavesQueue (core slot : Nat) : WellFormedRow.Statement (.storeLeavesQueue core slot) := by
  intro _ _ _ h; cases h

theorem WellFormedRow.combiningBufferSend (core slot n : Nat) : WellFormedRow.Statement (.combiningBufferSend core slot n) := by
  intro _ _ _ h; cases h

theorem WellFormedRow.plbFillComplete (core n : Nat) : WellFormedRow.Statement (.plbFillComplete core n) := by
  intro _ _ _ h; cases h

theorem WellFormedRow.translationWalkComplete (n : Nat) : WellFormedRow.Statement (.translationWalkComplete n) := by
  intro _ _ _ h; cases h

theorem WellFormedRow.l2Eviction (n : Nat) : WellFormedRow.Statement (.l2Eviction n) := by
  intro _ _ _ h; cases h

theorem WellFormedRow.storefault (core slot : Nat) : WellFormedRow.Statement (.storefault core slot) := by
  intro _ _ _ h; cases h

theorem WellFormedRow.matrixOpComplete (core : Nat) : WellFormedRow.Statement (.matrixOpComplete core) := by
  intro _ _ _ h; cases h

theorem WellFormedRow.mgemmStepComplete (core : Nat) : WellFormedRow.Statement (.mgemmStepComplete core) := by
  intro _ _ _ h; cases h

theorem WellFormedRow.mgemmRestart (core : Nat) : WellFormedRow.Statement (.mgemmRestart core) := by
  intro _ _ _ h; cases h

theorem WellFormedRow.drainBlockArrival (i : Nat) : WellFormedRow.Statement (.drainBlockArrival i) := by
  intro _ _ _ h; cases h

theorem WellFormedRow.drainWake (core n : Nat) : WellFormedRow.Statement (.drainWake core n) := by
  intro _ _ _ h; cases h

theorem WellFormedRow.migrationArrival (i : Nat) : WellFormedRow.Statement (.migrationArrival i) := by
  intro _ _ _ h; cases h

theorem WellFormedRow.waypointForward (i : Nat) : WellFormedRow.Statement (.waypointForward i) := by
  intro _ _ _ h; cases h

theorem WellFormedRow.migrateBack (core slot : Nat) : WellFormedRow.Statement (.migrateBack core slot) := by
  intro _ _ _ h; cases h

theorem WellFormedRow.barrierComplete (team entry : Nat) : WellFormedRow.Statement (.barrierComplete team entry) := by
  intro _ _ _ h; cases h

theorem WellFormedRow.tendDecrementReply (i : Nat) : WellFormedRow.Statement (.tendDecrementReply i) := by
  intro _ _ _ h; cases h

theorem WellFormedRow.jobStart (cluster n : Nat) : WellFormedRow.Statement (.jobStart cluster n) := by
  intro _ _ _ h; cases h

theorem WellFormedRow.jobEnd (cluster n : Nat) : WellFormedRow.Statement (.jobEnd cluster n) := by
  intro _ _ _ h; cases h

theorem WellFormedRow.collectiveInstanceComplete (team entry bcast : Nat) : WellFormedRow.Statement (.collectiveInstanceComplete team entry bcast) := by
  intro _ _ _ h; cases h

theorem WellFormedRow.gatherLaneReply (core n : Nat) : WellFormedRow.Statement (.gatherLaneReply core n) := by
  intro _ _ _ h; cases h

theorem WellFormedRow.streamPush (core k : Nat) : WellFormedRow.Statement (.streamPush core k) := by
  intro _ _ _ h; cases h

theorem WellFormedRow.rangeRetire (core n : Nat) : WellFormedRow.Statement (.rangeRetire core n) := by
  intro _ _ _ h; cases h

theorem WellFormedRow.leaseGrant (n : Nat) : WellFormedRow.Statement (.leaseGrant n) := by
  intro _ _ _ h; cases h

theorem WellFormedRow.cleaningDone (n : Nat) : WellFormedRow.Statement (.cleaningDone n) := by
  intro _ _ _ h; cases h

theorem WellFormedRow.kernelLeaseExpiry (n : Nat) : WellFormedRow.Statement (.kernelLeaseExpiry n) := by
  intro _ _ _ h; cases h

theorem WellFormedRow.kernelSaved (n : Nat) : WellFormedRow.Statement (.kernelSaved n) := by
  intro _ _ _ h; cases h

theorem WellFormedRow.kernelEnd (n : Nat) : WellFormedRow.Statement (.kernelEnd n) := by
  intro _ _ _ h; cases h

theorem WellFormedRow.kernelFault (n : Nat) : WellFormedRow.Statement (.kernelFault n) := by
  intro _ _ _ h; cases h

theorem WellFormedRow.rowAccessPerformed (svc : Nat) : WellFormedRow.Statement (.rowAccessPerformed svc) := by
  intro _ _ _ h; cases h

theorem WellFormedRow.scanrowWave (svc : Nat) : WellFormedRow.Statement (.scanrowWave svc) := by
  intro _ _ _ h; cases h

theorem WellFormedRow.arbSlot (channel : Nat) : WellFormedRow.Statement (.arbSlot channel) := by
  intro _ _ _ h; cases h

theorem WellFormedRow.tokenRefill (unit : Nat) : WellFormedRow.Statement (.tokenRefill unit) := by
  intro _ _ _ h; cases h

theorem WellFormedRow.preemptionRequest (scope arg : Nat) : WellFormedRow.Statement (.preemptionRequest scope arg) := by
  intro _ _ _ h; cases h

theorem WellFormedRow.slotHalt (core slot : Nat) : WellFormedRow.Statement (.slotHalt core slot) := by
  intro _ _ _ h; cases h

theorem WellFormedRow.preemptionWithdraw (scope arg : Nat) : WellFormedRow.Statement (.preemptionWithdraw scope arg) := by
  intro _ _ _ h; cases h

theorem WellFormedRow.teamSwapOut (team : Nat) : WellFormedRow.Statement (.teamSwapOut team) := by
  intro _ _ _ h; cases h

theorem WellFormedRow.teamSwapIn (team place : Nat) : WellFormedRow.Statement (.teamSwapIn team place) := by
  intro _ _ _ h; cases h

theorem WellFormedRow.quantumExpiry : WellFormedRow.Statement .quantumExpiry := by
  intro _ _ _ h; cases h

theorem WellFormedRow.teamLaunch (team place : Nat) : WellFormedRow.Statement (.teamLaunch team place) := by
  intro _ _ _ h; cases h

theorem WellFormedRow.teamEnd (team : Nat) : WellFormedRow.Statement (.teamEnd team) := by
  intro _ _ _ h; cases h

theorem WellFormedRow.pcSample (core : Nat) : WellFormedRow.Statement (.pcSample core) := by
  intro _ _ _ h; cases h

theorem WellFormedRow.errorDetected (unit addr unc : Nat) : WellFormedRow.Statement (.errorDetected unit addr unc) := by
  intro _ _ _ h; cases h

theorem WellFormedRow.surveyorTestDone (n outcome : Nat) : WellFormedRow.Statement (.surveyorTestDone n outcome) := by
  intro _ _ _ h; cases h

theorem WellFormedRow.linkRetrain (link phase : Nat) : WellFormedRow.Statement (.linkRetrain link phase) := by
  intro _ _ _ h; cases h

theorem WellFormedRow.deviceLost (device : Nat) : WellFormedRow.Statement (.deviceLost device) := by
  intro _ _ _ h; cases h

theorem WellFormedRow.powerLimitAction (action arg : Nat) : WellFormedRow.Statement (.powerLimitAction action arg) := by
  intro _ _ _ h; cases h

theorem WellFormedRow.thermalTrip : WellFormedRow.Statement .thermalTrip := by
  intro _ _ _ h; cases h

theorem WellFormedRow.powerOnReset : WellFormedRow.Statement .powerOnReset := by
  intro _ _ _ h; cases h

theorem WellFormedRow.watchdogReset : WellFormedRow.Statement .watchdogReset := by
  intro _ _ _ h; cases h

theorem WellFormedRow.ownershipLapse : WellFormedRow.Statement .ownershipLapse := by
  intro _ _ _ h; cases h

theorem WellFormedRow.hread (cmd : HostCmd) : WellFormedRow.Statement (.hread cmd) := by
  intro _ _ _ h; cases h

theorem WellFormedRow.hwrite (cmd : HostCmd) : WellFormedRow.Statement (.hwrite cmd) := by
  intro _ _ _ h; cases h

theorem WellFormedRow.hsend (cmd : HostCmd) : WellFormedRow.Statement (.hsend cmd) := by
  intro _ _ _ h; cases h

theorem WellFormedRow.claim (cmd : HostCmd) : WellFormedRow.Statement (.claim cmd) := by
  intro _ _ _ h; cases h

theorem WellFormedRow.renew (cmd : HostCmd) : WellFormedRow.Statement (.renew cmd) := by
  intro _ _ _ h; cases h

theorem WellFormedRow.yield (cmd : HostCmd) : WellFormedRow.Statement (.yield cmd) := by
  intro _ _ _ h; cases h

theorem WellFormedRow.leaseset (cmd : HostCmd) : WellFormedRow.Statement (.leaseset cmd) := by
  intro _ _ _ h; cases h

theorem WellFormedRow.image (cmd : HostCmd) : WellFormedRow.Statement (.image cmd) := by
  intro _ _ _ h; cases h

theorem WellFormedRow.attest (cmd : HostCmd) : WellFormedRow.Statement (.attest cmd) := by
  intro _ _ _ h; cases h

theorem WellFormedRow.lcset (cmd : HostCmd) : WellFormedRow.Statement (.lcset cmd) := by
  intro _ _ _ h; cases h

theorem WellFormedRow.partset (cmd : HostCmd) : WellFormedRow.Statement (.partset cmd) := by
  intro _ _ _ h; cases h

theorem WellFormedRow.dompart (cmd : HostCmd) : WellFormedRow.Statement (.dompart cmd) := by
  intro _ _ _ h; cases h

theorem WellFormedRow.traceset (cmd : HostCmd) : WellFormedRow.Statement (.traceset cmd) := by
  intro _ _ _ h; cases h

theorem WellFormedRow.quantum (cmd : HostCmd) : WellFormedRow.Statement (.quantum cmd) := by
  intro _ _ _ h; cases h

theorem WellFormedRow.devidset (cmd : HostCmd) : WellFormedRow.Statement (.devidset cmd) := by
  intro _ _ _ h; cases h

theorem WellFormedRow.replay (cmd : HostCmd) : WellFormedRow.Statement (.replay cmd) := by
  intro _ _ _ h; cases h

theorem WellFormedRow.reset (cmd : HostCmd) : WellFormedRow.Statement (.reset cmd) := by
  intro _ _ _ h; cases h

theorem WellFormedRow.commandActorMessage (i : Nat) : WellFormedRow.Statement (.commandActorMessage i) := by
  intro _ _ _ h; cases h

theorem WellFormedRow.deviceReinstate (device : Nat) : WellFormedRow.Statement (.deviceReinstate device) := by
  intro _ _ _ h; cases h

theorem WellFormedRow.hostLinkDrop (master connected : Nat) : WellFormedRow.Statement (.hostLinkDrop master connected) := by
  intro _ _ _ h; cases h

end Sys2Proof.Laws
end

