-- ==== Sys2Proof/Tests/Slice0.lean ====
section
/-! SUPPORT. Tests of the model: words, results and refusals that the spec works out, each on one small state, and for every
claim with premises states that meet them. Expected values are the spec's own, or worked by hand from its rules. -/

set_option Elab.async false
set_option linter.unreachableTactic false
set_option linter.unusedTactic false

namespace Sys2Proof.Machine

/-! ### Well-formedness: for every check an ill-formed term, which it refuses -/

/-- R38, R39, R41, R42, R44-R46: profile, length, class, T, M, I18 and extension word of the shared checks. -/
def illShared : List (Profile × Instr) := [
  (.deep, .mkaddr { d := .reg 1, a := .reg 2 }), (.core, .rdrow { a := .reg 1, b := .reg 2 }),
  (.core, .clz { len := .w96, d := .reg 1, a := .reg 2 }), (.core, .jRelative { len := .w128 }), (.core, .jRelative {}),
  (.core, .add { len := .w64, d := .reg 1, ext := 1 }), (.core, .add { len := .w96, d := .reg 1, b := .imm, ext := 0x100000000 }),
  (.core, .add { d := .imm }), (.core, .add { d := .chan 1 }), (.core, .add { a := .rsvd 0 }), (.core, .add { c := .reg 1 }),
  (.deep, .add { a := .chan 3 }), (.deep, .add { a := .queue 3 }), (.deep, .add { d := .queue 0 }), (.core, .ext { a := .imm }),
  (.core, .add { t := 4 }), (.core, .add { m := 1 }), (.core, .add { i18 := 1 }), (.core, .add { a := .imm, b := .imm }),
  (.core, .add { len := .w96, i18 := 1, b := .imm, ext := 5 }), (.core, .ld { d := .reg 1, a := .imm }),
  (.core, .loop { d := .reg 0 }), (.core, .pand { d := .reg 8 }), (.core, .pand { a := .reg 8 }), (.core, .sel { c := .reg 8 }),
  (.core, .mzero { d := .reg 4 }), (.core, .jRelative { len := .w96, i18 := 1 }), (.core, .fence { m := 1, i18 := 1 }),
  (.core, .fadd { t := 5, b := .imm }), (.core, .fadd { len := .w96, t := 4, b := .imm }),
  (.core, .fadd { len := .w96, t := 6, b := .imm, ext := 0x10000 }), (.core, .fadd { len := .w128, t := 5, b := .imm }),
  (.core, .amadd { a := .reg 1, b := .imm }), (.deep, .ld { d := .reg 1, a := .reg 2, m := 4 })]

/-- Each entry's own limits: R81, R87, R88, R97-R99, R101, R108, R111, R115-R118, R142, R194, R205, R226, R273, R283, R300,
R313, R350, R360. -/
def illLimits : List (Profile × Instr) := [
  (.core, .bext { i18 := (1 <<< 6) ||| 63 }), (.core, .bext { i18 := 1 <<< 13 }), (.core, .bins { t := 3, i18 := 8 }),
  (.core, .mkaddr { i18 := 3 }), (.core, .mkaddr { b := .reg 1 }), (.core, .mkaddr { i18 := 2, c := .reg 1 }),
  (.core, .mkact { i18 := 0xC0 }), (.core, .ext { i18 := 0x80 }), (.core, .bswap { t := 3 }), (.core, .setCond { m := 10 }),
  (.core, .fcvt { t := 1, m := 1 }), (.core, .fcvt { t := 5, m := 12 }), (.core, .fsgn { t := 5, m := 3, b := .reg 1 }),
  (.core, .fcmp { t := 5, m := 6 }), (.core, .ld { a := .reg 1, m := 2 }), (.core, .st { a := .reg 1, m := 1 }),
  (.core, .fence { m := 0 }), (.core, .vadd { t := 0 }), (.core, .vadd { t := 1, m := 3 }), (.deep, .vcmp { t := 2 }),
  (.core, .vext { t := 1, i18 := 8 }), (.core, .vins { t := 2, i18 := 16 }), (.core, .vslide { t := 1, i18 := 9 }),
  (.core, .vcvt { t := 1, m := 1 }), (.core, .vcvt { t := 7, m := 5, i18 := 0x3F }), (.core, .vcvt { t := 5, m := 1, i18 := 0x400 }),
  (.core, .vscaleq { t := 7, m := 5, i18 := 0x40 }), (.core, .vquant { t := 7, m := 6, i18 := 2 }), (.core, .vdeq { t := 7, m := 5, i18 := 4 }),
  (.core, .send { a := .reg 1, m := 1, b := .imm }), (.core, .chcnt { i18 := 0x40 }), (.core, .chdrop { i18 := 16 }),
  (.core, .hen { i18 := 0x10000 }), (.core, .bar { i18 := 4 }), (.core, .mgemm { i18 := 0x2000 }), (.core, .mdrain { t := 7, i18 := 0x40 }),
  (.core, .mdrain { t := 5, i18 := 1 }), (.core, .mchain { d := .reg 2, i18 := 0x41 }), (.core, .jobCopy { i18 := 8 }),
  (.core, .jobCopy { i18 := 1 }), (.core, .jobReduce { i18 := 3 }), (.core, .qcnt { i18 := 8 }), (.deep, .dend { i18 := 0x10000 }),
  (.deep, .darg { i18 := 11 }), (.core, .sget { i18 := 0x400 }), (.core, .sget { i18 := 0x162 }), (.core, .sset { i18 := 0x40 }),
  (.core, .travpop { i18 := 0 }), (.core, .darbWrite { i18 := 0x154 }), (.core, .plbinv { m := 13 }), (.core, .fclr { i18 := 0x80 })]

theorem test_ill_shared : illShared.all (fun e => !e.2.wf e.1) = true := by decide +kernel
theorem test_ill_limits : illLimits.all (fun e => !e.2.wf e.1) = true := by decide +kernel
/-- Events that name units which do not exist, and host commands that no link carries (R4, R393, R395). -/
theorem test_ill_events : ([
  .forcedIssue 4096, .firingStart 0 4, .taskTake 4096 0, .stealWaitExpiry 0 4, .qstall 4096 0, .vectorWake 0 4,
  .storeLeavesQueue 0 4, .combiningBufferSend 4096 0 0, .plbFillComplete 4096 0, .storefault 0 4, .matrixOpComplete 4096,
  .mgemmStepComplete 4096, .mgemmRestart 4096, .drainWake 4096 0, .migrateBack 0 4, .barrierComplete 0 256, .jobStart 32 0,
  .jobEnd 32 0, .collectiveInstanceComplete 0 256 0, .collectiveInstanceComplete 0 0 2, .gatherLaneReply 4096 0, .streamPush 0 4,
  .rangeRetire 4096 0, .rowAccessPerformed 256, .scanrowWave 256, .arbSlot 256, .slotHalt 0 4, .pcSample 4096, .errorDetected 0 0 2,
  .deviceLost 256, .deviceReinstate 256, .hostLinkDrop 0 2, .hread { opc := 2 }, .claim { opc := 0x10, master := 3 },
  .claim { opc := 0x10, master := 0x200 }, .image { opc := 0x20, len := 0x10000 }, .image { opc := 0x20, len := 1 }, .hwrite {}, .hsend {},
  .renew {}, .yield {}, .leaseset {}, .attest {}, .lcset {}, .partset {}, .dompart {}, .traceset {}, .quantum {}, .devidset {}, .replay {},
  .reset {}] : List Instr).all (fun i => !i.wf .core) = true := by decide +kernel

/-! ### Decoding: for every instruction with an encoding a word written out field by field (R37), and words that are none -/

/-- The bytes of a word, with zeros after them, decode in the profile to the instruction, with its length. -/
def wordOk (e : Profile × Nat × Nat × Instr) : Bool :=
  (decodeBlock e.1 (natToBytes 16 e.2.2.1)).toOption == some (e.2.2.2, e.2.1)

def words1 : List (Profile × Nat × Nat × Instr) := [
  (.core, 8, 0x0000004007820404, .add { d := .reg 1, a := .reg 2, b := .reg 30, t := 1 }),
  (.core, 8, 0x0000008007430808, .sub { d := .reg 2, a := .reg 3, b := .reg 29, t := 2 }),
  (.core, 8, 0x000000C007040C0C, .mul { d := .reg 3, a := .reg 4, b := .reg 28, t := 3 }),
  (.core, 8, 0x0000000006C51010, .mulh { d := .reg 4, a := .reg 5, b := .reg 27 }),
  (.core, 8, 0x0000004006861414, .mulhn { d := .reg 5, a := .reg 6, b := .reg 26, t := 1 }),
  (.core, 8, 0x0000008006471818, .div { d := .reg 6, a := .reg 7, b := .reg 25, t := 2 }),
  (.core, 8, 0x000000C006081C1C, .divn { d := .reg 7, a := .reg 8, b := .reg 24, t := 3 }),
  (.core, 8, 0x0000000005C92020, .rem { d := .reg 8, a := .reg 9, b := .reg 23 }),
  (.core, 8, 0x00000040058A2424, .remn { d := .reg 9, a := .reg 10, b := .reg 22, t := 1 }),
  (.core, 8, 0x00000080054B2828, .and { d := .reg 10, a := .reg 11, b := .reg 21, t := 2 }),
  (.core, 8, 0x000000C0050C2C2C, .or { d := .reg 11, a := .reg 12, b := .reg 20, t := 3 }),
  (.core, 8, 0x0000000004CD3030, .xor { d := .reg 12, a := .reg 13, b := .reg 19 }),
  (.core, 8, 0x00000040048E3434, .andn { d := .reg 13, a := .reg 14, b := .reg 18, t := 1 }),
  (.core, 8, 0x00000080044F3838, .orn { d := .reg 14, a := .reg 15, b := .reg 17, t := 2 }),
  (.core, 8, 0x000000C004103C3C, .shl { d := .reg 15, a := .reg 16, b := .reg 16, t := 3 }),
  (.core, 8, 0x0000000003D14040, .shr { d := .reg 16, a := .reg 17, b := .reg 15 }),
  (.core, 8, 0x0000004003924444, .sra { d := .reg 17, a := .reg 18, b := .reg 14, t := 1 }),
  (.core, 8, 0x0000008003534848, .rol { d := .reg 18, a := .reg 19, b := .reg 13, t := 2 }),
  (.core, 8, 0x000000C003144C4C, .ror { d := .reg 19, a := .reg 20, b := .reg 12, t := 3 }),
  (.core, 8, 0x0000000002D55050, .min { d := .reg 20, a := .reg 21, b := .reg 11 }),
  (.core, 8, 0x0000004002965454, .max { d := .reg 21, a := .reg 22, b := .reg 10, t := 1 }),
  (.core, 8, 0x0000008002575858, .minn { d := .reg 22, a := .reg 23, b := .reg 9, t := 2 }),
  (.core, 8, 0x000000C002185C5C, .maxn { d := .reg 23, a := .reg 24, b := .reg 8, t := 3 }),
  (.core, 8, 0x000000C000020460, .clz { d := .reg 1, a := .reg 2, t := 3 })]

def words2 : List (Profile × Nat × Nat × Instr) := [
  (.core, 8, 0x00000080001E7C64, .ctz { d := .reg 31, a := .reg 30, t := 2 }),
  (.core, 8, 0x0000004000051068, .popc { d := .reg 4, a := .reg 5, t := 1 }),
  (.core, 8, 0x000000000007186C, .brev { d := .reg 6, a := .reg 7 }),
  (.core, 8, 0x0000008000092070, .bswap { d := .reg 8, a := .reg 9, t := 2 }),
  (.core, 8, 0x0472000000020474, .bext { d := .reg 1, a := .reg 2, i18 := 0x11C8 }),
  (.core, 8, 0x00F4004000C20478, .bins { d := .reg 1, a := .reg 2, b := .reg 3, t := 1, i18 := 0x3D0 }),
  (.core, 8, 0x0000000070C2047C, .sel { d := .reg 1, a := .reg 2, b := .reg 3, c := .reg 7 }),
  (.core, 8, 0xFFFFE4000FC20480, .setCond { d := .reg 1, a := .reg 2, b := .imm, m := 9, i18 := 0x3FFFF }),
  (.core, 8, 0x0000140000C21C84, .pset { d := .reg 7, a := .reg 2, b := .reg 3, m := 5 }),
  (.core, 8, 0x0000000000C20488, .pand { d := .reg 1, a := .reg 2, b := .reg 3 }),
  (.core, 8, 0x000000000185108C, .por { d := .reg 4, a := .reg 5, b := .reg 6 }),
  (.core, 8, 0x000040000FC11C90, .pxor { d := .reg 7, a := .reg 1, b := .imm, i18 := 0x1 }),
  (.core, 8, 0x0000000000030894, .pnot { d := .reg 2, a := .reg 3 }),
  (.core, 8, 0x80000000003F2498, .li { d := .reg 9, a := .imm, i18 := 0x20000 }),
  (.core, 8, 0x00001C0000C2049C, .lea { d := .reg 1, a := .reg 2, b := .reg 3, m := 7 }),
  (.core, 8, 0x0000400040C204A0, .mkaddr { d := .reg 1, a := .reg 2, b := .reg 3, c := .reg 4, i18 := 0x1 }),
  (.core, 8, 0x0027C00000C204A4, .mkact { d := .reg 1, a := .reg 2, b := .reg 3, i18 := 0x9F }),
  (.core, 8, 0x0011C000000204A8, .ext { d := .reg 1, a := .reg 2, i18 := 0x47 }),
  (.core, 8, 0xFFFF802C00000100, .br { p := 3, pn := true, i18 := 0x3FFFE }),
  (.core, 12, 0x800000010000000000000105, .jRelative { len := .w96, ext := 0x80000001 }),
  (.core, 16, 0x80000000000000000000000000000106, .jAbsolute { len := .w128, ext := 0x8000000000000000 }),
  (.core, 12, 0x50000000000000509, .jalRelative { len := .w96, d := .reg 1, ext := 0x5 }),
  (.core, 16, 0x123456789ABCDEF00000000000007D0A, .jalAbsolute { len := .w128, d := .reg 31, ext := 0x123456789ABCDEF0 }),
  (.core, 8, 0x000100000007010C, .jr { a := .reg 7, i18 := 0x4 })]

def words3 : List (Profile × Nat × Nat × Instr) := [
  (.core, 8, 0x0000000000070510, .jalr { d := .reg 1, a := .reg 7 }),
  (.core, 8, 0xFFFC000000001914, .loop { d := .reg 6, i18 := 0x3FFF0 }),
  (.core, 8, 0xFFFC1C0000001918, .loopc { d := .reg 6, m := 7, i18 := 0x3FFF0 }),
  (.core, 8, 0xFFFFFFC3BF3DF91C, .nop { d := .rsvd 6, a := .rsvd 5, b := .rsvd 4, c := .rsvd 3, t := 15, m := 15, i18 := 0x3FFFF }),
  (.core, 8, 0xA969400000000120, .brk { i18 := 0x2A5A5 }),
  (.core, 8, 0x0000010000C20540, .fadd { d := .reg 1, a := .reg 2, b := .reg 3, t := 4 }),
  (.core, 8, 0x0000014000C20544, .fsub { d := .reg 1, a := .reg 2, b := .reg 3, t := 5 }),
  (.core, 8, 0x0000018000C20548, .fmul { d := .reg 1, a := .reg 2, b := .reg 3, t := 6 }),
  (.core, 8, 0x0000010040C2054C, .ffma { d := .reg 1, a := .reg 2, b := .reg 3, c := .reg 4, t := 4 }),
  (.core, 8, 0x0000014000C20550, .fdiv { d := .reg 1, a := .reg 2, b := .reg 3, t := 5 }),
  (.core, 8, 0x0000018000020554, .fsqrt { d := .reg 1, a := .reg 2, t := 6 }),
  (.core, 8, 0x0000010000C20558, .fmin { d := .reg 1, a := .reg 2, b := .reg 3, t := 4 }),
  (.core, 8, 0x0000014000C2055C, .fmax { d := .reg 1, a := .reg 2, b := .reg 3, t := 5 }),
  (.core, 8, 0x00002D8000C20560, .fcmp { d := .reg 1, a := .reg 2, b := .reg 3, t := 6, m := 11 }),
  (.core, 8, 0x0000250000020564, .fcvt { d := .reg 1, a := .reg 2, t := 4, m := 9 }),
  (.core, 8, 0x0000014000020568, .fclass { d := .reg 1, a := .reg 2, t := 5 }),
  (.core, 8, 0x0000098000C2056C, .fsgn { d := .reg 1, a := .reg 2, b := .reg 3, t := 6, m := 2 }),
  (.core, 8, 0x7FFFE4C000020580, .ld { d := .reg 1, a := .reg 2, t := 3, m := 9, i18 := 0x1FFFF }),
  (.core, 8, 0x0000288000C20184, .st { a := .reg 2, b := .reg 3, t := 2, m := 10 }),
  (.core, 8, 0x0000100030020588, .ldp { d := .reg 1, a := .reg 2, c := .reg 3, m := 4 }),
  (.core, 8, 0x000008003081018C, .stp { a := .reg 1, b := .reg 2, c := .reg 3, m := 2 }),
  (.core, 8, 0x0000000000027D90, .vld { d := .reg 31, a := .reg 2 }),
  (.core, 8, 0x0000000007C20194, .vst { a := .reg 2, b := .reg 31 }),
  (.core, 8, 0x0000004000C20598, .vlds { d := .reg 1, a := .reg 2, b := .reg 3, t := 1 })]

def words4 : List (Profile × Nat × Nat × Instr) := [
  (.core, 8, 0x000000803081019C, .vsts { a := .reg 1, b := .reg 2, c := .reg 3, t := 2 }),
  (.core, 8, 0x00000000000205A0, .lgld { d := .reg 1, a := .reg 2 }),
  (.core, 8, 0x00000000008101A4, .lgst { a := .reg 1, b := .reg 2 }),
  (.core, 8, 0x00100000000101A8, .pref { a := .reg 1, i18 := 0x40 }),
  (.core, 8, 0x00001800000001AC, .fence { m := 6 }),
  (.core, 8, 0x00000000000001B0, .drain {}),
  (.core, 8, 0x0000000000C205C0, .amadd { d := .reg 1, a := .reg 2, b := .reg 3 }),
  (.core, 8, 0x0000044000C205C4, .amand { d := .reg 1, a := .reg 2, b := .reg 3, t := 1, m := 1 }),
  (.core, 8, 0x0000088000C205C8, .amor { d := .reg 1, a := .reg 2, b := .reg 3, t := 2, m := 2 }),
  (.core, 8, 0x00000CC000C205CC, .amxor { d := .reg 1, a := .reg 2, b := .reg 3, t := 3, m := 3 }),
  (.core, 8, 0x0000000000C205D0, .ammin { d := .reg 1, a := .reg 2, b := .reg 3 }),
  (.core, 8, 0x0000044000C205D4, .ammax { d := .reg 1, a := .reg 2, b := .reg 3, t := 1, m := 1 }),
  (.core, 8, 0x0000088000C205D8, .amminn { d := .reg 1, a := .reg 2, b := .reg 3, t := 2, m := 2 }),
  (.core, 8, 0x00000CC000C205DC, .ammaxn { d := .reg 1, a := .reg 2, b := .reg 3, t := 3, m := 3 }),
  (.core, 8, 0x0000000000C205E0, .amswap { d := .reg 1, a := .reg 2, b := .reg 3 }),
  (.core, 8, 0x0000044040C205E4, .amcas { d := .reg 1, a := .reg 2, b := .reg 3, c := .reg 4, t := 1, m := 1 }),
  (.core, 8, 0x0000098000C205E8, .amfadd { d := .reg 1, a := .reg 2, b := .reg 3, t := 6, m := 2 }),
  (.core, 8, 0x0000084000C20600, .vadd { d := .reg 1, a := .reg 2, b := .reg 3, t := 1, m := 2 }),
  (.core, 8, 0x0000088000C20A04, .vsub { d := .reg 2, a := .reg 2, b := .reg 3, t := 2, m := 2 }),
  (.core, 8, 0x000000C000C20E08, .vmul { d := .reg 3, a := .reg 2, b := .reg 3, t := 3 }),
  (.core, 8, 0x0000044000C2120C, .vmulh { d := .reg 4, a := .reg 2, b := .reg 3, t := 1, m := 1 }),
  (.core, 8, 0x0000008000C21610, .vand { d := .reg 5, a := .reg 2, b := .reg 3, t := 2 }),
  (.core, 8, 0x000000C000C21A14, .vor { d := .reg 6, a := .reg 2, b := .reg 3, t := 3 }),
  (.core, 8, 0x0000004000C21E18, .vxor { d := .reg 7, a := .reg 2, b := .reg 3, t := 1 })]

def words5 : List (Profile × Nat × Nat × Instr) := [
  (.core, 8, 0x0000008000C2061C, .vshl { d := .reg 1, a := .reg 2, b := .reg 3, t := 2 }),
  (.core, 8, 0x000000C000C20A20, .vshr { d := .reg 2, a := .reg 2, b := .reg 3, t := 3 }),
  (.core, 8, 0x0000004000C20E24, .vsra { d := .reg 3, a := .reg 2, b := .reg 3, t := 1 }),
  (.core, 8, 0x0000048000C21228, .vmin { d := .reg 4, a := .reg 2, b := .reg 3, t := 2, m := 1 }),
  (.core, 8, 0x000004C000C2162C, .vmax { d := .reg 5, a := .reg 2, b := .reg 3, t := 3, m := 1 }),
  (.core, 8, 0x0000004000021A30, .vabs { d := .reg 6, a := .reg 2, t := 1 }),
  (.core, 8, 0x0000018000C21E34, .vfadd { d := .reg 7, a := .reg 2, b := .reg 3, t := 6 }),
  (.core, 8, 0x0000014000C20638, .vfsub { d := .reg 1, a := .reg 2, b := .reg 3, t := 5 }),
  (.core, 8, 0x0000018000C20A3C, .vfmul { d := .reg 2, a := .reg 2, b := .reg 3, t := 6 }),
  (.core, 8, 0x0000014040C20E40, .vfma { d := .reg 3, a := .reg 2, b := .reg 3, c := .reg 4, t := 5 }),
  (.core, 8, 0x0000018000C21244, .vfmin { d := .reg 4, a := .reg 2, b := .reg 3, t := 6 }),
  (.core, 8, 0x0000014000C21648, .vfmax { d := .reg 5, a := .reg 2, b := .reg 3, t := 5 }),
  (.core, 8, 0x0000018000C21A4C, .vfdiv { d := .reg 6, a := .reg 2, b := .reg 3, t := 6 }),
  (.core, 8, 0x0000014000021E50, .vfsqrt { d := .reg 7, a := .reg 2, t := 5 }),
  (.core, 8, 0x0000018000020654, .vexp2 { d := .reg 1, a := .reg 2, t := 6 }),
  (.core, 8, 0x0000014000020A58, .vlog2 { d := .reg 2, a := .reg 2, t := 5 }),
  (.core, 8, 0x0000018000020E5C, .vrcp { d := .reg 3, a := .reg 2, t := 6 }),
  (.core, 8, 0x0000014000021260, .vrsq { d := .reg 4, a := .reg 2, t := 5 }),
  (.core, 8, 0x0000248000C21664, .vcmp { d := .reg 5, a := .reg 2, b := .reg 3, t := 2, m := 9 }),
  (.core, 8, 0x00002D4000C21A68, .vfcmp { d := .reg 6, a := .reg 2, b := .reg 3, t := 5, m := 11 }),
  (.core, 8, 0x0000004040C21E6C, .vsel { d := .reg 7, a := .reg 2, b := .reg 3, c := .reg 4, t := 1 }),
  (.core, 8, 0x0000008000020670, .vbcast { d := .reg 1, a := .reg 2, t := 2 }),
  (.core, 8, 0x0007C0C000020A74, .vext { d := .reg 2, a := .reg 2, t := 3, i18 := 0x1F }),
  (.core, 8, 0x0001C04000020E78, .vins { d := .reg 3, a := .reg 2, t := 1, i18 := 0x7 })]

def words6 : List (Profile × Nat × Nat × Instr) := [
  (.core, 8, 0x0000008000C2127C, .vperm { d := .reg 4, a := .reg 2, b := .reg 3, t := 2 }),
  (.core, 8, 0x0004048000C21680, .vslide { d := .reg 5, a := .reg 2, b := .reg 3, t := 2, m := 1, i18 := 0x10 }),
  (.core, 8, 0x0000044000021A84, .vredadd { d := .reg 6, a := .reg 2, t := 1, m := 1 }),
  (.core, 8, 0x0000048000021E88, .vredmax { d := .reg 7, a := .reg 2, t := 2, m := 1 }),
  (.core, 8, 0x000004C00002068C, .vredmin { d := .reg 1, a := .reg 2, t := 3, m := 1 }),
  (.core, 8, 0x0000014000C20A90, .vfred { d := .reg 2, a := .reg 2, b := .reg 3, t := 5 }),
  (.core, 8, 0x01D0D5C000020E94, .vcvt { d := .reg 3, a := .reg 2, t := 7, m := 5, i18 := 0x743 }),
  (.core, 8, 0x000001C000C21298, .vamax { d := .reg 4, a := .reg 2, b := .reg 3, t := 7 }),
  (.core, 8, 0x001119C00002169C, .vscaleq { d := .reg 5, a := .reg 2, t := 7, m := 6, i18 := 0x44 }),
  (.core, 8, 0x0001D5C000C21AA0, .vquant { d := .reg 6, a := .reg 2, b := .reg 3, t := 7, m := 5, i18 := 0x7 }),
  (.core, 8, 0x000059C000C21EA4, .vdeq { d := .reg 7, a := .reg 2, b := .reg 3, t := 7, m := 6, i18 := 0x1 }),
  (.core, 8, 0x00000040000206A8, .vpopc { d := .reg 1, a := .reg 2, t := 1 }),
  (.core, 8, 0x0000008000C20AAC, .vpfx { d := .reg 2, a := .reg 2, b := .reg 3, t := 2 }),
  (.core, 8, 0x000000C040020EB0, .vcompr { d := .reg 3, a := .reg 2, c := .reg 4, t := 3 }),
  (.core, 8, 0x00000040400212B4, .vexpnd { d := .reg 4, a := .reg 2, c := .reg 4, t := 1 }),
  (.core, 8, 0x0000008000C216B8, .vgath { d := .reg 5, a := .reg 2, b := .reg 3, t := 2 }),
  (.core, 8, 0x00000D4040C202BC, .vscat { a := .reg 2, b := .reg 3, c := .reg 4, t := 5, m := 3 }),
  (.core, 8, 0x0800080040C206C0, .bpers { d := .reg 1, a := .reg 2, b := .reg 3, c := .reg 4, m := 2, i18 := 0x2000 }),
  (.core, 8, 0x0800000040C206C4, .bspan { d := .reg 1, a := .reg 2, b := .reg 3, c := .reg 4, i18 := 0x2000 }),
  (.core, 8, 0x0800040040C206C8, .bput { d := .reg 1, a := .reg 2, b := .reg 3, c := .reg 4, m := 1, i18 := 0x2000 }),
  (.core, 8, 0x0800000040C206CC, .bputu { d := .reg 1, a := .reg 2, b := .reg 3, c := .reg 4, i18 := 0x2000 }),
  (.core, 8, 0x0800040040C206D0, .bget { d := .reg 1, a := .reg 2, b := .reg 3, c := .reg 4, m := 1, i18 := 0x2000 }),
  (.core, 8, 0x0800040040C206D4, .bpeek { d := .reg 1, a := .reg 2, b := .reg 3, c := .reg 4, m := 1, i18 := 0x2000 }),
  (.core, 8, 0x0800000040C206D8, .btake { d := .reg 1, a := .reg 2, b := .reg 3, c := .reg 4, i18 := 0x2000 })]

def words7 : List (Profile × Nat × Nat × Instr) := [
  (.core, 8, 0x0800000040C206DC, .bfind { d := .reg 1, a := .reg 2, b := .reg 3, c := .reg 4, i18 := 0x2000 }),
  (.core, 8, 0x0800000040C206E0, .binc { d := .reg 1, a := .reg 2, b := .reg 3, c := .reg 4, i18 := 0x2000 }),
  (.core, 8, 0x0800000040C206E4, .bcnt { d := .reg 1, a := .reg 2, b := .reg 3, c := .reg 4, i18 := 0x2000 }),
  (.core, 8, 0x0800000040C206E8, .bclr { d := .reg 1, a := .reg 2, b := .reg 3, c := .reg 4, i18 := 0x2000 }),
  (.core, 8, 0x0800000040C206EC, .blatch { d := .reg 1, a := .reg 2, b := .reg 3, c := .reg 4, i18 := 0x2000 }),
  (.core, 8, 0x0800000040C206F0, .bstat { d := .reg 1, a := .reg 2, b := .reg 3, c := .reg 4, i18 := 0x2000 }),
  (.core, 8, 0x00003C0000810300, .send { a := .reg 1, b := .reg 2, m := 15 }),
  (.core, 8, 0x000FC00000000704, .chcnt { d := .reg 1, i18 := 0x3F }),
  (.core, 8, 0x0003C00000800708, .chdrop { d := .reg 1, b := .reg 2, i18 := 0xF }),
  (.core, 8, 0x3FFFC0000001030C, .hen { a := .reg 1, i18 := 0xFFFF }),
  (.core, 8, 0x0000400000010310, .hdis { a := .reg 1, i18 := 0x1 }),
  (.core, 8, 0x2000000000000314, .hset { i18 := 0x8000 }),
  (.core, 8, 0x0000000000000318, .done {}),
  (.core, 8, 0x000000003081031C, .fork { a := .reg 1, b := .reg 2, c := .reg 3 }),
  (.core, 8, 0x0000000000040320, .tend { a := .reg 4 }),
  (.core, 8, 0x0000C00000000324, .bar { i18 := 0x3 }),
  (.core, 8, 0x0000800000000728, .bara { d := .reg 1, i18 := 0x2 }),
  (.core, 8, 0x000040000001032C, .barw { a := .reg 1, i18 := 0x1 }),
  (.core, 8, 0x0000C00000000730, .self { d := .reg 1, i18 := 0x3 }),
  (.core, 8, 0x0000000000810340, .mlda { a := .reg 1, b := .reg 2 }),
  (.core, 8, 0x0000040000810F44, .mldb { d := .reg 3, a := .reg 1, b := .reg 2, m := 1 }),
  (.core, 8, 0x0000040000810B48, .mldbs { d := .reg 2, a := .reg 1, b := .reg 2, m := 1 }),
  (.core, 8, 0x0000000000000F4C, .mzero { d := .reg 3 }),
  (.core, 8, 0x0000000000020F50, .mmul { d := .reg 3, a := .reg 2 })]

def words8 : List (Profile × Nat × Nat × Instr) := [
  (.core, 8, 0x0000000000030754, .mmuls { d := .reg 1, a := .reg 3 }),
  (.core, 8, 0x07FFC00000C20758, .mgemm { d := .reg 1, a := .reg 2, b := .reg 3, i18 := 0x1FFF }),
  (.core, 8, 0x005101C001030B5C, .mdrain { d := .reg 2, a := .reg 3, b := .reg 4, t := 7, i18 := 0x144 }),
  (.core, 8, 0x0050400000000F60, .mchain { d := .reg 3, i18 := 0x141 }),
  (.core, 8, 0x0000000000810F64, .mst { d := .reg 3, a := .reg 1, b := .reg 2 }),
  (.core, 8, 0x0000000000000368, .msync {}),
  (.core, 8, 0x000000000000176C, .mstat { d := .reg 5 }),
  (.core, 8, 0x0000000000810380, .jobCopy { a := .reg 1, b := .reg 2 }),
  (.core, 8, 0x0004400000810380, .jobGather { a := .reg 1, b := .reg 2, i18 := 0x11 }),
  (.core, 8, 0x000A800000810380, .jobScatter { a := .reg 1, b := .reg 2, i18 := 0x2A }),
  (.core, 8, 0x0FF2C00000810380, .jobReduce { a := .reg 1, b := .reg 2, i18 := 0x3FCB }),
  (.core, 8, 0x0071000000810380, .jobBcast { a := .reg 1, b := .reg 2, i18 := 0x1C4 }),
  (.core, 8, 0x00000C0030810384, .gather { a := .reg 1, b := .reg 2, c := .reg 3, m := 3 }),
  (.core, 8, 0x00080C0000010388, .srec { a := .reg 1, m := 3, i18 := 0x20 }),
  (.core, 8, 0x000008000000038C, .sstart { m := 2 }),
  (.core, 8, 0x0000040000000390, .sstop { m := 1 }),
  (.core, 8, 0x0001C00000000794, .qcnt { d := .reg 1, i18 := 0x7 }),
  (.core, 8, 0x0001400000000B98, .qflush { d := .reg 2, i18 := 0x5 }),
  (.core, 8, 0x001000000002079C, .deep { d := .reg 1, a := .reg 2, i18 := 0x40 }),
  (.deep, 8, 0x00000000008103A0, .rdrow { a := .reg 1, b := .reg 2 }),
  (.deep, 8, 0x00400000010303A4, .wrrow { a := .reg 3, b := .reg 4, i18 := 0x100 }),
  (.deep, 8, 0x00000000308103A8, .scanrow { a := .reg 1, b := .reg 2, c := .reg 3 }),
  (.deep, 8, 0x0000040000C207AC, .dot16 { d := .reg 1, a := .reg 2, b := .reg 3, m := 1 }),
  (.deep, 8, 0x3FFFC000000003B0, .dend { i18 := 0xFFFF })]

def words9 : List (Profile × Nat × Nat × Instr) := [
  (.deep, 8, 0x00000000000003B4, .dyield {}),
  (.deep, 8, 0x00028000000007B8, .darg { d := .reg 1, i18 := 0xA }),
  (.core, 8, 0x00080000000007C0, .sget { d := .reg 1, i18 := 0x20 }),
  (.core, 8, 0x006E0000008003C4, .sset { b := .reg 2, i18 := 0x1B8 }),
  (.core, 8, 0xFFFFC000000003C8, .trap { i18 := 0x3FFFF }),
  (.core, 8, 0x00000400000003CC, .kret { m := 1 }),
  (.core, 8, 0x00003000008103D0, .plbinv { a := .reg 1, b := .reg 2, m := 12 }),
  (.core, 8, 0x00000000000003D4, .ibar {}),
  (.core, 8, 0x00000000000007D8, .cyc { d := .reg 1 }),
  (.core, 8, 0x0000000000000BDC, .fget { d := .reg 2 }),
  (.core, 8, 0x001FC000000207E0, .fclr { d := .reg 1, a := .reg 2, i18 := 0x7F }),
  (.core, 8, 0x00000000000207E4, .gkill { d := .reg 1, a := .reg 2 }),
  (.core, 8, 0x0000000040C207E8, .aevict { d := .reg 1, a := .reg 2, b := .reg 3, c := .reg 4 }),
  (.core, 8, 0x0000000000C207EC, .arestore { d := .reg 1, a := .reg 2, b := .reg 3 }),
  (.core, 8, 0x00000000000207F0, .klaunch { d := .reg 1, a := .reg 2 }),
  (.core, 8, 0x0058800000000FC0, .travpop { d := .reg 3, i18 := 0x162 }),
  (.core, 8, 0x006A000000000FC0, .sfrqpop { d := .reg 3, i18 := 0x1A8 }),
  (.core, 8, 0x006C800000000FC0, .samppop { d := .reg 3, i18 := 0x1B2 }),
  (.core, 8, 0x0010000001C003C4, .mseqWrite { b := .reg 7, i18 := 0x40 }),
  (.core, 8, 0x0044000001C003C4, .munitWrite { b := .reg 7, i18 := 0x110 }),
  (.core, 8, 0x0058000001C003C4, .travctlWrite { b := .reg 7, i18 := 0x160 }),
  (.core, 8, 0x006C000001C003C4, .sampctlWrite { b := .reg 7, i18 := 0x1B0 }),
  (.core, 8, 0x004CC00001C003C4, .amodeWrite { b := .reg 7, i18 := 0x133 }),
  (.core, 8, 0x0001000001C003C4, .vuseWrite { b := .reg 7, i18 := 0x4 })]

def words10 : List (Profile × Nat × Nat × Instr) := [
  (.core, 8, 0x006E800001C003C4, .cmpctlWrite { b := .reg 7, i18 := 0x1BA }),
  (.core, 8, 0x0060C00001C003C4, .strecWrite { b := .reg 7, i18 := 0x183 }),
  (.core, 8, 0x0054800001C003C4, .qosbudWrite { b := .reg 7, i18 := 0x152 }),
  (.core, 8, 0x0055400001C003C4, .darbWrite { b := .reg 7, i18 := 0x155 }),
  (.core, 8, 0x0000000040C2D7E8, .aevict { d := .queue 5, a := .reg 2, b := .reg 3, c := .reg 4 }),
  (.core, 8, 0x0000000000C2D7EC, .arestore { d := .queue 5, a := .reg 2, b := .reg 3 }),
  (.core, 8, 0x000000000002D7F0, .klaunch { d := .queue 5, a := .reg 2 })]

theorem test_words1 : words1.all wordOk = true := by decide +kernel
theorem test_words2 : words2.all wordOk = true := by decide +kernel
theorem test_words3 : words3.all wordOk = true := by decide +kernel
theorem test_words4 : words4.all wordOk = true := by decide +kernel
theorem test_words5 : words5.all wordOk = true := by decide +kernel
theorem test_words6 : words6.all wordOk = true := by decide +kernel
theorem test_words7 : words7.all wordOk = true := by decide +kernel
theorem test_words8 : words8.all wordOk = true := by decide +kernel
theorem test_words9 : words9.all wordOk = true := by decide +kernel
theorem test_words10 : words10.all wordOk = true := by decide +kernel


/-- Words that are no instruction: LEN 3, an opcode without a row, a profile without the opcode, a field at fault, and a block
that ends too soon (R33, R34, R46, R48). -/
theorem test_no_instruction :
    [(Profile.core, 8, 0x3, DecodeError.illegal 3), (.core, 8, 0xFF <<< 2, .illegal 0x3FC), (.core, 8, 0, .illegal 0),
      (.core, 8, 0xEB <<< 2, .illegal 0x3AC), (.deep, 8, 0xE0 <<< 2, .illegal 0x380), (.core, 8, 4 ||| 1 <<< 42, .illegal 0x40000000004),
      (.core, 8, 5, .boundary 5), (.core, 4, 0x3D8, .boundary 0x3D8), (.core, 4, 3, .illegal 3)].all
      (fun e => match decodeBlock e.1 (natToBytes e.2.1 e.2.2.1) with | .error x => x == e.2.2.2 | .ok _ => false) = true := by
  decide +kernel

/-! ### One step of one instruction -/

/-- A thread with x registers and a rounding mode. -/
def thrOf (xs : List (Nat × BitVec 64)) (rm : BitVec 3 := 0) : Thread :=
  { x := xs.foldl (fun v e => vput v e.1 e.2) (Vector.replicate 32 0), rm }

/-- Slot 0 of core 0 issues. -/
def onCore (x : Core) : State := { cores := [(0, x)] }
def onSlot (sl : Slot) : State := onCore { slots := #v[sl, {}, {}, {}] }
def onThr (t : Thread) : State := onSlot { thr := t, status := .ready }

/-- What a next state holds. -/
def after {α : Type} [DecidableEq α] (i : Instr) (s : State) (f : State → α) (v : α) : Bool :=
  match exec i s with | .next t => decide (f t = v) | _ => false

/-- x3, the flags, and the eight bytes that the program counter moved. -/
def x3f (t : State) : BitVec 64 × BitVec 7 × BitVec 64 := (t.thread.getX 3, t.thread.flags, t.thread.pc)

/-- An instruction with sources x1 and x2, of type t and field M, gives a result and flags. -/
def gives (f : Op → Instr) (t : BitVec 4) (m : BitVec 4) (a b : BitVec 64) (rm : BitVec 3) (r : BitVec 64) (fl : BitVec 7) : Bool :=
  after (f { d := .reg 3, a := .reg 1, b := .reg 2, t, m }) (onThr (thrOf [(1, a), (2, b)] rm)) x3f (r, fl, 8)

/-- The same for an instruction of one source, with its I18. -/
def gives1 (f : Op → Instr) (t : BitVec 4) (m : BitVec 4) (i18 : BitVec 18) (a : BitVec 64) (rm : BitVec 3) (r : BitVec 64)
    (fl : BitVec 7) : Bool :=
  after (f { d := .reg 3, a := .reg 1, t, m, i18 }) (onThr (thrOf [(1, a)] rm)) x3f (r, fl, 8)

/-- R78's table of divisions. DZ is bit 1. -/
theorem test_divisions : [
    gives .div 1 0 7 0xFFFFFFFE 0 0xFFFFFFFD 0, gives .rem 1 0 7 0xFFFFFFFE 0 1 0, gives .div 0 0 (-7) 2 0 0xFFFFFFFFFFFFFFFD 0,
    gives .rem 0 0 (-7) 2 0 0xFFFFFFFFFFFFFFFF 0, gives .div 0 0 5 0 0 0x7FFFFFFFFFFFFFFF 2, gives .div 0 0 (-5) 0 0 0x8000000000000000 2,
    gives .divn 0 0 9 0 0 0xFFFFFFFFFFFFFFFF 2, gives .remn 1 0 0x1234 0 0 0x1234 2,
    gives .div 0 0 0x8000000000000000 (-1) 0 0x8000000000000000 0, gives .div 3 0 0x80 0xFF 0 0x80 0, gives .divn 3 0 0xFF 0x10 0 0xF 0].all id = true := by
  decide +kernel

/-- R77 at the widths' edges, by hand: wraps, sign changes, shift counts of the full width. -/
theorem test_integers : [
    gives .add 3 0 0xFF 1 0 0 0, gives .sub 2 0 0 1 0 0xFFFF 0, gives .mul 1 0 0x10000 0x10000 0 0 0, gives .mulh 1 0 0xFFFFFFFF 2 0 0xFFFFFFFF 0,
    gives .mulhn 1 0 0xFFFFFFFF 2 0 1 0, gives .and 0 0 0xC 0xA 0 8 0, gives .or 0 0 0xC 0xA 0 0xE 0, gives .xor 0 0 0xC 0xA 0 6 0,
    gives .andn 0 0 0xC 0xA 0 4 0, gives .orn 3 0 0xC 0xA 0 0xFD 0, gives .shl 1 0 1 33 0 2 0, gives .shr 3 0 0x80 15 0 1 0,
    gives .sra 3 0 0x80 7 0 0xFF 0, gives .rol 2 0 0x8001 1 0 3 0, gives .ror 2 0 0x8001 17 0 0xC000 0, gives .min 3 0 0x80 0x7F 0 0x80 0,
    gives .max 3 0 0x80 0x7F 0 0x7F 0, gives .minn 3 0 0x80 0x7F 0 0x7F 0, gives .maxn 3 0 0x80 0x7F 0 0x80 0].all id = true := by
  decide +kernel

/-- R79, R81 (its example), R82, R85, R86. -/
theorem test_bits : [
    gives1 .clz 1 0 0 0 0 32 0, gives1 .clz 2 0 0 0x00FF 0 8 0, gives1 .ctz 3 0 0 0x100 0 8 0, gives1 .popc 0 0 0 0xF0F 0 8 0,
    gives1 .brev 3 0 0 0x01 0 0x80 0, gives1 .bswap 1 0 0 0x11223344 0 0x44332211 0, gives1 .bext 1 0 (1 <<< 12 ||| 7 <<< 6 ||| 4) 0xF80 0 0xFFFFFFF8 0,
    after (.bins { d := .reg 3, a := .reg 1, b := .reg 2, t := 1, i18 := 7 <<< 6 ||| 8 }) (onThr (thrOf [(1, 0xAB), (2, 0xFFFFFFFF)])) x3f (0xFFFFABFF, 0, 8),
    gives1 .ext 0 0 (0x40 ||| 7) 0x80 0 0xFFFFFFFFFFFFFF80 0, gives1 .ext 0 0 7 0x180 0 0x80 0, gives .lea 0 3 0x1000 5 0 0x1028 0,
    after (.li { len := .w96, d := .reg 3, a := .imm, ext := 0x80000000 }) (onThr {}) x3f (0xFFFFFFFF80000000, 0, 12),
    after (.sel { d := .reg 3, a := .reg 1, b := .reg 2, c := .reg 1, t := 3 }) (onThr (thrOf [(1, 0x111), (2, 0x222)])) x3f (0x22, 0, 8)].all id = true := by
  decide +kernel

/-- R83 at the edges of signed and unsigned order, R84 on all 32 bits, R87, R88. -/
theorem test_conditions : [
    gives .setCond 3 2 0x80 0x7F 0 1 0, gives .setCond 3 6 0x80 0x7F 0 0 0, gives .setCond 3 3 5 5 0 1 0, gives .setCond 0 9 (-1) 1 0 1 0,
    after (.pset { d := .reg 1, a := .reg 1, b := .imm, m := 1 }) (onThr (thrOf [(1, 4)])) (·.thread.getP 1) 0xFFFFFFFF,
    after (.pnot { d := .reg 1, a := .reg 0 }) (onThr {}) (·.thread.getP 1) 0,
    after (.pxor { d := .reg 1, a := .reg 0, b := .reg 2 }) (onThr { p := #v[0, 0, 0xF0F0F0F0, 0, 0, 0, 0, 0] }) (·.thread.getP 1) 0x0F0F0F0F,
    after (.pand { d := .reg 0, a := .reg 0, b := .reg 2 }) (onThr {}) (·.thread.getP 0) 0xFFFFFFFF,
    after (.por { d := .reg 1, a := .reg 3, b := .reg 2 }) (onThr { p := #v[0, 0, 0xF0, 0xF, 0, 0, 0, 0] }) (·.thread.getP 1) 0xFF,
    after (.mkaddr { d := .reg 3, a := .reg 1, b := .reg 2, i18 := 2 }) (onThr (thrOf [(1, 0x1FFFFFFFFF), (2, 7)])) x3f (0xFD00007FFFFFFFFF, 0, 8),
    gives1 .mkact 0 0 0x12 0x9A7 0 0x269D2 0, gives1 .mkact 0 0 0x80 0xFFF 0 0x803FFC0 0].all id = true := by
  decide +kernel

/-- R89: targets, links and counters; a misaligned target raises ALIGN, and the link register stays. -/
theorem test_transfers : [
    after (.br { i18 := 0x3FFFE }) (onThr { pc := 0x100 }) (·.thread.pc) 0xF8, after (.jAbsolute { len := .w128, ext := 0x2000 }) (onThr {}) (·.thread.pc) 0x2000,
    after (.jalRelative { len := .w96, d := .reg 1, ext := 4 }) (onThr { pc := 0x100 }) (fun t => (t.thread.pc, t.thread.getX 1)) (0x110, 0x10C),
    after (.jalr { d := .reg 1, a := .reg 1, i18 := 8 }) (onThr (thrOf [(1, 0x400)])) (fun t => (t.thread.pc, t.thread.getX 1)) (0x408, 8),
    after (.jalAbsolute { len := .w128, d := .reg 1, ext := 0x2002 }) (onThr {}) (fun t => ((t.slot 0 0).regs.xcause, (t.slot 0 0).regs.xval, t.thread.getX 1)) (3, 0x2002, 0),
    after (.jRelative { len := .w96, ext := 0xFFFFFFFF }) (onThr { pc := 0x100 }) (·.thread.pc) 0xFC, after (.jr { a := .reg 1 }) (onThr (thrOf [(1, 0x40)])) (·.thread.pc) 0x40,
    after (.loop { d := .reg 3, i18 := 0x3FFFF }) (onThr { thrOf [(3, 2)] with pc := 0x100 }) x3f (1, 0, 0xFC),
    after (.loop { d := .reg 3, i18 := 0x3FFFF }) (onThr { thrOf [(3, 1)] with pc := 0x100 }) x3f (0, 0, 0x108),
    after (.loopc { d := .reg 3, m := 1, i18 := 4 }) (onSlot { thr := thrOf [(3, 1)], regs := { latch := #v[0, 3, 0, 0, 0, 0, 0, 0] } }) x3f (2, 0, 16),
    after (.nop { d := .rsvd 1, t := 9 }) (onThr {}) x3f (0, 0, 8),
    after (.brk { i18 := 5 }) (onThr { pc := 0x100 }) (fun t => ((t.slot 0 0).regs.xcause, (t.slot 0 0).regs.xval, (t.slot 0 0).regs.xpc, (t.slot 0 0).km)) (12, 5, 0x100, true)].all
      id = true := by decide +kernel

/-- R94's table (f32 is T = 5; RM 0 RNE, 1 RTZ, 2 RDN, 3 RUP, 4 RNA; flags NV 1, DZ 2, OF 4, UF 8, NX 16). -/
theorem test_floats : [
    gives .fadd 5 0 0x3F800000 0x33800000 0 0x3F800000 16, gives .fadd 5 0 0x3F800000 0x33800000 3 0x3F800001 16,
    gives .fadd 5 0 0x3F800000 0x33800000 4 0x3F800001 16, gives .fsub 5 0 0x3F800000 0x3F800000 0 0 0, gives .fsub 5 0 0x3F800000 0x3F800000 2 0x80000000 0,
    gives .fdiv 5 0 0x3F800000 0x80000000 0 0xFF800000 2, gives .fdiv 5 0 0 0 0 0x7FC00000 1, gives .fmul 5 0 0x7F7FFFFF 0x40000000 1 0x7F7FFFFF 20,
    gives1 .fsqrt 5 0 0 0xBF800000 0 0x7FC00000 1, gives1 .fsqrt 4 0 0 0x4010000000000000 0 0x4000000000000000 0,
    after (.ffma { d := .reg 3, a := .reg 1, b := .reg 2, c := .reg 4, t := 5 }) (onThr (thrOf [(1, 0x40000000), (2, 0x3FC00000), (4, 0x3E800000)])) x3f (0x40500000, 0, 8),
    gives .fmin 5 0 0x80000000 0 0 0x80000000 0, gives .fmax 5 0 0x7FC00000 0x3F800000 0 0x3F800000 0, gives .fmin 5 0 0x7F800001 0x3F800000 0 0x3F800000 1].all
      id = true := by decide +kernel

/-- R96-R99: their tables and examples. -/
theorem test_float_forms : [
    gives1 .fcvt 1 5 0 0x40200000 0 2 16, gives1 .fcvt 1 5 0 0x40200000 4 3 16, gives1 .fcvt 1 5 0 0xBF800000 0 0xFFFFFFFF 0, gives1 .fcvt 3 13 0 0xBF800000 0 0 1,
    gives1 .fcvt 1 5 0 0x7FC00000 0 0 1, gives1 .fcvt 6 5 0 0x477FF000 0 0x7C00 20, gives1 .fcvt 5 0 0 0x1000001 0 0x4B800000 16,
    gives1 .fclass 5 0 0 0xBF800000 0 0x104 0, gives1 .fclass 5 0 0 1 0 2 0, gives1 .fclass 5 0 0 0x80000000 0 0x101 0, gives1 .fclass 5 0 0 0x7FC00000 0 0x10 0,
    gives1 .fclass 5 0 0 0xFF800001 0 0x310 0, gives .fsgn 5 1 0x3F800000 0x80000000 0 0x3F800000 0, gives .fsgn 5 2 0xBF800000 0x80000000 0 0x3F800000 0,
    gives .fcmp 5 0 0 0x80000000 0 1 0, gives .fcmp 5 2 0x7FC00000 0 0 0 1, gives .fcmp 5 1 0x7FC00000 0 0 1 0, gives .fcmp 5 10 0x7FC00000 0 0 1 0].all id = true := by
  decide +kernel


/-- A slot with v registers given by their lanes of width w, and x registers. -/
def onVec (w : Nat) (vs : List (Nat × List Nat)) (xs : List (Nat × BitVec 64) := []) (rm : BitVec 3 := 0) : State :=
  onSlot { thr := thrOf xs rm, v := vs.foldl (fun v e => vput v e.1 (BitVec.ofNat 256 (packLanes w e.2))) (Vector.replicate 32 0), status := .ready }

/-- The first n lanes of v3 and the flags. -/
def v3f (w n : Nat) (t : State) : List Nat × BitVec 7 := (lanes w (vget 0 (t.slot 0 0).v 3).toNat n, t.thread.flags)

/-- Lanes of v1 and v2 go in; lanes of v3 and flags come out. -/
def vgives (f : Op → Instr) (w : Nat) (t m : BitVec 4) (a b : List Nat) (rm : BitVec 3) (r : List Nat) (fl : BitVec 7) (i18 : BitVec 18 := 0) : Bool :=
  after (f { d := .reg 3, a := .reg 1, b := .reg 2, t, m, i18 }) (onVec w [(1, a), (2, b)] [] rm) (v3f w r.length) (r, fl)

/-- R107, R108 (its example is the saturating add; SATF is bit 6). -/
theorem test_lanes : [
    vgives .vadd 8 3 1 [0x14, 0x50] [100, 100] 0 [0x78, 0x7F] 0x40, vgives .vadd 8 3 0 [0x50] [100] 0 [0xB4] 0, vgives .vsub 8 3 2 [3, 9] [5, 4] 0 [0, 5] 0x40,
    vgives .vmul 16 2 0 [0x100, 3] [0x100, 5] 0 [0, 15] 0, vgives .vmulh 8 3 0 [0xFF] [2] 0 [0xFF] 0, vgives .vmulh 8 3 1 [0xFF] [2] 0 [1] 0,
    vgives .vand 32 1 0 [12] [10] 0 [8] 0, vgives .vor 32 1 0 [12] [10] 0 [14] 0, vgives .vxor 32 1 0 [12] [10] 0 [6] 0, vgives .vshl 8 3 0 [1] [9] 0 [2] 0,
    vgives .vshr 8 3 0 [0x80] [7] 0 [1] 0, vgives .vsra 8 3 0 [0x80] [7] 0 [0xFF] 0, vgives .vmin 8 3 0 [0x80, 1] [0x7F, 2] 0 [0x80, 1] 0,
    vgives .vmax 8 3 1 [0x80, 1] [0x7F, 2] 0 [0x80, 2] 0, vgives .vabs 8 3 0 [0x80, 0xFF] [] 0 [0x80, 1] 0, vgives .vabs 32 5 0 [0xFFC00001] [] 0 [0x7FC00001] 0,
    vgives .vpopc 16 2 0 [0xB, 0, 6, 15] [] 0 [3, 0, 2, 4] 0].all id = true := by decide +kernel

/-- R109, R110: its example, its special cases and its exact results. -/
theorem test_float_lanes : [
    vgives .vrcp 32 5 0 (List.replicate 8 0x40400000) [] 0 [0x3EAAAAAA] 16, vgives .vrcp 32 5 0 [0x80000000] [] 0 [0xFF800000, 0x7F800000] 2,
    vgives .vexp2 32 5 0 (List.replicate 8 0x43000000) [] 0 [0x7F7FFFFF] 20, vgives .vexp2 32 5 0 [0x40400000, 0xFF800000, 0x80000000] [] 0 [0x41000000, 0, 0x3F800000] 0,
    vgives .vlog2 32 5 0 (List.replicate 8 0x41000000) [] 0 [0x40400000] 0, vgives .vlog2 32 5 0 (0xBF800000 :: List.replicate 7 0x3F800000) [] 0 [0x7FC00000, 0] 1,
    vgives .vrsq 32 5 0 (List.replicate 8 0x40800000) [] 0 [0x3F000000] 0, vgives .vrsq 16 6 0 (List.replicate 16 0x7C00) [] 0 [0] 0,
    vgives .vfadd 32 5 0 [0x3F800000] [0x33800000] 3 [0x3F800001] 16, vgives .vfsub 32 5 0 [0x3F800000] [0x3F800000] 0 [0] 0,
    vgives .vfmul 16 6 0 [0x3C00] [0x4000] 0 [0x4000] 0, vgives .vfdiv 32 5 0 (List.replicate 8 0x3F800000) (List.replicate 8 0x40400000) 0 [0x3EAAAAAB] 16,
    vgives .vfsqrt 32 5 0 [0x40800000] [] 0 [0x40000000, 0] 0, vgives .vfmin 32 5 0 [0x80000000] [0] 0 [0x80000000] 0, vgives .vfmax 32 5 0 [0x7FC00000] [0x3F800000] 0 [0x3F800000] 0,
    after (.vfma { d := .reg 3, a := .reg 1, b := .reg 2, c := .reg 3, t := 5 }) (onVec 32 [(1, [0x40000000]), (2, [0x3FC00000]), (3, [0x3E800000])]) (v3f 32 1) ([0x40500000], 0)].all
      id = true := by decide +kernel

/-- R111, R112, R101 (a masked lane keeps its old value), R119 and R120 with their examples. -/
theorem test_lane_moves : [
    after (.vcmp { d := .reg 1, a := .reg 1, b := .reg 2, t := 1, m := 2 }) (onVec 32 [(1, [0xFFFFFFFF, 5]), (2, [0, 5])]) (·.thread.getP 1) 1,
    after (.vfcmp { d := .reg 1, a := .reg 1, b := .reg 2, t := 5, m := 0 }) (onVec 32 [(1, [0x80000000, 5])]) (·.thread.getP 1) 0xFD,
    vgives .vperm 32 1 0 [10, 11, 12] [2, 8, 0] 0 [12, 0, 10] 0, vgives .vslide 32 1 0 [1, 2, 3] [11, 12, 13, 14, 15, 16, 17, 18] 0 [17, 18, 1, 2] 0 2,
    vgives .vslide 32 1 1 [1, 2, 3, 4, 5, 6, 7, 8] [11, 12] 0 [2, 3, 4, 5, 6, 7, 8, 11] 0 1,
    after (.vsel { d := .reg 3, a := .reg 1, b := .reg 2, c := .reg 0, t := 1 }) (onVec 32 [(1, [7]), (2, [9])]) (v3f 32 1) ([7], 0),
    after (.vbcast { d := .reg 3, a := .reg 1, t := 2 }) (onVec 16 [] [(1, 0x1FFFF)]) (v3f 16 2) ([0xFFFF, 0xFFFF], 0),
    after (.vext { d := .reg 3, a := .reg 1, t := 3, i18 := 31 }) (onVec 8 [(1, List.replicate 31 0 ++ [0x85])]) x3f (0x85, 0, 8),
    after (.vins { d := .reg 3, a := .reg 1, t := 1, i18 := 1 }) (onVec 32 [(3, [1, 2, 3])] [(1, 9)]) (v3f 32 3) ([1, 9, 3], 0),
    after (.vcompr { d := .reg 3, a := .reg 1, c := .reg 2, t := 1 }) (let s := onVec 32 [(1, [10, 11, 12, 13, 14, 15, 16, 17])]
      s.modThread (·.setP 2 0b10100110)) (v3f 32 8) ([11, 12, 15, 17, 0, 0, 0, 0], 0),
    after (.vexpnd { d := .reg 3, a := .reg 1, c := .reg 2, t := 1 }) (let s := onVec 32 [(1, [11, 12, 15, 17])]
      s.modThread (·.setP 2 0b10100110)) (v3f 32 8) ([0, 11, 12, 0, 0, 15, 0, 17], 0),
    after (.vpfx { d := .reg 3, a := .reg 1, b := .reg 0, t := 2 }) (onVec 16 [(1, [3, 0, 2, 4])]) (v3f 16 5) ([0, 3, 3, 5, 9], 0),
    after (.vadd { p := 1, d := .reg 3, a := .reg 1, b := .reg 2, t := 1 }) ((onVec 32 [(1, [1, 1]), (2, [2, 2]), (3, [7, 8])]).modThread (·.setP 1 2)) (v3f 32 2) ([7, 3], 0)].all
      id = true := by decide +kernel

/-- R113 (VFRED's example), R115, and R116-R118's worked example. -/
theorem test_reductions : [
    after (.vredadd { d := .reg 3, a := .reg 1, t := 3 }) (onVec 8 [(1, List.replicate 32 0x80)]) x3f (BitVec.ofInt 64 (-4096), 0, 8),
    after (.vredmax { d := .reg 3, a := .reg 1, t := 3 }) (onVec 8 [(1, List.replicate 32 0x80)]) x3f (BitVec.ofInt 64 (-128), 0, 8),
    after (.vredmin { d := .reg 3, a := .reg 1, t := 3, m := 1 }) (onVec 8 [(1, 0x7F :: List.replicate 31 0x80)]) x3f (0x7F, 0, 8),
    after (.vfred { d := .reg 3, a := .reg 1, b := .reg 0, t := 5 }) (onVec 32 [(1, 0x4B800000 :: List.replicate 7 0x3F800000)]) x3f (0x4B800000, 16, 8),
    after (.vamax { d := .reg 3, a := .reg 1, b := .reg 0, t := 5 })
      (onVec 32 [(1, [0x40400000, 0xC1400000, 0x3F000000, 0, 0x3FC00000, 0xBE800000, 0x40C00000, 0x40000000])]) x3f (0x41400000, 0, 8),
    gives1 .vscaleq 7 5 0x44 0x41400000 0 0xFC44 0,
    after (.vquant { d := .reg 3, a := .reg 1, b := .reg 2, t := 7, m := 5 })
      (onVec 32 [(1, [0x40400000, 0xC1400000, 0x3F000000, 0, 0x3FC00000, 0xBE800000, 0x40C00000, 0x40000000])] [(2, 0xFC44)]) (v3f 8 9)
      ([0x6C, 0xFC, 0x58, 0, 0x64, 0xD0, 0x74, 0x68, 0], 0),
    after (.vdeq { d := .reg 3, a := .reg 1, b := .reg 2, t := 7, m := 5 }) (onVec 8 [(1, [0x6C, 0xFC, 0x58, 0, 0x64, 0xD0, 0x74, 0x68])] [(2, 0xFC44)]) (v3f 32 8)
      ([0x40400000, 0xC1400000, 0x3F000000, 0, 0x3FC00000, 0xBE800000, 0x40C00000, 0x40000000], 0),
    after (.vquant { d := .reg 3, a := .reg 1, b := .reg 2, t := 7, m := 5 }) (onVec 32 [] [(2, 0x3F)]) (fun t => ((t.slot 0 0).regs.xcause, (t.slot 0 0).regs.xval)) (9, 0x3F),
    vgives .vcvt 8 3 1 [0x80, 0xFF, 1] [] 0 [0x80] 0, vgives .vcvt 32 1 3 [0x0201FF80] [] 0 [0xFFFFFF80, 0xFFFFFFFF, 1, 2] 0,
    vgives .vcvt 8 7 5 [0, 0, 0x7A, 0x43] [] 0 [0x7F] 0x50 0x444, vgives .vcvt 8 7 5 [0, 0, 0x7A, 0x43] [] 0 [0x7E] 0x50 0x454].all id = true := by decide +kernel

/-- R51-R56, R59: the worked decodings, as FP32 bits. -/
theorem test_decodings : [(0x40, 0xFF44, 0x3F000000), (0x01, 0xFF44, 0x3A000000), (0xC4, 0xFF44, 0xBF400000), (0x7F, 0xFF44, 0x42F00000), (0x80, 0xFF44, 0x7FC00000),
    (0x3C, 0x0253, 0x40000000), (0x7E, 0x0253, 0x48400000), (0x7F, 0x0253, 0x7F800000), (0x80, 0x0065, 0x3F800000), (0xFE, 0x0065, 0x43700000)].all
      (fun e => (roundIeee (fmtOf 5) 0 (decodeElem e.1 e.2.1)).1 == e.2.2) = true := by decide +kernel

/-- R66, R68: the worked roundings into binary8p4, both variants: RNE 0, RTZ 1, RDN 2, RUP 3, RNA 4. -/
theorem test_roundings : [(0x40540000, 0, 0x4D, 0x4D, 16, 16), (0x40540000, 3, 0x4E, 0x4E, 16, 16), (0x40580000, 0, 0x4E, 0x4E, 16, 16), (0x40580000, 1, 0x4D, 0x4D, 16, 16),
    (0x437A0000, 0, 0x80, 0x7F, 20, 20), (0x437A0000, 1, 0x7F, 0x7E, 16, 20), (0x3A000000, 0, 0, 0, 24, 24)].all
      (fun e => let a := (natToBytes 4 e.1).map BitVec.toNat
        vgives .vcvt 8 7 5 a [] e.2.1 [e.2.2.1] e.2.2.2.2.1 0x44 && vgives .vcvt 8 7 5 a [] e.2.1 [e.2.2.2.1] e.2.2.2.2.2 0x54) = true := by decide +kernel

/-- R71, R72: the worked group of sixteen. -/
theorem test_group : [
    (exactGroupSum 0x3F800000 (List.replicate 16 (decodeElem 0x40 0xF444)) (List.replicate 16 (decodeElem 0x40 0xF344)) 0) == (0x3F800004, 0),
    (exactGroupSum 0x80000000 (List.replicate 16 (decodeElem 0 0x0044)) (List.replicate 16 (decodeElem 0x40 0x0044)) 2) == (0x80000000, 0),
    (exactGroupSum 0x3F800000 (decodeElem 0xC0 0x0044 :: List.replicate 15 (decodeElem 0 0x0044)) (List.replicate 16 (decodeElem 0x40 0x0044)) 0) == (0, 0),
    (exactGroupSum 0x3F800000 (decodeElem 0xC0 0x0044 :: List.replicate 15 (decodeElem 0 0x0044)) (List.replicate 16 (decodeElem 0x40 0x0044)) 2) == (0x80000000, 0),
    (exactGroupSum 0 (decodeElem 0x7F 0x0054 :: List.replicate 15 (decodeElem 0 0x0044)) (List.replicate 16 (decodeElem 0 0x0044)) 0) == (0x7FC00000, 1)].all id = true := by
  decide +kernel

/-! ### Memory, banks, messages, barriers, traps, and the step -/

/-- The worked case of R137, on a MAP bank of eight entries: where the keys lie after each operation. -/
def mapState : State := onCore { banks := #v[{}, { ctl := 0xC003 }, {}, {}, {}, {}, {}, {}, {}, {}, {}, {}, {}, {}, {}, {}] }
def mapPut (s : State) (k : Nat) : State := (s.mapInsert (0, 1) k (100 + k) false).2.2
def mapAt (s : State) : List (Option Nat) := [3, 11, 19, 4].map (s.mapFind (0, 1))
theorem test_map :
    (let s := mapPut (mapPut (mapPut (mapPut mapState 3) 11) 19) 4
     mapAt s = [some 3, some 4, some 5, some 6] ∧ (s.mapInsert (0, 1) 19 9 true).1 = 4 ∧ (s.mapInsert (0, 1) 19 9 true).2.1 = 119 ∧
       (s.mapInsert (0, 1) 19 9 true).2.2 = s ∧ mapAt (s.mapRemove (0, 1) 4) = [some 3, none, some 4, some 5] ∧
       (s.mapRemove (0, 1) 4).mapValue (0, 1) 5 = 104) ∧
    hash64 0x200001 = 0x200000 := by decide +kernel

/-- The worked case of R246: a hashed page of cluster 0x12. -/
theorem test_home :
    ({ page := 0x128A30, big := false, dom := 0, r := true, w := true, x := false, a := true, kind := .rc, hashed := true, hdev := 0, hcore := 0x12 } : PlbEntry).home
      0x128A302AC0 = (0, 0x94A) := by decide +kernel

/-- The example of R5. -/
theorem test_cluster : coreStack 0x9A7 = 2 ∧ coreY 0x9A7 = 13 ∧ coreX 0x9A7 = 7 ∧ clusterOf 0x9A7 = 0x12 := by decide +kernel

/-- R142, R143, R19: LD.H from the own window zero-extends; ST.H at offset -1 waits in the queue with its low bytes, low byte first. -/
def memState (v : BitVec 64) : State :=
  onCore { slots := #v[{ thr := thrOf [(1, 0xFC00000000000040), (2, v)], status := .ready }, {}, {}, {}], mem := [(0x40, 0xFE), (0x41, 0xFF), (0x42, 1)] }
theorem test_load : after (.ld { d := .reg 3, a := .reg 1, t := 2 }) (memState 0) x3f (0xFFFE, 0, 8) = true ∧
    after (.ld { d := .reg 3, a := .reg 1, t := 3, i18 := 1 }) (memState 0) x3f (0xFF, 0, 8) = true := by decide +kernel
theorem test_store : after (.st { b := .reg 2, a := .reg 1, t := 2, i18 := 0x3FFFF }) (memState 0x12345)
    (fun t => (t.slot 0 0).sq.map (fun r => (r.addr, r.data))) [(0xFC0000000000003F, [some 0x45, some 0x23])] = true := by decide +kernel

/-- R334: `trap 7` at 0x80 in U mode. R335: KRET goes back to XPC, in U mode. -/
def trapState : State := onSlot { thr := { thrOf [] with pc := 0x80 }, status := .ready, regs := { kvec := 0x4000 } }
theorem test_trap : after (.trap { i18 := 7 }) trapState (fun t => ((t.slot 0 0).km, (t.slot 0 0).thr.pc, (t.slot 0 0).regs.xpc, (t.slot 0 0).regs.xcause,
    (t.slot 0 0).regs.xval)) (true, 0x4000, 0x80, 16, 7) := by decide +kernel
theorem test_kret : after (.kret {}) (onSlot { km := true, status := .ready, regs := { xpc := 0x88, infiring := true } })
    (fun t => ((t.slot 0 0).km, (t.slot 0 0).thr.pc)) (false, 0x88) := by decide +kernel

/-- Log entry 10, R33, R77: the first step after reset runs the instruction placed at the program counter. -/
theorem test_reset_step : (match step (State.reset.withFetchWord 64 0x0000004007820404) with
    | .next t => decide (t.thread.pc = State.reset.thread.pc + 8) | _ => false) = true := by decide +kernel
theorem test_table_word : decodeTableWord 64 0x0000004007820404 = some (.add { d := .reg 1, a := .reg 2, b := .reg 30, t := 1 }) := by decide +kernel

/-- The example of R230: members 0 to 3 arrive in the orders 2, 0, 1, 3 and 1, 0, 2, 3. -/
def barTeam (arrived : List Nat) (prevLast : Option Nat) : Team :=
  { handle := 7, st := .resident, w := 4, h := 1, s := 1, ngroup := 1, calign := false, pin := false, orgx := 0, orgy := 0, orgs := 0
    place := some { planes := [0], x := 0, y := 0 }, domain := 1, qos := 0, steal := none, banks := [], image := 0
    gaz := [{ valid := true, rebal := true, slots := 1, members := [0, 1, 2, 3], arrived := arrived.map (fun m => (m, 0)), prevLast }]
    tmpls := [some { acode := 0, abase := 0, mbox := 0, worker := false, en := 0, soft := 0, vuse := 0, depths := [], htab := [] }, none, none, none] }
def clocks (t : State) : List Nat := (List.range 4).map (fun c => (t.core c).clock)
theorem test_rebalance :
    after (.barrierComplete 7 0) { teams := [barTeam [2, 0, 1, 3] none] } clocks [4000, 4000, 4000, 4000] = true ∧
    after (.barrierComplete 7 0) { teams := [barTeam [1, 0, 2, 3] (some 3)] } clocks [4000, 3900, 4000, 4100] = true := by decide +kernel

/-- R138: the lowest priority leaves a heap first, and of equal ones the first that came. -/
def heapPops : Nat → State → List Nat
  | 0, _ => []
  | n + 1, s => match s.heapPop 0 1 with | some (e, t) => e :: heapPops n t | none => []
theorem test_heap :
    (let s := onCore { banks := #v[{}, { ctl := 0x10004 }, {}, {}, {}, {}, {}, {}, {}, {}, {}, {}, {}, {}, {}, {}] }
     let t := [0x100000005, 0x200000003, 0x300000005, 0x400000001].foldl (fun s e => (s.heapInsert 0 1 e).getD s) s
     heapPops 5 t = [0x400000001, 0x200000003, 0x100000005, 0x300000005]) := by decide +kernel

/-- R275: AMADD.W on the own core's bank: D takes the old word and memory the sum, modulo 2^32. -/
theorem test_amadd : after (.amadd { d := .reg 3, a := .reg 1, b := .reg 2, t := 1 })
    (onCore { slots := #v[{ thr := thrOf [(1, 0xFC00000000000040), (2, 2)], status := .ready }, {}, {}, {}], mem := Mem.setWord [] 0x40 4 0xFFFFFFFF })
    (fun t => (t.thread.getX 3, Mem.word (t.core 0).mem 0x40 8)) (0xFFFFFFFF, 1) = true := by decide +kernel


/-! ### Witnesses: for every claim with premises, states and operands that meet them -/

theorem ans_ok {α : Type} [DecidableEq α] {e : Except Stop (α × State)} {a : α} {t : State}
    (h : (match e with | .ok x => decide (x.1 = a) && decide (x.2 = t) | .error _ => false) = true) : e = .ok (a, t) := by
  cases e with
  | error => simp at h
  | ok x => obtain ⟨b, u⟩ := x; simp at h; rw [h.1, h.2]

theorem err_of {α : Type} {e : Except Stop α} {k : Cause} {v : BitVec 64}
    (h : (match e with | .error (.trap a b) => decide (a = k) && decide (b = v) | _ => false) = true) : e = .error (.trap k v) := by
  split at h
  · simp at h; rw [h.1, h.2]
  · cases h

/-- An instruction answers a next state that has a property. -/
theorem next_of {i : Instr} {s : State} {f : State → Bool} (h : (match exec i s with | .next u => f u | _ => false) = true) :
    ∃ u, exec i s = .next u ∧ f u = true := by
  split at h
  · exact ⟨_, ‹_›, h⟩
  · cases h

theorem all_ok {α β : Type} [DecidableEq β] {l : List α} {e : α → Except Stop (β × State)} {b : α → β} {t : State}
    (h : l.all (fun x => match e x with | .ok y => decide (y.1 = b x) && decide (y.2 = t) | .error _ => false) = true) :
    ∀ x ∈ l, e x = .ok (b x, t) := fun x hx => ans_ok (List.all_eq_true.mp h x hx)

theorem exists_ok {e : Except Stop (Unit × State)} (h : e.toOption.isSome = true) : ∃ t, e = .ok ((), t) := by
  cases e with
  | error => simp [Except.toOption] at h
  | ok x => exact ⟨x.2, rfl⟩

theorem exists_some {α : Type} {e : Option α} (h : e.isSome = true) : ∃ t, e = some t := Option.isSome_iff_exists.mp h

theorem runs_of {s : State} {code : Nat} {o : Op} (h : (s.mayRun code && s.thread.guardBit o) = true) : s.runs code o := by
  simpa [State.runs] using h

theorem all_aget {α : Type} {P : α → Prop} {d : α} (l : List (Nat × α)) (hd : P d) (h : ∀ e ∈ l, P e.2) (a : Nat) : P (aget d l a) := by
  induction l with
  | nil => exact hd
  | cons e l ih =>
    obtain ⟨k, v⟩ := e
    unfold aget
    split
    · exact h (k, v) (by simp)
    · exact ih (fun e he => h e (by simp [he]))

theorem quiet_of {s : State} (h : (∀ e ∈ s.cores, e.2.ranges = [] ∧ e.2.gathers = [])) :
    ∀ x, (s.core x).ranges = [] ∧ (s.core x).gathers = [] :=
  all_aget (P := fun x : Core => x.ranges = [] ∧ x.gathers = []) s.cores ⟨rfl, rfl⟩ h


theorem exists2_ok {ε α β : Type} {e : Except ε (α × β)} (h : e.toOption.isSome = true) : ∃ r t, e = .ok (r, t) := by
  cases e with
  | error => simp [Except.toOption] at h
  | ok x => exact ⟨x.1, x.2, rfl⟩

theorem exists_pair {α β : Type} {e : Option (α × β)} (h : e.isSome = true) : ∃ r t, e = some (r, t) := by
  cases e with
  | none => simp at h
  | some x => exact ⟨x.1, x.2, rfl⟩

theorem queued_of {s : State} {c : Nat} (h : ∀ k : Fin 4, ((s.core c).slots[k]).queued = []) (j : Nat) : (s.slot c j).queued = [] := by
  unfold State.slot Core.slot vget
  rcases Nat.lt_or_ge j 4 with hj | hj
  · rw [Vector.getElem?_eq_getElem hj]; exact h ⟨j, hj⟩
  · rw [Vector.getElem?_eq_none hj]; rfl

theorem exists_read {α : Type} {e : Except Stop (α × State)} {f : α → State → Bool}
    (h : (match e with | .ok x => f x.1 x.2 | .error _ => false) = true) : ∃ a t, e = .ok (a, t) ∧ f a t = true := by
  cases e with
  | error => simp at h
  | ok x => exact ⟨x.1, x.2, rfl, h⟩


theorem exists_okP {ε α : Type} {e : Except ε α} {f : α → Bool} (h : (match e with | .ok x => f x | .error _ => false) = true) :
    ∃ a, e = .ok a ∧ f a = true := by
  cases e with
  | error => simp at h
  | ok x => exact ⟨x, rfl, h⟩

theorem exists_someP {α : Type} {e : Option α} {f : α → Bool} (h : e.any f = true) : ∃ a, e = some a ∧ f a = true := by
  cases e with
  | none => simp at h
  | some x => exact ⟨x, rfl, h⟩

theorem dec_ok {ε α : Type} [DecidableEq α] {e : Except ε α} {a : α} (h : (match e with | .ok x => decide (x = a) | .error _ => false) = true) : e = .ok a := by
  cases e with
  | error => simp at h
  | ok x => simp at h; rw [h]

theorem all_get {α : Type} {l : List α} {P : Nat → α → Prop} (h : ∀ x ∈ l.zipIdx, P x.2 x.1) : ∀ i m, l[i]? = some m → P i m :=
  fun i m e => h (m, i) (List.mem_zipIdx_iff_getElem?.mpr e)

/-- Five and seven, in a slot of reset. -/
def sXY : State := onThr (thrOf [(1, 5), (2, 7)])
def oXY : Op := { d := .reg 3, a := .reg 1, b := .reg 2 }

theorem witness_IntegerResults :
    (sXY.runs 0x01 oXY ∧ srcX (immValue oXY) oXY.a sXY = .ok (5, sXY) ∧ srcX (immValue oXY) oXY.b sXY = .ok (7, sXY) ∧
      (∃ t, dstX oXY.d (atWidth (fun _ x y => x + y) (intWidth oXY.t.toNat) 5 7) sXY = .ok ((), t)) ∧
      sXY.runs 0x1E oXY ∧ sXY.runs 0x06 oXY ∧ sXY.runs 0x18 oXY) ∧
    (srcX (immValue oXY) (.reg 0) sXY = .ok (0, sXY) ∧ (∃ t, dstX oXY.d 0x7FFFFFFFFFFFFFFF (sXY.modThread (·.orFlags flDZ)) = .ok ((), t))) := by
  and_intros <;> first | decide +kernel | exact ans_ok (by decide +kernel) | exact err_of (by decide +kernel) | exact next_of (by decide +kernel) | exact exists_ok (by decide +kernel) | exact exists_some (by decide +kernel) | exact all_ok (by decide +kernel) | exact quiet_of (by decide +kernel) | exact exists2_ok (by decide +kernel) | exact exists_pair (by decide +kernel) | exact queued_of (by decide +kernel)

theorem witness_ConditionResults :
    let o : Op := { d := .reg 3, a := .reg 1, b := .reg 2, c := .reg 7, m := 9 }
    (o.m.toNat ≤ 9 ∧ sXY.thread.guardBit o = true ∧ srcX (immValue o) o.a sXY = .ok (5, sXY) ∧ srcX (immValue o) o.b sXY = .ok (7, sXY) ∧
      sXY.mayRun 0x20 = true ∧ sXY.mayRun 0x21 = true ∧ sXY.mayRun 0x1F = true ∧ (∃ t, dstX o.d 0 sXY = .ok ((), t)) ∧
      (∃ t, dstP o.d 0 sXY = .ok ((), t)) ∧ (∃ t, dstX o.d 7 sXY = .ok ((), t))) ∧
    (srcP (immValue o) o.a sXY = .ok (0, sXY) ∧ srcP (immValue o) o.b sXY = .ok (0, sXY) ∧ sXY.mayRun 0x22 = true ∧ sXY.mayRun 0x23 = true ∧
      sXY.mayRun 0x24 = true ∧ sXY.mayRun 0x25 = true ∧ ∃ t, dstP o.d (~~~0) sXY = .ok ((), t)) := by
  and_intros <;> first | decide +kernel | exact ans_ok (by decide +kernel) | exact err_of (by decide +kernel) | exact next_of (by decide +kernel) | exact exists_ok (by decide +kernel) | exact exists_some (by decide +kernel) | exact all_ok (by decide +kernel) | exact quiet_of (by decide +kernel) | exact exists2_ok (by decide +kernel) | exact exists_pair (by decide +kernel) | exact queued_of (by decide +kernel)

theorem witness_ConstantResults :
    sXY.thread.guardBit oXY = true ∧ sXY.mayRun 0x26 = true ∧ sXY.mayRun 0x27 = true ∧ sXY.mayRun 0x28 = true ∧ sXY.mayRun 0x29 = true ∧
    sXY.mayRun 0x47 = true ∧ srcX 0 oXY.a sXY = .ok (5, sXY) ∧ srcX 0 oXY.b sXY = .ok (7, sXY) ∧ srcX 0 oXY.c sXY = .ok (0, sXY) ∧
    ∃ t, dstX oXY.d (5 + 7 * 2 ^ oXY.m.toNat) sXY = .ok ((), t) := by
  and_intros <;> first | decide +kernel | exact ans_ok (by decide +kernel) | exact err_of (by decide +kernel) | exact next_of (by decide +kernel) | exact exists_ok (by decide +kernel) | exact exists_some (by decide +kernel) | exact all_ok (by decide +kernel) | exact quiet_of (by decide +kernel) | exact exists2_ok (by decide +kernel) | exact exists_pair (by decide +kernel) | exact queued_of (by decide +kernel)

theorem witness_FloatResults :
    let o : Op := { oXY with t := 5, c := .reg 2 }
    sXY.thread.guardBit o = true ∧ srcX (immRaw o) o.a sXY = .ok (5, sXY) ∧ srcX (immRaw o) o.b sXY = .ok (7, sXY) ∧ srcX (immRaw o) o.c sXY = .ok (7, sXY) ∧
    sXY.mayRun 0x50 = true ∧ sXY.mayRun 0x53 = true ∧ sXY.mayRun 0x55 = true ∧
    ∃ t, dstX o.d (BitVec.ofNat 64 (fpAdd (fmtOf 5) 0 5 7).1) (sXY.modThread (·.orFlags (fpAdd (fmtOf 5) 0 5 7).2)) = .ok ((), t) := by
  and_intros <;> first | decide +kernel | exact ans_ok (by decide +kernel) | exact err_of (by decide +kernel) | exact next_of (by decide +kernel) | exact exists_ok (by decide +kernel) | exact exists_some (by decide +kernel) | exact all_ok (by decide +kernel) | exact quiet_of (by decide +kernel) | exact exists2_ok (by decide +kernel) | exact exists_pair (by decide +kernel) | exact queued_of (by decide +kernel)

/-- A slot at an aligned program counter, and one at a misaligned one. -/
theorem witness_Transfers :
    let s := onThr { thrOf [(1, 0x40), (3, 1)] with pc := 0x100 }
    let o : Op := { d := .reg 3, a := .reg 1, i18 := 4, ext := 0x200 }
    let b := onThr { thrOf [(1, 0x42), (3, 1)] with pc := 0x102 }
    (s.thread.guardBit o = true ∧ (0x100 + o.i18.signExtend 64 * 4).toNat % 4 = 0 ∧ (0x100 + (o.ext.setWidth 32).signExtend 64 * 4).toNat % 4 = 0 ∧
      o.ext.toNat % 4 = 0 ∧ rdReg o.a s = .ok (0x40, s) ∧ rdReg o.d s = .ok (1, s) ∧ (0x40 + o.i18.signExtend 64).toNat % 4 = 0 ∧
      (∃ t, wrX (regNum o.d) 0x108 s = .ok ((), t)) ∧ (∃ t, wrX (regNum o.d) (1 - 1) s = .ok ((), t)) ∧ s.isGuest = false ∧
      ∀ n ∈ [0x40, 0x41, 0x42, 0x43, 0x44, 0x45, 0x46], s.mayRun n = true) ∧
    (b.thread.guardBit o = true ∧ (b.thread.pc + o.i18.signExtend 64 * 4).toNat % 4 ≠ 0 ∧ rdReg o.a b = .ok (0x42, b) ∧ rdReg o.d b = .ok (1, b) ∧
      (b.thread.pc + (o.ext.setWidth 32).signExtend 64 * 4).toNat % 4 ≠ 0 ∧ (0x42 + o.i18.signExtend 64).toNat % 4 ≠ 0 ∧ (0x202 : BitVec 64).toNat % 4 ≠ 0 ∧
      b.isGuest = false ∧ ∀ n ∈ [0x40, 0x41, 0x42, 0x43, 0x44, 0x45, 0x46], b.mayRun n = true) := by
  and_intros <;> first | decide +kernel | exact ans_ok (by decide +kernel) | exact err_of (by decide +kernel) | exact next_of (by decide +kernel) | exact exists_ok (by decide +kernel) | exact exists_some (by decide +kernel) | exact all_ok (by decide +kernel) | exact quiet_of (by decide +kernel) | exact exists2_ok (by decide +kernel) | exact exists_pair (by decide +kernel) | exact queued_of (by decide +kernel)

theorem witness_GuardsAndModes :
    (opOf (.add { pn := true }) = some (0x01, { pn := true }) ∧ laneCodes.contains 0x01 = false ∧ sXY.mayRun 0x01 = true ∧
      sXY.thread.guardBit { pn := true } = false) ∧
    (opOf (.kret {}) = some (0xF3, {}) ∧ (rowOf 0xF3).isSome = true ∧ (rowOf 0xF3).any (fun r => !sXY.allowed r) = true) ∧
    ((rowOf 0xE8).any (fun r => !sXY.allowed r) = true ∧ (rowOf 0xB2).any (fun r => !({ cur := .svc 0 } : State).allowed r) = true) ∧
    (let s := onSlot { poisonX := [(poisonKeyP 7, 0x99)] };
      (rowOf 0x01).any (fun r => s.allowed r) = true ∧ s.skidFull = false ∧ s.maskError 7 = some 0x99) ∧
    (let s := onSlot { thr := thrOf [(2, 7)], poisonX := [(poisonKeyX 1, 0x77)] };
      s.runs 0x01 oXY ∧
      srcX (immValue oXY) oXY.a s = .error (.trap .machinecheck 0x77) ∧ srcX (immValue oXY) oXY.b s = .ok (7, s) ∧
      srcX (immValue { oXY with a := .reg 2, b := .reg 1 }) (.reg 1) s = .error (.trap .machinecheck 0x77)) := by
  and_intros <;> first | decide +kernel | exact ans_ok (by decide +kernel) | exact err_of (by decide +kernel) | exact next_of (by decide +kernel) | exact exists_ok (by decide +kernel) | exact exists_some (by decide +kernel) | exact all_ok (by decide +kernel) | exact quiet_of (by decide +kernel) | exact exists2_ok (by decide +kernel) | exact exists_pair (by decide +kernel) | exact queued_of (by decide +kernel)

/-- A slot that owes x1, a full queue, a queue of one entry and a mailbox with one message. -/
def sForms : State :=
  onCore { slots := #v[{ thr := thrOf [(2, 7)], owed := [{ rid := 1, addr := 0, dst := .x 1 8, kinds := [.rc], tgts := [], got := [none] }] }, {}, {}, {}]
           queues := #v[List.replicate 16 0, [9], List.replicate 15 0, [], [], [], [], []]
           banks := vput (Vector.replicate 16 {}) 0 { depths := [2], counts := [1], heads := [0] } }

theorem witness_OperandForms :
    (sForms.cur = .slot 0 0 ∧ ((sForms.slot 0 0).owed.any (fun o => o.dst.coversX 2) = false) ∧ (sForms.slot 0 0).poisonAt (poisonKeyX 2) = none) ∧
    ((sForms.slot 0 0).owed.any (fun o => o.dst.coversX 1) = true) ∧ ((sForms.slot 0 0).owed.any (fun o => o.dst.coversX 31) = false) ∧ sForms.isGuest = false ∧
    (sForms.core 0).qbad = [] ∧ (sForms.core 0).queue 1 = [9] ∧ ((sForms.core 0).queue 2).length + (sForms.core 0).reserved 2 < 16 ∧ (sForms.core 0).owesPush 2 = false ∧ 16 ≤ ((sForms.core 0).queue 0).length ∧
    sForms.poison = [] ∧ (sForms.bank 0 0).count 0 ≠ 0 := by
  and_intros <;> first | decide +kernel | exact ans_ok (by decide +kernel) | exact err_of (by decide +kernel) | exact next_of (by decide +kernel) | exact exists_ok (by decide +kernel) | exact exists_some (by decide +kernel) | exact all_ok (by decide +kernel) | exact quiet_of (by decide +kernel) | exact exists2_ok (by decide +kernel) | exact exists_pair (by decide +kernel) | exact queued_of (by decide +kernel)

/-- The v and p operands of a slot; registers, a queue's mark and a mailbox block in error; an SVC. -/
theorem witness_OperandForms_errors :
    (let s := sForms;
      (s.slot 0 0).poisonAt (poisonKeyP 7) = none ∧ (s.slot 0 0).regs.gated 7 = false ∧ (s.slot 0 0).owed.any (fun o => o.dst.coversV 7) = false ∧
      (s.slot 0 0).poisonAt (poisonKeyV 7) = none) ∧
    (let s := onSlot { regs := { vuseN := 0 } };
      (s.slot 0 0).regs.gated 31 = true) ∧
    (let s := onSlot { poisonX := [(poisonKeyX 31, 0x77), (poisonKeyP 7, 0x99), (poisonKeyV 1, 0x55)] };
      (s.slot 0 0).owed.any (fun o => o.dst.coversX 31) = false ∧ (s.slot 0 0).poisonAt (poisonKeyX 31) = some 0x77 ∧
      (s.slot 0 0).poisonAt (poisonKeyP 7) = some 0x99 ∧ (s.slot 0 0).regs.gated 1 = false ∧ (s.slot 0 0).owed.any (fun o => o.dst.coversV 1) = false ∧
      (s.slot 0 0).poisonAt (poisonKeyV 1) = some 0x55) ∧
    (let s : State := { onCore { qbad := [(7, 0, 0x33)], banks := vput (Vector.replicate 16 {}) 0 { depths := [2], counts := [1], heads := [0] } } with
        poison := [.bank 0 0] };
      s.cur = .slot 0 0 ∧ s.isGuest = false ∧ (s.core 0).qbad = [(7, 0, 0x33)] ∧ (s.slot 0 0).act.mbox.toNat = 0 ∧ (s.bank 0 0).count 0 ≠ 0 ∧
      Poison.bank 0 ((0 * 0x2000 + 32 * (s.bank 0 0).entryIx 0 0) / 64) ∈ s.poison) ∧
    (let s : State := { cur := .svc 3 };
      s.cur = .svc 3 ∧ s.poison = []) ∧
    ((decodeBlock .deep (natToBytes 16 0x00000000008103A0)).toOption = some (.rdrow { a := .reg 1, b := .reg 2 }, 8) ∧ opOf (.rdrow { a := .reg 1, b := .reg 2 }) = some (0xE8, { a := .reg 1, b := .reg 2 })) := by
  and_intros <;> first | decide +kernel | exact ans_ok (by decide +kernel) | exact err_of (by decide +kernel) | exact next_of (by decide +kernel) | exact exists_ok (by decide +kernel) | exact exists_some (by decide +kernel) | exact all_ok (by decide +kernel) | exact quiet_of (by decide +kernel) | exact exists2_ok (by decide +kernel) | exact exists_pair (by decide +kernel) | exact queued_of (by decide +kernel)

theorem witness_InstructionFrames :
    sXY.cur = .slot 0 0 ∧ sXY.runs 0x01 oXY ∧ srcX (immValue oXY) oXY.a sXY = .ok (5, sXY) ∧ srcX (immValue oXY) oXY.b sXY = .ok (7, sXY) ∧
    ∃ t, dstX oXY.d (atWidth (fun _ x y => x + y) (intWidth oXY.t.toNat) 5 7) sXY = .ok ((), t) := by
  and_intros <;> first | decide +kernel | exact ans_ok (by decide +kernel) | exact err_of (by decide +kernel) | exact next_of (by decide +kernel) | exact exists_ok (by decide +kernel) | exact exists_some (by decide +kernel) | exact all_ok (by decide +kernel) | exact quiet_of (by decide +kernel) | exact exists2_ok (by decide +kernel) | exact exists_pair (by decide +kernel) | exact queued_of (by decide +kernel)

/-- A slot below its keeper's vector, and one at it in K mode. -/
theorem witness_TrapEntry :
    let s := onSlot { thr := { pc := 0x40 }, regs := { kvec := 0x1000 } }
    let d := onSlot { thr := { pc := 0x1000 }, regs := { kvec := 0x1000 }, km := true }
    (s.cur = .slot 0 0 ∧ (s.slot 0 0).guest = none ∧ (s.slot 0 0).doubleFault s.thread.pc = false) ∧
    (d.cur = .slot 0 0 ∧ (d.slot 0 0).guest = none ∧ (d.slot 0 0).km = true ∧ d.thread.pc = (d.slot 0 0).regs.kvec) := by
  and_intros <;> first | decide +kernel | exact ans_ok (by decide +kernel) | exact err_of (by decide +kernel) | exact next_of (by decide +kernel) | exact exists_ok (by decide +kernel) | exact exists_some (by decide +kernel) | exact all_ok (by decide +kernel) | exact quiet_of (by decide +kernel) | exact exists2_ok (by decide +kernel) | exact exists_pair (by decide +kernel) | exact queued_of (by decide +kernel)

theorem witness_TrapInstructions :
    let s (prevk : Bool) (xpc : BitVec 64) := onSlot { km := true, regs := { prevk, xpc } }
    ((s true 0x40).cur = .slot 0 0 ∧ (s true 0x40).thread.guardBit {} = true ∧ (s true 0x40).mayRun 0x48 = true ∧ (s true 0x40).mayRun 0xF2 = true ∧ (s true 0x40).mayRun 0xF3 = true) ∧
    ((((s true 0x40).slot 0 0).regs.prevk || ((s true 0x40).slot 0 0).regs.infiring) = true ∧ ((s true 0x40).slot 0 0).regs.xpc.toNat % 4 = 0) ∧
    (((s false 0).slot 0 0).regs.prevk || ((s false 0).slot 0 0).regs.infiring) = false ∧ ((s true 0x42).slot 0 0).regs.xpc.toNat % 4 ≠ 0 := by
  and_intros <;> first | decide +kernel | exact ans_ok (by decide +kernel) | exact err_of (by decide +kernel) | exact next_of (by decide +kernel) | exact exists_ok (by decide +kernel) | exact exists_some (by decide +kernel) | exact all_ok (by decide +kernel) | exact quiet_of (by decide +kernel) | exact exists2_ok (by decide +kernel) | exact exists_pair (by decide +kernel) | exact queued_of (by decide +kernel)

/-- Two v registers, w lanes 0 of 5 and 7, and x1 = 5; p1 enables no lane. -/
def sVec : State := onVec 32 [(1, [5]), (2, [7])] [(1, 5)]
def oVec : Op := { d := .reg 3, a := .reg 1, b := .reg 2, t := 1 }

theorem witness_LaneResults :
    let o : Op := { oVec with c := .reg 2, t := 5 }
    (srcV 32 (immValue o) o.a sVec = .ok (5, sVec) ∧ srcV 32 (immValue o) o.b sVec = .ok (7, sVec) ∧ srcV 32 (immValue o) o.c sVec = .ok (7, sVec) ∧
      sVec.mayRun 0x80 = true ∧ sVec.mayRun 0x8C = true ∧ sVec.mayRun 0x90 = true ∧
      (∃ t, dstLanes o.d 32 (sVec.thread.laneMask o 8) (12 :: List.replicate 7 0) (sVec.modThread (·.orFlags 0)) = .ok ((), t))) ∧
    ((11#4).toNat ≤ 11 ∧ sVec.mayRun 0x99 = true ∧ sVec.mayRun 0x9A = true ∧ lanesOf .core 3 ≤ 32 ∧ lanesOf .deep 1 ≤ 32 ∧
      (∀ i, i < 32 → (0x1#32).getLsbD i = if lget false (sVec.thread.laneMask { oVec with m := 1 } 8) i
        then (specCond 1 32 (laneAt 32 5 i) (laneAt 32 7 i)) else (sVec.thread.getP 3).getLsbD i) ∧
      ∃ t, dstP oVec.d 0x1 (sVec.modThread (·.orFlags 0)) = .ok ((), t)) := by
  and_intros <;> first | decide +kernel | exact ans_ok (by decide +kernel) | exact err_of (by decide +kernel) | exact next_of (by decide +kernel) | exact exists_ok (by decide +kernel) | exact exists_some (by decide +kernel) | exact all_ok (by decide +kernel) | exact quiet_of (by decide +kernel) | exact exists2_ok (by decide +kernel) | exact exists_pair (by decide +kernel) | exact queued_of (by decide +kernel)

theorem witness_LaneMoves :
    let o : Op := { oVec with m := 1, i18 := 8 }
    (sVec.mayRun 0x9B = true ∧ sVec.mayRun 0xA0 = true ∧ sVec.mayRun 0xAC = true ∧ i18f o 7 0 ≤ lanesOf sVec.prof 1 ∧
      srcV 32 (immValue o) o.a sVec = .ok (5, sVec) ∧ srcV 32 (immValue o) o.b sVec = .ok (7, sVec) ∧
      ∃ t, dstLanes o.d 32 (sVec.thread.laneMask o 8) (7 :: List.replicate 7 0) sVec = .ok ((), t)) ∧
    (sVec.mayRun 0x9C = true ∧ sVec.mayRun 0x9D = true ∧ sVec.mayRun 0x9E = true ∧ srcX (immValue o) o.a sVec = .ok (5, sVec) ∧
      (∃ t, dstLanes o.d 32 (sVec.thread.laneMask o 8) (List.replicate 8 5) sVec = .ok ((), t)) ∧ i18f { o with i18 := 7 } 6 0 < lanesOf sVec.prof 1 ∧
      lget false (sVec.thread.laneMask o 8) 7 = true ∧ lget false (sVec.thread.laneMask { o with p := 1 } 8) 7 = false ∧
      (∃ t, dstX o.d 0 sVec = .ok ((), t)) ∧
      ∃ t, dstLanes o.d 32 ((List.range 8).map (fun i => i == 7 && true)) (List.replicate 8 5) sVec = .ok ((), t)) := by
  and_intros <;> first | decide +kernel | exact ans_ok (by decide +kernel) | exact err_of (by decide +kernel) | exact next_of (by decide +kernel) | exact exists_ok (by decide +kernel) | exact exists_some (by decide +kernel) | exact all_ok (by decide +kernel) | exact quiet_of (by decide +kernel) | exact exists2_ok (by decide +kernel) | exact exists_pair (by decide +kernel) | exact queued_of (by decide +kernel)

theorem witness_LaneReductions :
    let mask := sVec.thread.laneMask oVec 8
    (srcV 32 (immValue oVec) oVec.a sVec = .ok (5, sVec) ∧ sVec.mayRun 0xA1 = true ∧ (((List.range 8).filter (fun i => lget false mask i)).map (laneAt 32 5) ≠ []) ∧
      ((List.range 8).filter (fun i => lget false (sVec.thread.laneMask { oVec with p := 1 } 8) i) = []) ∧ (∃ t, dstX oVec.d 5 (sVec.modThread (·.orFlags 0)) = .ok ((), t))) ∧
    (srcX (immValue oVec) (.reg 1) sVec = .ok (5, sVec) ∧ sVec.mayRun 0xA4 = true ∧ sVec.mayRun 0xA6 = true ∧ sVec.mayRun 0xAB = true ∧
      isB8 (0x44 % 256) = true ∧ isB8 (5 % 256) = false ∧ ∃ t, dstLanes oVec.d 32 mask (List.replicate 8 5) sVec = .ok ((), t)) := by
  and_intros <;> first | decide +kernel | exact ans_ok (by decide +kernel) | exact err_of (by decide +kernel) | exact next_of (by decide +kernel) | exact exists_ok (by decide +kernel) | exact exists_some (by decide +kernel) | exact all_ok (by decide +kernel) | exact quiet_of (by decide +kernel) | exact exists2_ok (by decide +kernel) | exact exists_pair (by decide +kernel) | exact queued_of (by decide +kernel)

/-- With no lane enabled a register keeps its value; a queue takes an entry of zeros. -/
theorem witness_LaneReductions_noLane : noLane oVec.d sVec sVec ∧ ∃ t, noLane (.queue 2) sVec t :=
  ⟨rfl, exists_ok (by decide +kernel)⟩

theorem witness_LaneConversions :
    let o : Op := { oVec with m := 5, t := 7, i18 := 0x44 }
    (sVec.mayRun 0xA5 = true ∧ vcvtOk o = true ∧ vcvtOk { o with m := 3, t := 1, i18 := 3 <<< 8 } = true ∧ srcV (laneWidth o.t.toNat) (immValue o) o.a sVec = .ok (5, sVec) ∧
      ∃ t, dstLanes o.d 8 ((List.range 32).map (fun j => decide (j < 8))) (List.replicate 32 0) (sVec.modThread (·.orFlags 0)) = .ok ((), t)) ∧
    (sVec.mayRun 0xA7 = true ∧ sVec.mayRun 0xA8 = true ∧ sVec.mayRun 0xA9 = true ∧ (o.m = 5 ∨ o.m = 6) ∧ srcV 8 (immValue o) o.a sVec = .ok (5, sVec) ∧
      srcX (immValue o) (.reg 1) sVec = .ok (5, sVec) ∧ isB8 (5 % 256) = false ∧ isB8 (0x77 % 256) = true ∧ sVec.runs 0xA7 o ∧
      ∃ t, dstX o.d 0x7F44 (sVec.modThread (·.orFlags 0)) = .ok ((), t)) := by
  and_intros <;> first | decide +kernel | exact ans_ok (by decide +kernel) | exact err_of (by decide +kernel) | exact next_of (by decide +kernel) | exact exists_ok (by decide +kernel) | exact exists_some (by decide +kernel) | exact all_ok (by decide +kernel) | exact quiet_of (by decide +kernel) | exact exists2_ok (by decide +kernel) | exact exists_pair (by decide +kernel) | exact queued_of (by decide +kernel)

theorem witness_VectorDestination :
    let s := onCore { slots := #v[{ regs := { vuseN := 0 } }, {}, {}, {}], queues := #v[List.replicate 15 0, [], [], [], [], [], [], []] }
    (s.cur = .slot 0 0 ∧ (List.replicate 32 true).length = 256 / 8 ∧ (List.replicate 8 0).length = 256 / 32 ∧ (s.slot 0 0).regs.gated 8 = true ∧ (s.slot 0 0).regs.gated 31 = true) ∧
    ((s.slot 0 0).regs.gated 7 = false ∧ (s.slot 0 0).owed.any (fun o => o.dst.coversV 7) = false ∧ (s.slot 0 0).poisonAt (poisonKeyV 7) = none ∧
      s.isGuest = false ∧ ((s.core 0).queue 0).length + (s.core 0).reserved 0 < 16 ∧ (s.core 0).owesPush 0 = false) := by
  and_intros <;> first | decide +kernel | exact ans_ok (by decide +kernel) | exact err_of (by decide +kernel) | exact next_of (by decide +kernel) | exact exists_ok (by decide +kernel) | exact exists_some (by decide +kernel) | exact all_ok (by decide +kernel) | exact quiet_of (by decide +kernel) | exact exists2_ok (by decide +kernel) | exact exists_pair (by decide +kernel) | exact queued_of (by decide +kernel)

/-- A slot with x1 at an offset of its own local memory, x2 = 64, and the byte 0x2A at offset 0x40. -/
def sMem (off : BitVec 64 := 0x40) : State :=
  onCore { slots := #v[{ thr := thrOf [(1, 0xFC00000000000000 + off), (2, 64)], status := .ready }, {}, {}, {}], mem := [(0x40, 0x2A)] }

theorem witness_LocalLoads :
    let o : Op := { d := .reg 3, a := .reg 1, b := .reg 2, c := .reg 4, t := 1 }
    let s := sMem
    (s.calm 0 0 ∧ rdReg o.a s = .ok (0xFC00000000000040, s) ∧ s.runs 0x60 o ∧ s.runs 0x62 o ∧ s.runs 0x64 o ∧ s.runs 0x68 o ∧
      siteOf 0xFC00000000000040 4 s = .ok (.own 0 0x40 .array, s) ∧ siteOf 0xFC0000000001FFE0 32 s = .ok (.own 0 0x1FFE0 .array, s) ∧
      claimDst (dstOfX o.d 4) s = .ok ((), s) ∧ (∃ t, s.deliver 0 0 (dstOfX o.d 4) [0x2A, 0, 0, 0] = some t) ∧ claimDst (.v 3) s = .ok ((), s) ∧
      (∃ t, s.deliver 0 0 (.v 3) (List.replicate 32 0) = some t) ∧ claimDst (.lgx 3) s = .ok ((), s) ∧ ∃ t, s.deliver 0 0 (.lgx 3) [0, 0] = some t) ∧
    (s.mayRun 0x66 = true ∧ s.mayRun 0xAE = true ∧ oldV o.d s = .ok (0, s) ∧ rdReg o.b s = .ok (64, s) ∧ (s.thread.laneMask o 8).all id = true ∧
      (∀ it ∈ strideItems (s.thread.laneMask o 8) 0xFC00000000000040 64 4, siteOf (BitVec.ofNat 64 it.1) it.2 s = .ok (.own 0 (it.1 % 2 ^ 17) .array, s)) ∧
      claimDst (.lanes 3 32 (s.thread.laneMask o 8) 0) s = .ok ((), s) ∧ srcV 32 (immValue o) (.reg 1) s = .ok (0, s) ∧
      (0xFC00000000000040 : BitVec 64).toNat / 2 ^ 17 = 0xFC * 2 ^ 39 ∧ (∀ x ∈ gatherOffsets o 0xFC00000000000040 (s.thread.laneMask o 8) (List.replicate 8 0) 0x20000,
        x % 4 = 0 ∧ s.gatherBad 0 x = false) ∧ s.isGuest = false ∧
      s.bpersBefore ((gatherOffsets o 0xFC00000000000040 (s.thread.laneMask o 8) (List.replicate 8 0) 0x20000).map (fun x => (0xFC * 2 ^ 56 + x, 4))) = false) := by
  and_intros <;> first | decide +kernel | exact ans_ok (by decide +kernel) | exact err_of (by decide +kernel) | exact next_of (by decide +kernel) | exact exists_ok (by decide +kernel) | exact exists_some (by decide +kernel) | exact all_ok (by decide +kernel) | exact quiet_of (by decide +kernel) | exact exists2_ok (by decide +kernel) | exact exists_pair (by decide +kernel) | exact queued_of (by decide +kernel)

theorem gathers_of {s : State} (h : ∀ e ∈ s.cores, e.2.gathers = []) : ∀ x, (s.core x).gathers = [] :=
  all_aget (P := fun x : Core => x.gathers = []) s.cores rfl h

theorem witness_LocalStores :
    let o : Op := { a := .reg 1, b := .reg 2, c := .reg 2, t := 1 }
    let s := sMem 0x1FFE0
    (s.calm 0 0 ∧ s.runs 0x61 o ∧ s.runs 0x63 o ∧ s.runs 0x65 o ∧ s.runs 0x69 o ∧ srcX 0 o.b s = .ok (64, s) ∧ srcX 0 o.c s = .ok (64, s) ∧ srcV 8 0 o.b s = .ok (0, s) ∧
      rdReg o.a s = .ok (0xFC0000000001FFE0, s) ∧ siteOf 0xFC0000000001FFE0 32 s = .ok (.own 0 0x1FFE0 .array, s) ∧ siteOf 0xFC0000000001FFE0 8 s = .ok (.own 0 0x1FFE0 .array, s)) ∧
    (s.mayRun 0x67 = true ∧ s.mayRun 0xAF = true ∧ rdReg (.reg 2) s = .ok (64, s) ∧ srcV 32 0 o.c s = .ok (0, s) ∧ srcV 32 (immValue o) o.b s = .ok (0, s) ∧ s.isGuest = false ∧
      (∀ it ∈ strideItems (s.thread.laneMask o 8) (0xFC00000000000040 : BitVec 64) 64 4, siteOf (BitVec.ofNat 64 it.1) it.2 s = .ok (.own 0 (it.1 % 2 ^ 17) .array, s)) ∧
      (0xFC0000000001FFE0 : BitVec 64).toNat / 2 ^ 17 = 0xFC * 2 ^ 39 ∧
      (∀ x ∈ gatherOffsets o 0xFC0000000001FFE0 (s.thread.laneMask o 8) (List.replicate 8 0) 0x20000, x % 4 = 0 ∧ s.gatherBad 0 x = false) ∧
      (s.slot 0 0).pend = none) := by
  and_intros <;> first | decide +kernel | exact ans_ok (by decide +kernel) | exact err_of (by decide +kernel) | exact next_of (by decide +kernel) | exact exists_ok (by decide +kernel) | exact exists_some (by decide +kernel) | exact all_ok (by decide +kernel) | exact quiet_of (by decide +kernel) | exact exists2_ok (by decide +kernel) | exact exists_pair (by decide +kernel) | exact queued_of (by decide +kernel)

theorem witness_LocalStores_bpers (off : BitVec 64) : ∀ x, (sMem off).bpersBefore x = false := fun _ => rfl

/-- 32 lanes of one byte: more than the queue holds; and a store over the border of two ARRAY banks. -/
theorem witness_LocalStores_parts :
    let o : Op := { a := .reg 1, b := .reg 2, c := .reg 2, t := 3 }
    let s := sMem
    let t := sMem 0x1FF0
    (∀ it ∈ strideItems (s.thread.laneMask o 32) (0xFC00000000000040 : BitVec 64) 64 1, siteOf (BitVec.ofNat 64 it.1) it.2 s = .ok (.own 0 (it.1 % 2 ^ 17) .array, s)) ∧
    (strideItems (s.thread.laneMask o 32) (0xFC00000000000040 : BitVec 64) 64 1).length = 32 ∧
    siteOf 0xFC00000000001FF0 32 t = .ok (.own 0 0x1FF0 .array, t) ∧ (bankCut 0xFC00000000001FF0 (List.replicate 32 0)).length = 2 := by
  and_intros <;> first | decide +kernel | exact ans_ok (by decide +kernel) | exact err_of (by decide +kernel) | exact next_of (by decide +kernel) | exact exists_ok (by decide +kernel) | exact exists_some (by decide +kernel) | exact all_ok (by decide +kernel) | exact quiet_of (by decide +kernel) | exact exists2_ok (by decide +kernel) | exact exists_pair (by decide +kernel) | exact queued_of (by decide +kernel)

/-- An SVC with x1 at an offset of its buffer. -/
def sBuf (off : BitVec 64) : State := { cur := .svc 3, svcs := [(3, { thr := thrOf [(1, off), (2, 9)], mem := [(0x40, 0x2A)] })] }

theorem witness_BufferAccesses :
    let o : Op := { d := .reg 3, a := .reg 1, b := .reg 2 }
    let s := sBuf 0x3FFF8
    (s.cur = .svc 3 ∧ s.thread.guardBit o = true ∧ s.poison = [] ∧ s.mayRun 0x60 = true ∧ s.mayRun 0x61 = true ∧ rdReg o.a s = .ok (0x3FFF8, s) ∧ srcX 0 o.b s = .ok (9, s) ∧
      0 < typeBytes o ∧ (0x3FFF8 : BitVec 64).toNat + typeBytes o ≤ 0x40000 ∧ (s.svc 3).rowHeld 0x3FFF8 8 false = false ∧ (s.svc 3).rowHeld 0x3FFF8 8 true = false ∧
      ∃ t, dstX o.d (bytesBv 64 (Mem.readN (s.svc 3).mem 0x3FFF8 8)) s = .ok ((), t)) ∧
    (rdReg o.a (sBuf 0x3FFF9) = .ok (0x3FFF9, sBuf 0x3FFF9) ∧ 0x40000 < (0x3FFF9 : BitVec 64).toNat + typeBytes o) := by
  and_intros <;> first | decide +kernel | exact ans_ok (by decide +kernel) | exact err_of (by decide +kernel) | exact next_of (by decide +kernel) | exact exists_ok (by decide +kernel) | exact exists_some (by decide +kernel) | exact all_ok (by decide +kernel) | exact quiet_of (by decide +kernel) | exact exists2_ok (by decide +kernel) | exact exists_pair (by decide +kernel) | exact queued_of (by decide +kernel)

/-- A store of two bytes at the head of a queue, to a target; and a combining-buffer entry. -/
def rStore (core : Nat) : StoreReq :=
  { id := 1, pc := 0, addr := 0xFC0000000001FFFE, off := 0x1FFFE, data := [some 1, some 2], op := .plain 2, dom := 0
    chk := .ok { dev := 0, core, isLocal := true } .rc }
def sQueue (core : Nat) : State :=
  onSlot { sq := [rStore core], comb := [{ id := 2, ord := 2, pc := 0, tgt := { dev := 0, core := 5, isLocal := false }, line := 0x40, data := List.replicate 64 none }] }

theorem witness_StoresLeave :
    ((sQueue 0).slot 0 0).sq = rStore 0 :: [] ∧ (rStore 0).chk = .ok { dev := (sQueue 0).ownDev, core := 0, isLocal := true } .rc ∧ ((sQueue 0).slot 0 0).maySend (rStore 0) { dev := 0, core := 0, isLocal := true } .rc = true ∧
    (rStore 0).leg = none ∧ (rStore 0).op ≠ .legend ∧ 0 < (rStore 0).len ∧ (sQueue 0).localHeld 0 0x1FFFE 2 true = false ∧ (sQueue 0).storeUse 0 (rStore 0) = .array ∧
    (sQueue 0).plainArray 0 0x1FFFE 2 ∧ ((sQueue 5).slot 0 0).sq = rStore 5 :: [] ∧ ((sQueue 5).slot 0 0).maySend (rStore 5) { dev := 0, core := 5, isLocal := true } .rc = true ∧ 5 ≠ 0 ∧ Kind.rc ≠ .uo ∧
    (((sQueue 0).slot 0 0).comb[0]?).isSome = true ∧ ((sQueue 0).slot 0 0).halted = false ∧ ((sQueue 0).slot 0 0).uas < 4095 ∧
    (let r : StoreReq := { rStore 5 with counted := true };
      let s := onSlot { sq := [r] };
      (s.slot 0 0).sq = r :: [] ∧ (s.slot 0 0).halted = false ∧ (s.slot 0 0).maySend r { dev := 0, core := 5, isLocal := true } .uo = true ∧ r.counted = true) := by
  and_intros <;> first | decide +kernel | exact ans_ok (by decide +kernel) | exact err_of (by decide +kernel) | exact next_of (by decide +kernel) | exact exists_ok (by decide +kernel) | exact exists_some (by decide +kernel) | exact all_ok (by decide +kernel) | exact quiet_of (by decide +kernel) | exact exists2_ok (by decide +kernel) | exact exists_pair (by decide +kernel) | exact queued_of (by decide +kernel)

theorem witness_StoresLeave_gathers : ∀ x, ((sQueue 0).core x).gathers = [] := gathers_of (by decide +kernel)

/-- A store, its acknowledgement, a load and its reply on the network, first in line each. -/
def sNet (b : Body) (slots : Vector Slot 4 := #v[{}, {}, {}, {}]) : State :=
  { cores := [(0, { slots, mem := [(0x1FFFF, 7)] })], net := [{ src := (1, 2), unit := 0, dev := 0, core := 0, isLocal := true, body := b }] }
def pNet (b : Body) : Packet := { src := (1, 2), unit := 0, dev := 0, core := 0, isLocal := true, body := b }
def sOwed : Vector Slot 4 := #v[{ unacked := [{ id := 1, ord := 1, tgt := { dev := 0, core := 1, isLocal := true }, kind := .rc }]
                                  owed := [{ rid := 1, addr := 0, dst := .x 31 8, kinds := [.rc], tgts := [], got := [none] }] }, {}, {}, {}]

theorem witness_RemoteAccesses :
    ((sNet (.store (rStore 0))).packetAt 0 = some (pNet (.store (rStore 0))) ∧ (sNet (.store (rStore 0))).mayArrive 0 (pNet (.store (rStore 0))) = true ∧
      (sNet (.store (rStore 0))).localHeld 0 0x1FFFE 2 true = false ∧ (sNet (.store (rStore 0))).isLost 0 = false ∧ (sNet (.store (rStore 0))).storeUse 0 (rStore 0) = .array ∧ (sNet (.store (rStore 0))).plainArray 0 0x1FFFE 2) ∧
    (∀ sat, (sNet (.ack 1 sat) sOwed).packetAt 0 = some (pNet (.ack 1 sat)) ∧ ((sNet (.ack 1 sat) sOwed).slot 0 0).unacked.any (fun u => u.id == 1) = true) ∧
    (let s := sNet (.load 1 0 0x1FFF8 8 8 false 1 false 0);
      s.packetAt 0 = some (pNet (.load 1 0 0x1FFF8 8 8 false 1 false 0)) ∧ s.mayArrive 0 (pNet (.load 1 0 0x1FFF8 8 8 false 1 false 0)) = true ∧ s.isLost 0 = false ∧
      s.localHeld 0 0x1FFF8 8 false = false ∧ s.bankUse1 0 0x1FFF8 = .array) ∧
    (let s := sNet (.loadReply 1 0 (.ok [1, 2]) none false) sOwed;
      s.packetAt 0 = some (pNet (.loadReply 1 0 (.ok [1, 2]) none false)) ∧
      (s.slot 0 0).owed.find? (fun x => x.rid == 1) = some { rid := 1, addr := 0, dst := .x 31 8, kinds := [.rc], tgts := [], got := [none] } ∧ (s.slot 0 0).pend = none) := by
  and_intros <;> first | decide +kernel | exact ans_ok (by decide +kernel) | exact err_of (by decide +kernel) | exact next_of (by decide +kernel) | exact exists_ok (by decide +kernel) | exact exists_some (by decide +kernel) | exact all_ok (by decide +kernel) | exact quiet_of (by decide +kernel) | exact exists2_ok (by decide +kernel) | exact exists_pair (by decide +kernel) | exact queued_of (by decide +kernel)

/-- A combining buffer's store of two bytes of a line, to its target's ARRAY bank, in two parts. -/
def rMerged : StoreReq :=
  let m (off : Nat) (v : Byte) : Merged := { off, data := [some v], op := .plain 1 }
  { rStore 0 with addr := 0xFC00000000000040, off := 0x40, op := .merged, data := [some 1, some 2] ++ List.replicate 62 none, parts := [m 0x41 2, m 0x40 1] }

theorem witness_RemoteAccesses_merged :
    let s := sNet (.store rMerged)
    s.packetAt 0 = some (pNet (.store rMerged)) ∧ s.mayArrive 0 (pNet (.store rMerged)) = true ∧ s.isLost 0 = false ∧ rMerged.leg = none ∧
    rMerged.op = .merged ∧ 0 < rMerged.len ∧ s.localHeld 0 rMerged.off rMerged.len true = false ∧ rMerged.parts ≠ [] ∧ s.bankUse1 0 rMerged.off = .array ∧
    (∀ m ∈ rMerged.parts, (m.whole = none ∨ m.whole = some (m.off, m.data.length)) ∧ 0 < m.data.length ∧ m.off % 0x2000 + m.data.length ≤ 0x2000 ∧
      m.op ≠ .legend ∧ min m.data.length (64 - m.off % 64) = 1) ∧ s.plainArray 0 0x41 1 ∧ s.plainArray 0 0x40 1 := by
  and_intros <;> first | decide +kernel | exact ans_ok (by decide +kernel) | exact err_of (by decide +kernel) | exact next_of (by decide +kernel) | exact exists_ok (by decide +kernel) | exact exists_some (by decide +kernel) | exact all_ok (by decide +kernel) | exact quiet_of (by decide +kernel) | exact exists2_ok (by decide +kernel) | exact exists_pair (by decide +kernel) | exact queued_of (by decide +kernel)

theorem witness_LocalAtomics :
    let s := sMem 0x1FFF8
    let o : Op := { d := .reg 3, a := .reg 1, b := .reg 2, c := .reg 2 }
    (s.thread.guardBit o = true ∧ rdReg o.a s = .ok (0xFC0000000001FFF8, s) ∧ srcX (immValue o) o.b s = .ok (64, s) ∧ srcX (immValue o) o.c s = .ok (64, s) ∧ s.calm 0 0 ∧
      (0xFC0000000001FFF8 : BitVec 64).toNat % 8 = 0 ∧ s.locate 0 0 0xFC0000000001FFF8 8 = some (.loc s.ownDev 0 0x1FFF8 8) ∧ s.plainArray 0 0x1FFF8 8 ∧
      s.noAtomic 0 0x1FFF8 = false ∧ ∀ x ∈ atomicTable, s.mayRun x.2 = true) ∧
    (s.runs 0x7A { o with t := 6 } ∧ s.locate 0 0 0xFC0000000001FFF8 2 = some (.loc s.ownDev 0 0x1FFF8 2) ∧ s.plainArray 0 0x1FFF8 2) := by
  and_intros <;> first | decide +kernel | exact ans_ok (by decide +kernel) | exact err_of (by decide +kernel) | exact next_of (by decide +kernel) | exact exists_ok (by decide +kernel) | exact exists_some (by decide +kernel) | exact all_ok (by decide +kernel) | exact quiet_of (by decide +kernel) | exact exists2_ok (by decide +kernel) | exact exists_pair (by decide +kernel) | exact queued_of (by decide +kernel)

theorem witness_RemoteAtomics :
    (let b : Body := .atomic 1 0x79 0x1FFF8 8 7 9 0 false 0;
      let s := sNet b;
      s.packetAt 0 = some (pNet b) ∧ 0x79 ∈ atomicTable.map Prod.snd ∧ s.mayArrive 0 (pNet b) = true ∧ s.isLost 0 = false ∧ s.noAtomic 0 0x1FFF8 = false ∧
      s.localHeld 0 0x1FFF8 8 true = false ∧ s.plainArray 0 0x1FFF8 8 ∧ s.poison = [] ∧ (s.core 0).trav.en = false) ∧
    (let b : Body := .atomicReply 1 (.ok (5, 16));
      let s := sNet b #v[{ pend := some (.atomic 1 (.reg 31) 8 {}) }, {}, {}, {}];
      s.packetAt 0 = some (pNet b) ∧ (s.slot 0 0).pend = some (.atomic 1 (.reg 31) 8 {})) := by
  and_intros <;> first | decide +kernel | exact ans_ok (by decide +kernel) | exact err_of (by decide +kernel) | exact next_of (by decide +kernel) | exact exists_ok (by decide +kernel) | exact exists_some (by decide +kernel) | exact all_ok (by decide +kernel) | exact quiet_of (by decide +kernel) | exact exists2_ok (by decide +kernel) | exact exists_pair (by decide +kernel) | exact queued_of (by decide +kernel)

theorem witness_FencesAndHints :
    (let s := sXY;
      s.thread.guardBit { m := 15 } = true ∧ s.mayRun 0x6B = true ∧ s.mayRun 0x6C = true ∧ s.mayRun 0x6A = true ∧ (s.slot 0 0).fencePending true true true (inScope 0 0 3) = false ∧
      s.gathering 0 0 (fun _ _ _ => true) = false ∧ (s.slot 0 0).comb.any (fun e => inScope 0 0 3 e.tgt) = false ∧ (s.slot 0 0).sfPending = false ∧
      (s.core 0).plbFind (s.checkDom 0 0) 5 = none ∧ rdReg (.reg 1) s = .ok (5, s)) ∧
    ((sQueue 5).mayRun 0x6B = true ∧ ((sQueue 5).slot 0 0).fencePending false true false (inScope 0 0 2) = true) ∧
    ((sBuf 0).mayRun 0x6B = true ∧ ((sBuf 0).svc 3).rows = [] ∧ ((sBuf 0).svc 3).scan = none) ∧
    (let s : State := { cur := .svc 3, svcs := [(3, { scan := some { lines := [] } })] };
      s.mayRun 0x6B = true ∧ (s.svc 3).scan ≠ none) ∧
    (let e : PlbEntry := { page := 0, big := false, dom := 0, r := true, w := true, x := true, a := false, kind := .rc, hashed := false, hdev := 0, hcore := 0 };
      let s : State := { onCore { plb := [e], slots := #v[{ thr := thrOf [(1, 0xFFFF)] }, {}, {}, {}] } with
        l2 := [{ line := 0xFF00, pa := 0, slice := sliceOf 0 0xFFFF, data := 0, leg := #v[0, 0, 0, 0] }] };
      s.mayRun 0x6A = true ∧ rdReg (.reg 1) s = .ok (0xFFFF, s) ∧ (s.core 0).plbFind (s.checkDom 0 0) 0xFFFF = some e ∧ e.home 0xFFFF = (s.ownDev, 0) ∧
      s.guardHeld 0xFFFF true = false ∧ s.lineReady 0 0xFFFF = true ∧ e.r = true ∧ s.stacksJoined (coreStack 0) (coreStack 0) = true ∧
      s.hitServed 0 0xFFFF (s.slot 0 0).regs.qos.toNat = true) := by
  and_intros <;> first | decide +kernel | exact ans_ok (by decide +kernel) | exact err_of (by decide +kernel) | exact next_of (by decide +kernel) | exact exists_ok (by decide +kernel) | exact exists_some (by decide +kernel) | exact all_ok (by decide +kernel) | exact quiet_of (by decide +kernel) | exact exists2_ok (by decide +kernel) | exact exists_pair (by decide +kernel) | exact queued_of (by decide +kernel)

/-- Tables in HBM: domain 0's entry and one protection page of kind RC at address 0, and its translation to frame 0x20000. -/
def sTables : State :=
  { ptroot := 8
    hbm := [(0, 0x8000000000002000), (0x2000, 0x8000000000004000), (0x4000, 0x8000000000008000), (0x8000, 0x800000000000C000),
      (0xC000, 0xBE80000000000000), (0x10000, 0x8000000000012000), (0x12000, 0x8000000000014000), (0x14000, 0x8000000000018000),
      (0x18000, 0xA000000000020000)].foldl (fun m e => Mem.setWord m e.1 8 e.2) [] }
def ePage : PlbEntry := { page := 0, big := false, dom := 0, r := true, w := true, x := true, a := true, kind := .rc, hashed := false, hdev := 0, hcore := 0 }

theorem witness_FillsWalksAndRanges :
    (let s : State := { sTables with cores := [(0, { fills := [(0, 0)] })] };
      (s.core 0).fills[0]? = some (0, 0) ∧ ((s.walkTokens (coreStack 0) (s.fillReads 0 0)).any (fun s0 => s0.protWalk 0 0 == some ePage)) = true ∧ ∀ k, k < 4 → (s.slot 0 k).sq = []) ∧
    (let w : Walk := { line := 0xFF00, slice := 0, cls := 3 };
      let s : State := { sTables with walks := [w] };
      s.walks[0]? = some w ∧ w.moving = false ∧ w.pa = none ∧ s.walkTurn 0 w = true ∧
      ((s.walkTokens (w.slice / 128) (s.xlatReads w.slice w.line)).any (fun s0 => (s0.translate w.slice w.line).1 == .pa 0x2FF00 false)) = true) ∧
    (let l : L2Line := { line := 0, pa := 0, slice := 0, data := 0, leg := #v[0, 0, 0, 0] };
      let s : State := { l2 := [l] };
      s.l2[0]? = some l ∧ s.lineNeeded l.line l.slice = false ∧ s.canWriteBack l = true ∧ s.canWriteBack { l with dirty := 15 } = true) ∧
    (let r : Range := { id := 1, lo := 0, len := 64, write := true, holder := .gather 1 };
      let s (gathers : List Gather) : State := { cores := [(0, { ranges := [r], gathers })] };
      ((s []).core 0).ranges[0]? = some r ∧ (s []).rangeDone 0 r = true ∧ (s [{ id := 1, slot := 0, z := 4, lanes := [], dom := 0 }]).rangeDone 0 r = false) := by
  and_intros <;> first | decide +kernel | exact ans_ok (by decide +kernel) | exact err_of (by decide +kernel) | exact next_of (by decide +kernel) | exact exists_ok (by decide +kernel) | exact exists_some (by decide +kernel) | exact all_ok (by decide +kernel) | exact quiet_of (by decide +kernel) | exact exists2_ok (by decide +kernel) | exact exists_pair (by decide +kernel) | exact queued_of (by decide +kernel)

theorem witness_Migration :
    (let s := sNet (.context {});
      s.packetAt 0 = some (pNet (.context {})) ∧ (pNet (.context {})).slot < 4 ∧ (pNet (.context {})).dev = s.ownDev) ∧
    (let s := onSlot { guest := some (5, 3), status := .stalled .away };
      (5, 3) ≠ ((0, 0) : Nat × Nat) ∧ (s.slot 0 0).guest = some (5, 3) ∧ (s.slot 0 0).pend = none ∧ (s.slot 0 0).uas = 0 ∧ (s.slot 0 0).sq = [] ∧ (s.slot 0 0).comb = [] ∧
      (s.core 0).waypoints.length < 8 ∧ (s.slot 0 0).haltReq = false ∧ (s.slot 5 3).haltReq = false ∧ s.homeJoined 0 0 = true) ∧
    (let w : Waypoint := { slot := 0, guest := (5, 3), owed := [1] };
      let s : State := { cores := [(0, { waypoints := [w] })], net := [pNet (.ack 1 false)] };
      s.packetAt 0 = some (pNet (.ack 1 false)) ∧ (pNet (.ack 1 false)).replyId = some 1 ∧ (s.core 0).waypoints.findIdx? (fun w => w.slot == 0 && w.owed.contains 1) = some 0 ∧
      (s.core 0).waypoints[0]? = some w) := by
  and_intros <;> first | decide +kernel | exact ans_ok (by decide +kernel) | exact err_of (by decide +kernel) | exact next_of (by decide +kernel) | exact exists_ok (by decide +kernel) | exact exists_some (by decide +kernel) | exact all_ok (by decide +kernel) | exact quiet_of (by decide +kernel) | exact exists2_ok (by decide +kernel) | exact exists_pair (by decide +kernel) | exact queued_of (by decide +kernel)

theorem witness_MemoryStaysCanonical :
    (sNet (.ack 1 false) sOwed).memWf ∧ ∃ t, exec (.storeAck 0) (sNet (.ack 1 false) sOwed) = .next t :=
  ⟨⟨all_aget (P := fun x : Core => Memory.wf x.mem = true) _ rfl (by decide +kernel), all_aget (P := fun x : Svc => Memory.wf x.mem = true) _ rfl (by decide +kernel),
    by decide +kernel⟩, ⟨_, rfl⟩⟩

/-- A team of one core, core 0, with its actor in slot 0, bank 1 a QUEUE of 32-byte entries, and registers. -/
def tOne : Team := { handle := 7, st := .resident, w := 1, h := 1, s := 1, ngroup := 1, calign := false, pin := false, orgx := 0, orgy := 0, orgs := 0
                     place := some { planes := [0], x := 0, y := 0 }, domain := 0, qos := 0, steal := none, gaz := [{ valid := true, slots := 1, members := [0] }], banks := [], image := 0
                     tmpls := [some { acode := 0, abase := 0, mbox := 0, worker := false, en := 0, soft := 0, vuse := 0, depths := [], htab := [] }, none, none, none] }
def qBank (n : Nat) : Bank := { ctl := 0x8000001, depths := [256], heads := [255], counts := [n], hdrs := [[]] }
def sOne (xs : List (Nat × BitVec 64)) (bank : Bank := {}) : State :=
  { onCore { slots := #v[{ thr := thrOf xs, status := .ready, ident := some { team := 7, member := 0, slot := 0 } }, {}, {}, {}]
             banks := #v[{}, bank, {}, {}, {}, {}, {}, {}, {}, {}, {}, {}, {}, {}, {}, {}] } with teams := [tOne] }

theorem witness_BankInstructions :
    let s := sOne [(1, 0xFC00000000002000), (2, 1)] (qBank 256)
    let o : Op := { d := .reg 3, a := .reg 1, b := .reg 2, c := .reg 4 }
    (s.calm 0 0 ∧ (∀ x ∈ bankTable, s.mayRun x.2 = true) ∧ s.thread.guardBit o = true ∧ s.isGuest = false ∧ rdReg o.a s = .ok (0xFC00000000002000, s) ∧
      bankB o false s = .ok ((1, 0), s) ∧ bankB { o with m := 1 } true s = .ok ((0, 0), s) ∧ rdX 3 s = .ok (0, s) ∧ bankSite 0xFC00000000002000 s = .ok ((s.ownDev, 0, 0x2000), s) ∧
      claimDst (.x 3 8) s = .ok ((), s) ∧ claimDst (.v 3) s = .ok ((), s) ∧ claimX 4 s = .ok ((), s) ∧ (s.core 0).bankBusy 0 s.ownDev 1 = false ∧
      s.lanesAt 0 1 (fun _ _ => true) (fun _ => true) = false) ∧
    (let q : BankReq := { core := 0, bank := 1, off := 0, code := 0xB4, addr := 0xFC00000000002000, din := 0, bv := 1, wide := true, vdata := 0, detach := false, km := false, own := true }
     (∃ r t, s.bankOp q = .ok (r, t)) ∧ s.bankOp { q with code := 0xB7 } = .error (.bankop, 0xFC00000000002000)) := by
  and_intros <;> first | decide +kernel | exact ans_ok (by decide +kernel) | exact err_of (by decide +kernel) | exact next_of (by decide +kernel) | exact exists_ok (by decide +kernel) | exact exists_some (by decide +kernel) | exact all_ok (by decide +kernel) | exact quiet_of (by decide +kernel) | exact exists2_ok (by decide +kernel) | exact exists_pair (by decide +kernel) | exact queued_of (by decide +kernel)

theorem witness_BankContents_queue :
    (∀ n ∈ [0, 1, 255, 256], (sOne [] (qBank n)).soundQueue 0 1 0 ∧ ((sOne [] (qBank n)).queuePut 0 1 0 5).isSome = decide (n < 256) ∧
      ((sOne [] (qBank n)).queueTake 0 1 0).isSome = decide (0 < n)) ∧
    (let x := (sOne [] (qBank 0)).bank 0 1
     x.pers = 1 ∧ x.isMember = false ∧ (sOne [] (qBank 0)).isMailbox 0 1 = false ∧ subOf x 0 = 0 ∧ x.subq = 0 ∧ x.counts = [x.count 0] ∧ x.esz = 32) := by
  refine ⟨fun n hn => ?_, by decide +kernel⟩
  simp only [List.mem_cons, List.not_mem_nil, or_false] at hn
  rcases hn with rfl | rfl | rfl | rfl <;> (and_intros <;> first | decide +kernel | exact ans_ok (by decide +kernel) | exact err_of (by decide +kernel) | exact next_of (by decide +kernel) | exact exists_ok (by decide +kernel) | exact exists_some (by decide +kernel) | exact all_ok (by decide +kernel) | exact quiet_of (by decide +kernel) | exact exists2_ok (by decide +kernel) | exact exists_pair (by decide +kernel) | exact queued_of (by decide +kernel))

theorem witness_BankContents :
    (let s := sOne [] { ctl := 2 }
     (s.bank 0 1).span = none ∧ Memory.wf (s.core 0).mem = true ∧ ∃ t, s.stackPut 0 1 5 = some t) ∧
    (let s := sOne [] { ctl := 0x24003 }
     (s.bank 0 1).cap ≤ 512 ∧ (s.mapInsert (0, 1) 5 7 false).1 = 0 ∧ ((s.mapInsert (0, 1) 5 7 false).2.2.mapInsert (0, 1) 5 8 false).1 = 4 ∧ 5 < 2 ^ 64) := by
  and_intros <;> first | decide +kernel | exact ans_ok (by decide +kernel) | exact err_of (by decide +kernel) | exact next_of (by decide +kernel) | exact exists_ok (by decide +kernel) | exact exists_some (by decide +kernel) | exact all_ok (by decide +kernel) | exact quiet_of (by decide +kernel) | exact exists2_ok (by decide +kernel) | exact exists_pair (by decide +kernel) | exact queued_of (by decide +kernel)

/-- A HEAP of no entry and one of two, whose second has the key of the first; and HIST banks without and with an edge bin, at a saturated bin. -/
theorem witness_BankContents_heap :
    (let s (n : Nat) := (sOne [] { ctl := 0x24004, hcount := n, hseq := BitVec.ofNat 16 n }).modCore 0 (fun x => { x with mem := Mem.setWord (Mem.setWord [] 0x2000 8 5) 0x2010 8 5 })
     (∀ n ∈ [0, 2], 1 < 16 ∧ ((s n).bank 0 1).cap ≤ 512 ∧ ((s n).bank 0 1).hcount ≤ ((s n).bank 0 1).cap ∧ Memory.wf ((s n).core 0).mem = true ∧
       (∀ i, i < ((s n).bank 0 1).hcount → 0 < i → heapKey ((s n).heapItem 0 1 ((i - 1) / 2)) ≤ heapKey ((s n).heapItem 0 1 i)) ∧
       ((s n).heapInsert 0 1 5).isSome = true ∧ ((s n).heapPop 0 1).isSome = decide (n ≠ 0))) ∧
    (∀ ctl ∈ [0x5, 0x4005, 0x3FF8005], let s := (sOne [] { ctl := BitVec.ofNat 64 ctl }).modCore 0 (fun x => { x with mem := Mem.setWord [] 0x2000 4 0xFFFFFFFF })
     let x := s.bank 0 1
     x.pers = 5 ∧ x.isMember = false ∧ x.span = none ∧ s.isMailbox 0 1 = false ∧ (x.ctl.getLsbD 14 = true → (x.ctl.extractLsb' 15 11).toNat ≠ 2047) ∧
       Memory.wf (s.core 0).mem = true) := by
  refine ⟨by decide +kernel, fun c hc => ?_⟩
  simp only [List.mem_cons, List.not_mem_nil, or_false] at hc
  rcases hc with rfl | rfl | rfl <;> (and_intros <;> first | decide +kernel | exact ans_ok (by decide +kernel) | exact err_of (by decide +kernel) | exact next_of (by decide +kernel) | exact exists_ok (by decide +kernel) | exact exists_some (by decide +kernel) | exact all_ok (by decide +kernel) | exact quiet_of (by decide +kernel) | exact exists2_ok (by decide +kernel) | exact exists_pair (by decide +kernel) | exact queued_of (by decide +kernel))

/-- The list of a span: banks 1 to 15 of the own core, then bank 0 of member 1; and its master, bank 1. -/
def spanWords : List Nat := (List.range 15).map (fun i => 0xFC00000000002000 + 0x2000 * i) ++ [0xFD00001000000000]
def spanPlaces : List (Nat × Nat) := (List.range 15).map (fun i => (0, i + 1)) ++ [(1, 0)]
def sSpan (n : BitVec 64) (a : BitVec 64 := 0xFC00000000002000) : State :=
  let s := (sOne [(1, a), (2, 0xFC00000000000040), (3, n)]).modCore 0 (fun x =>
    { x with mem := spanWords.zipIdx.foldl (fun m e => Mem.setWord m (0x40 + 8 * e.2) 8 e.1) [] })
  { s with teams := [{ tOne with w := 2 }] }
def oSpan : Op := { d := .reg 3, a := .reg 1, b := .reg 2, c := .reg 4 }

/-- What BSPAN's statement asks of its operands and of the list's place. -/
theorem witness_SpansCompose_operands : ∀ n ∈ [2, 16], ∀ e ∈ [(0xFC00000000002000, 0), (0xFD00001000002000, 1)],
    let s := sSpan (BitVec.ofNat 64 n) (BitVec.ofNat 64 e.1)
    s.calm 0 0 ∧ s.runs 0xB1 oSpan ∧ rdReg oSpan.a s = .ok (BitVec.ofNat 64 e.1, s) ∧ rdReg oSpan.b s = .ok (0xFC00000000000040, s) ∧
    rdX 3 s = .ok (BitVec.ofNat 64 n, s) ∧ s.locate 0 0 e.1 1 = some (.loc s.ownDev e.2 0x2000 1) ∧ (s.homeOf 0 0).1 = 0 ∧
    (∀ x, x < 8 * n → s.noList 0 ((0x40 + x) / 0x2000) = false) := by
  intro n hn e he
  simp only [List.mem_cons, List.not_mem_nil, or_false] at hn he
  rcases hn with rfl | rfl <;> rcases he with rfl | rfl <;> (and_intros <;> first | decide +kernel | exact ans_ok (by decide +kernel) | exact err_of (by decide +kernel) | exact next_of (by decide +kernel) | exact exists_ok (by decide +kernel) | exact exists_some (by decide +kernel) | exact all_ok (by decide +kernel) | exact quiet_of (by decide +kernel) | exact exists2_ok (by decide +kernel) | exact exists_pair (by decide +kernel) | exact queued_of (by decide +kernel))

/-- What it asks of the list where the master is a bank of the own core. -/
theorem witness_SpansCompose : ∀ n ∈ [2, 16],
    let s := sSpan (BitVec.ofNat 64 n)
    let ms := spanPlaces.take n
    ms.length = n ∧ ms[0]? = some (0, 1) ∧ ms.Nodup ∧ (s.bank 0 1).pers ≠ 4 ∧ (s.bank 0 1).pers ≠ 1 ∧
    ∀ i m, ms[i]? = some m →
      let w := Mem.word (s.core 0).mem (0x40 + 8 * i) 8
      w / 2 ^ 56 ∈ [0xFC, 0xFD, 0xFE] ∧ s.locate 0 0 w 1 = some (.loc s.ownDev m.1 (m.2 * 0x2000 + 0) 1) ∧
      (s.bank m.1 m.2).spanned = false ∧ s.isMailbox m.1 m.2 = false ∧ clusterOf m.1 = clusterOf 0 ∧
      ((s.teamOf 0 0).bind (fun t => t.memberAt m.1)).isSome = true ∧ (s.core m.1).bankBusy m.1 s.ownDev m.2 = false := by
  intro n hn
  simp only [List.mem_cons, List.not_mem_nil, or_false] at hn
  rcases hn with rfl | rfl <;> exact ⟨by decide, by decide, by decide, by decide +kernel, by decide +kernel, all_get (by decide +kernel)⟩

/-- What composing asks of a list, of 2 and of 16 banks. -/
theorem witness_SpansCompose_members : ∀ n ∈ [2, 16],
    let s := sSpan 2
    let ms := spanPlaces.take n
    ms[0]? = some (0, 1) ∧ ms.Nodup ∧ 2 ≤ ms.length ∧ ms.length ≤ 16 ∧ (∀ m ∈ ms, m.2 < 16 ∧ (s.bank m.1 m.2).spanned = false) ∧
    ∃ tm, s.teamOnCore 0 = some tm ∧ ∀ m ∈ ms, (tm.memberAt m.1).isSome = true := by
  intro n hn
  simp only [List.mem_cons, List.not_mem_nil, or_false] at hn
  rcases hn with rfl | rfl <;> exact ⟨by decide, by decide, by decide, by decide, by decide +kernel, _, rfl, by decide +kernel⟩

/-- A packet to slot 0 of core 0, first in line on the network. -/
def sPkt (s : State) (p : Packet) : State := { s with net := [p] }
def pkt (b : Body) : Packet := { src := (0, 1), unit := 0, dev := 0, core := 0, isLocal := true, body := b }

theorem witness_RemoteBankOperations :
    (let b : Body := .bank 5 0xB4 0xFC00000000002000 0 1 true 0 false false false 0x2000
     let s := sPkt (sOne [] (qBank 256)) (pkt b)
     s.packetAt 0 = some (pkt b) ∧ s.mayArrive 0 (pkt b) = true ∧ (pkt b).dev = s.ownDev ∧ s.isLost 0 = false ∧ s.bankHeld 0 1 = false ∧ (s.core 0).bankBusy 0 s.ownDev 1 = false ∧
       s.lanesAt 0 1 (fun j x => j < 0 || x.src.1 != (pkt b).src.1) (fun _ => true) = false ∧
       ∃ r t, s.bankOp { core := 0, bank := 1, off := 0, code := 0xB4, addr := 0xFC00000000002000, din := 0, bv := 1, wide := true, vdata := 0, detach := false, km := false, own := false } = .ok (r, t)) ∧
    (let names : List SpanName := [.bank 0xFC00000000002000 0 0 1, .bank 0xFC00000000004000 0 0 2]
     let b : Body := .bspan 5 0xFC00000000002000 names true false 0x2000
     let p := { pkt b with src := (0, 0) }
     let s := sPkt (sSpan 2) p
     s.packetAt 0 = some p ∧ s.mayArrive 0 p = true ∧
       s.spanCheck (s.teamOf 0 0) 0 1 names 0xFC00000000002000 true false = .ok [(0, 1), (0, 2)] ∧ s.spanHeld [(0, 1), (0, 2)] = false) ∧
    (let b : Body := .bankReply 5 (.ok (6, 0, 1, false, []))
     let s := sPkt (onSlot { pend := some (.bank 5 31 0 false 8 {}), status := .stalled .bank }) (pkt b)
     s.packetAt 0 = some (pkt b) ∧ (s.slot 0 0).pend = some (.bank 5 31 0 false 8 {}) ∧ 31 < 32 ∧ 31 ≠ 0) := by
  and_intros <;> first | decide +kernel | exact ans_ok (by decide +kernel) | exact err_of (by decide +kernel) | exact next_of (by decide +kernel) | exact exists_ok (by decide +kernel) | exact exists_some (by decide +kernel) | exact all_ok (by decide +kernel) | exact quiet_of (by decide +kernel) | exact exists2_ok (by decide +kernel) | exact exists_pair (by decide +kernel) | exact queued_of (by decide +kernel)

theorem witness_MessagesLeave :
    (let s := sOne [(1, 0x4000000), (2, 9)]
     let o : Op := { a := .reg 1, b := .reg 2 }
     s.cur = .slot 0 0 ∧ s.runs 0xC0 o ∧ rdReg o.a s = .ok (0x4000000, s) ∧ sendPayload o s = .ok (9, s) ∧ s.homeOf 0 0 = (0, 0) ∧
       s.addressOk (((s.teamOf 0 0).map Team.size).getD 0) 0x4000000 = true ∧ s.addressOk (((s.teamOf 0 0).map Team.size).getD 0) 0x4000040 = false ∧
       (s.slot 0 0).firing = none ∧ (s.slot 0 0).ni.length < 16) ∧
    (let s0 := sOne [(1, 0x4000000), (2, 9)]
     let s := s0.modSlot 0 0 (fun x => { x with firing := some (.handler 15), sent := 15 })
     htabLimit (vget 0 (s.slot 0 0).act.htab 15) = 15 ∧
     (let u := s.modSlot 0 0 (fun x => { x with sent := 1, act := { x.act with htab := vput x.act.htab 15 0x00010100 } })
      htabLimit (vget 0 (u.slot 0 0).act.htab 15) = 1 ∧ (1 : Nat) ≤ (u.slot 0 0).sent)) ∧
    (∀ st ∈ [NiState.release, .backoff 0],
      let e : NiEntry := { id := 1, addr := 0x4000000, dc := (0, 0, 0, 0), team := some 7, msg := { source := 0, dest := 0x4000000, payload := 9 }, st }
      let s := (sOne []).modSlot 0 0 (fun x => { x with ni := [e] })
      (s.niOf 0)[0]? = some e ∧ s.resolveActor e.team e.addr.toNat = some (0, 0, 0, 0) ∧ (e.st = .release → s.mayLaunch 0 e = true) ∧
        (s.niOf 0).find? (fun x => x.sameKey e && !x.isReturning) = some e ∧ (s.slot 0 0).dying = false ∧ e.behindReturn = false) := by
  and_intros <;> first | decide +kernel | exact ans_ok (by decide +kernel) | exact err_of (by decide +kernel) | exact next_of (by decide +kernel) | exact exists_ok (by decide +kernel) | exact exists_some (by decide +kernel) | exact all_ok (by decide +kernel) | exact quiet_of (by decide +kernel) | exact exists2_ok (by decide +kernel) | exact exists_pair (by decide +kernel) | exact queued_of (by decide +kernel)

/-- The mailbox bank 0 of slot 0: channel 0 holds n of at most 16 messages, channel 15 none. -/
def mBank (n : Nat) : Bank := { ctl := 0xF8000001, depths := List.replicate 16 16, heads := List.replicate 16 0, counts := n :: List.replicate 15 0, hdrs := List.replicate 16 [] }
def sMail (n : Nat) (refused : List (Nat × Nat × Nat × Nat)) (net : List Packet) : State :=
  { onCore { slots := #v[{ ident := some { team := 7, member := 0, slot := 0 }, refused, status := .waiting }, {}, {}, {}]
             banks := #v[mBank n, {}, {}, {}, {}, {}, {}, {}, {}, {}, {}, {}, {}, {}, {}, {}] } with teams := [tOne], net }

theorem witness_MailboxDecision :
    let m : Msg := { source := 0, dest := 0, payload := 9 }
    let p := pkt (.msg m 3)
    (∀ n ∈ [0, 16], ∀ r ∈ [[], [(0, 0, 1, 0)], (List.range 8).map (fun i => ((0, i, 2, 0) : Nat × Nat × Nat × Nat))],
      let s := sMail n r [p]
      s.packetAt 0 = some p ∧ p.body = .msg m 3 ∧ s.msgBehind 0 p = false ∧ s.isLost p.dev = false ∧ p.dev = s.ownDev ∧ (s.slot 0 0).away = none ∧
        (s.slot 0 0).ident = some { team := 7, member := 0, slot := 0 } ∧ (s.slot 0 0).guest = none ∧ s.team 7 = some tOne ∧ tOne.st ≠ .ended ∧ s.maySend m.dom tOne.domain = true ∧
        (s.bank 0 0).esz = 32) ∧
    (let s := { sMail 0 [] [p] with teams := [{ tOne with domain := 5 }] };
      s.team 7 = some { tOne with domain := 5 } ∧ s.maySend 9 5 = false) ∧ (sMail 0 [] [p]).soundQueue 0 0 0 := by
  and_intros <;> first | decide +kernel | exact ans_ok (by decide +kernel) | exact err_of (by decide +kernel) | exact next_of (by decide +kernel) | exact exists_ok (by decide +kernel) | exact exists_some (by decide +kernel) | exact all_ok (by decide +kernel) | exact quiet_of (by decide +kernel) | exact exists2_ok (by decide +kernel) | exact exists_pair (by decide +kernel) | exact queued_of (by decide +kernel)

theorem witness_AnswersAndReturns :
    (∀ reason ∈ [0, 1],
      let e : NiEntry := { id := 1, addr := 0x4000000, dc := (0, 0, 0, 0), team := some 7, msg := { source := 0, dest := 0x4000000, payload := 9 }, st := .flying, tries := 14 }
      let p := pkt (.answer 1 reason)
      let s := sPkt ((sOne []).modSlot 0 0 (fun x => { x with ni := [e] })) p
      s.packetAt 0 = some p ∧ p.unit = 0 ∧ s.answerBehind 0 p = false ∧ (s.niOf 0).find? (fun x => x.id == 1) = some e ∧ e.card = none ∧ e.nr = false ∧ e.behindReturn = false ∧
        ((s.niOf 0).takeWhile (fun x => x.id != 1)).any (fun x => x.sameKey e && !x.isReturning) = false) ∧
    (let e : NiEntry := { id := 1, addr := 0x4000000, dc := (0, 0, 0, 0), team := some 7, msg := { source := 0, dest := 0x4000000, payload := 9 }, st := .returning 1 }
     let s := (sMail 0 [] []).modSlot 0 0 (fun x => { x with ni := [e] })
     (s.niOf 0)[0]? = some e ∧ ((s.niOf 0).take 0).any (·.isReturning) = false ∧ (s.slot 0 0).guest = none ∧ (s.slot 0 0).ident.map (·.team) = e.team ∧
       (s.bank 0 0).count 15 + (s.core 0).reservedChan 0 15 < (s.bank 0 0).depth 15 ∧ s.soundQueue 0 0 15 ∧ (s.bank 0 0).esz = 32) := by
  and_intros <;> first | decide +kernel | exact ans_ok (by decide +kernel) | exact err_of (by decide +kernel) | exact next_of (by decide +kernel) | exact exists_ok (by decide +kernel) | exact exists_some (by decide +kernel) | exact all_ok (by decide +kernel) | exact quiet_of (by decide +kernel) | exact exists2_ok (by decide +kernel) | exact exists_pair (by decide +kernel) | exact queued_of (by decide +kernel)

theorem witness_ChannelsAndHandlers :
    let s := (sMail 2 [(0, 0, 1, 0)] []).modSlot 0 0 (fun x => { x with thr := thrOf [(1, 0x8000), (2, 3)], status := .ready })
    let o : Op := { d := .reg 3, a := .reg 1, b := .reg 2 }
    (s.cur = .slot 0 0 ∧ s.isGuest = false ∧ s.thread.guardBit o = true ∧ (∀ n ∈ [0xC1, 0xC2, 0xC3, 0xC4, 0xC5, 0xC6], s.mayRun n = true) ∧
      rdReg o.a s = .ok (0x8000, s) ∧ rdReg o.b s = .ok (3, s) ∧ (∃ t, dstX o.d 2 s = .ok ((), t)) ∧ (∃ t, dstX o.d 2 (s.modBank 0 0 (·.dropHead 0 2)) = .ok ((), t)) ∧
      i18f { o with i18 := 0x3F } 5 4 = 3 ∧ i18f { o with i18 := 0x3F } 3 0 = 15 ∧ (s.slot 0 0).firing = none) ∧
    (let u := s.modSlot 0 0 (fun x => { x with firing := some (.handler 0) })
     u.cur = .slot 0 0 ∧ u.isGuest = false ∧ u.thread.guardBit o = true ∧ u.mayRun 0xC6 = true ∧ (u.slot 0 0).firing.isSome = true) := by
  and_intros <;> first | decide +kernel | exact ans_ok (by decide +kernel) | exact err_of (by decide +kernel) | exact next_of (by decide +kernel) | exact exists_ok (by decide +kernel) | exact exists_some (by decide +kernel) | exact all_ok (by decide +kernel) | exact quiet_of (by decide +kernel) | exact exists2_ok (by decide +kernel) | exact exists_pair (by decide +kernel) | exact queued_of (by decide +kernel)

theorem witness_FiringStarts :
    let s := (sMail 2 [] []).modSlot 0 0 (fun x => { x with act := { x.act with en := 0x8001, soft := 0x8000 } })
    (s.slot 0 0).status = .waiting ∧ (s.slot 0 0).haltReq = false ∧ (s.slot 0 0).halted = false ∧ (s.slot 0 0).stealAt = none ∧ (∃ ch, s.selectHandler 0 0 = some ch) ∧
    ((s.slot 0 0).act.acode + BitVec.ofNat 64 ((vget 0 (s.slot 0 0).act.htab 0).toNat / 2 ^ 32)).toNat % 4 = 0 := by
  and_intros <;> first | decide +kernel | exact ans_ok (by decide +kernel) | exact err_of (by decide +kernel) | exact next_of (by decide +kernel) | exact exists_ok (by decide +kernel) | exact exists_some (by decide +kernel) | exact all_ok (by decide +kernel) | exact quiet_of (by decide +kernel) | exact exists2_ok (by decide +kernel) | exact exists_pair (by decide +kernel) | exact queued_of (by decide +kernel)

theorem witness_Selection :
    (∃ ch, ((sMail 2 [] []).modSlot 0 0 (fun x => { x with act := { x.act with en := 1 } })).selectHandler 0 0 = some ch) ∧
    (let x : Core := { slots := #v[{ status := .ready, readyFor := 60 }, { status := .ready, readyFor := 1 }, {}, {}] }
     x.forced = some 0 ∧ ((onCore x).core 0).forced = some 0 ∧ ((onCore x).core 0).issued = none) ∧
    (let x : Core := { slots := #v[{ status := .ready, readyFor := 59 }, {}, {}, {}] }
     x.forced = none ∧ x.choose = some 0) := by
  and_intros <;> first | decide +kernel | exact ans_ok (by decide +kernel) | exact err_of (by decide +kernel) | exact next_of (by decide +kernel) | exact exists_ok (by decide +kernel) | exact exists_some (by decide +kernel) | exact all_ok (by decide +kernel) | exact quiet_of (by decide +kernel) | exact exists2_ok (by decide +kernel) | exact exists_pair (by decide +kernel) | exact queued_of (by decide +kernel)

theorem witness_SlotEvents :
    (let s := onSlot { status := .stalled (.queue 1), waited := 51, regs := { qwaitLimit := 50 } }
     (∃ sp, (s.slot 0 0).blockedOn = some sp) ∧ (s.slot 0 0).qstallDue = true ∧ (s.slot 0 0).guest = none ∧ (s.slot 0 0).doubleFault (s.slot 0 0).thr.pc = false) ∧
    (let s := onSlot { status := .stalled (.vwake 3), regs := { vuseN := 0, vlost := 2 } }
     (s.slot 0 0).status = .stalled (.vwake 3) ∧ (s.slot 0 0).regs.vuseN.toNat < 3) ∧
    (let s := onSlot { status := .ready, sfrq := [{ addr := 0x40, pc := 0, kind := 0, reason := 1, size := 8 }] }
     (∃ r, (s.slot 0 0).sfrq[(s.slot 0 0).sfReported]? = some r) ∧ (s.slot 0 0).status = .ready ∧ (s.slot 0 0).draining = false ∧ (s.slot 0 0).killed = false ∧ (s.slot 0 0).halted = false ∧ (s.slot 0 0).awayAt = none ∧ (s.slot 0 0).guest = none ∧
       (s.slot 0 0).doubleFault (s.slot 0 0).thr.pc = false) ∧
    (let s : State := onCore { slots := #v[{}, {}, {}, { status := .ready }], samp := { period := 10, slots := 8, count := 10 } }
     let x := (s.core 0).samp
     x.period ≠ 0 ∧ x.period.toNat ≤ x.count ∧ x.slots = (1 : BitVec 4) <<< 3 ∧ x.trace = false ∧ x.ring.length < 256 ∧ (s.slot 0 3).status = .ready) := by
  and_intros <;> first | decide +kernel | exact ans_ok (by decide +kernel) | exact err_of (by decide +kernel) | exact next_of (by decide +kernel) | exact exists_ok (by decide +kernel) | exact exists_some (by decide +kernel) | exact all_ok (by decide +kernel) | exact quiet_of (by decide +kernel) | exact exists2_ok (by decide +kernel) | exact exists_pair (by decide +kernel) | exact queued_of (by decide +kernel)

/-- A slot at a 32-byte task record at offset 0x1FFE0 of its core, and n entries in the deque. -/
def aTask : Machine.Task := { entry := 0x40, args := (1, 2, 3), join := 4, forker := 5, slot := (0, 1), upTo := 0, recAddr := 0, pc := 0 }
def sTask (n : Nat) : State :=
  (sOne [(1, 0xFC0000000001FFE0), (2, 9)]).modCore 0 (fun x => { x with mem := [(0x1FFE0, 0x40), (0x1FFE8, 1)], deque := List.replicate n aTask })
def sWorker (deque : List Machine.Task) : State :=
  let s := (sOne []).modCore 0 (fun x => { x with deque })
  (s.modSlot 0 0 (fun x => { x with status := .waiting, act := { x.act with worker := true } })).modCore 1 (fun x => { x with deque := [aTask] })

theorem witness_TasksPushAndTake :
    (let o : Op := { a := .reg 1, b := .reg 2, c := .reg 4 }
     ∀ n ∈ [63, 64], (sTask n).calm 0 0 ∧ (sTask n).isGuest = false ∧ (sTask n).runs 0xC7 o ∧ rdReg o.a (sTask n) = .ok (0xFC0000000001FFE0, sTask n) ∧
       rdReg o.b (sTask n) = .ok (9, sTask n) ∧ claimX 4 (sTask n) = .ok ((), sTask n) ∧ (sTask n).plainBanks 0 0x1FFE0 32 = true ∧
       (sTask n).ownOffset 0 0 0xFC0000000001FFE0 32 = some 0x1FFE0 ∧ ((sTask n).core 0).deque.length = n ∧ bytesToNat ((sTask n).localRead 0 0x1FFE0 8) < 2 ^ 32) ∧
    (∀ q ∈ [[], [aTask]], let s := sWorker q
      (s.slot 0 0).status = .waiting ∧ (s.slot 0 0).haltReq = false ∧ (s.slot 0 0).act.worker = true ∧ s.pendingHandlers 0 0 = [] ∧ (s.slot 0 0).stealAt = none ∧
        (s.slot 0 0).roundLeft = none ∧ s.taskReady aTask = true ∧ ((s.slot 0 0).act.acode + aTask.entry).toNat % 4 = 0) ∧
    (let s := { sWorker [] with teams := [{ tOne with w := 2, steal := some 0, gaz := [{ valid := true, slots := 1, members := [0, 1] }] }] }
     roundFrom (s.victims 0 0) (s.slot 0 0).lastVictim = 1 :: [] ∧ s.stacksJoined (coreStack 0) (coreStack 1) = true ∧ (s.slot 0 0).taskWait = none ∧ (s.core 0).deque = [] ∧ (s.core 1).deque = aTask :: []) ∧
    (let x := { aTask with join := 5 }
     let s := (sWorker [aTask, x]).modSlot 0 0 (fun y => { y with taskWait := some aTask })
     (s.slot 0 0).taskWait = some aTask ∧ aTask ∈ (s.core 0).deque ∧ s.taskReady aTask = true ∧ ((s.slot 0 0).act.acode + aTask.entry).toNat % 4 = 0) ∧
    (let s := onSlot { roundLeft := some [] }
     (s.slot 0 0).roundLeft = some [] ∧ (s.slot 0 0).stealWait = 0) := by
  refine ⟨fun n hn => ?_, fun q hq => ?_, ?_⟩
  · simp only [List.mem_cons, List.not_mem_nil, or_false] at hn
    rcases hn with rfl | rfl <;> (and_intros <;> first | decide +kernel | exact ans_ok (by decide +kernel) | exact err_of (by decide +kernel) | exact next_of (by decide +kernel) | exact exists_ok (by decide +kernel) | exact exists_some (by decide +kernel) | exact all_ok (by decide +kernel) | exact quiet_of (by decide +kernel) | exact exists2_ok (by decide +kernel) | exact exists_pair (by decide +kernel) | exact queued_of (by decide +kernel))
  · simp only [List.mem_cons, List.not_mem_nil, or_false] at hq
    rcases hq with rfl | rfl <;> (and_intros <;> first | decide +kernel | exact ans_ok (by decide +kernel) | exact err_of (by decide +kernel) | exact next_of (by decide +kernel) | exact exists_ok (by decide +kernel) | exact exists_some (by decide +kernel) | exact all_ok (by decide +kernel) | exact quiet_of (by decide +kernel) | exact exists2_ok (by decide +kernel) | exact exists_pair (by decide +kernel) | exact queued_of (by decide +kernel))
  · (and_intros <;> first | decide +kernel | exact ans_ok (by decide +kernel) | exact err_of (by decide +kernel) | exact next_of (by decide +kernel) | exact exists_ok (by decide +kernel) | exact exists_some (by decide +kernel) | exact all_ok (by decide +kernel) | exact quiet_of (by decide +kernel) | exact exists2_ok (by decide +kernel) | exact exists_pair (by decide +kernel) | exact queued_of (by decide +kernel))

theorem witness_TaskEnds :
    (let s := sOne []
     let o : Op := { a := .reg 0 }
     s.cur = .slot 0 0 ∧ s.isGuest = false ∧ s.runs 0xC8 o ∧ rdReg o.a s = .ok (0, s)) ∧
    (let s := (sOne [(1, 0xFC0000000001FFF8)]).modCore 0 (fun x => { x with mem := [(0x1FFF8, 2)] })
     let o : Op := { a := .reg 1 }
     s.calm 0 0 ∧ s.isGuest = false ∧ s.runs 0xC8 o ∧ rdReg o.a s = .ok (0xFC0000000001FFF8, s) ∧ (0xFC0000000001FFF8 : BitVec 64).toNat % 8 = 0 ∧
       s.locate 0 0 0xFC0000000001FFF8 8 = some (.loc s.ownDev 0 0x1FFF8 8) ∧ s.plainArray 0 0x1FFF8 8 ∧ s.noAtomic 0 0x1FFF8 = false ∧ bytesToNat (s.localRead 0 0x1FFF8 8) ≠ 1) ∧
    (let p := pkt (.tendReply 5 (.ok 2))
     let s := sPkt (onSlot { pend := some (.tend 5 0x40), status := .stalled .release }) p
     s.packetAt 0 = some p ∧ (s.slot 0 0).pend = some (.tend 5 0x40) ∧ (s.slot 0 0).guest = none) := by
  and_intros <;> first | decide +kernel | exact ans_ok (by decide +kernel) | exact err_of (by decide +kernel) | exact next_of (by decide +kernel) | exact exists_ok (by decide +kernel) | exact exists_some (by decide +kernel) | exact all_ok (by decide +kernel) | exact quiet_of (by decide +kernel) | exact exists2_ok (by decide +kernel) | exact exists_pair (by decide +kernel) | exact queued_of (by decide +kernel)

/-- A slot whose group slot 0 names entry 0, with that entry's arrivals and a pending arrival. -/
def sBar (arrived : List (Nat × Nat)) (barpend : BitVec 35) (phase : BitVec 32) : State :=
  let s := (sOne [(1, 0xFFFFFFFF)]).modSlot 0 0 (fun x => { x with regs := { x.regs with gslot := 0x100000000, barpend } })
  { s with teams := [{ tOne with gaz := [{ valid := true, slots := 1, members := [0], arrived, phase }] }] }

theorem witness_Barriers :
    (let s := sBar [] 0 0xFFFFFFFF
     let o : Op := { d := .reg 31, a := .reg 1 }
     s.cur = .slot 0 0 ∧ s.thread.guardBit o = true ∧ (s.teamOf 0 0).isSome = true ∧ (s.slot 0 0).ident = some { team := 7, member := 0, slot := 0 } ∧
       (s.slot 0 0).regs.groupEntry 0 = some 0 ∧ (∀ n ∈ [0xC9, 0xCA, 0xCB, 0xCC], s.mayRun n = true) ∧ (s.slot 0 0).owed = [] ∧ (s.slot 0 0).sq = [] ∧ (s.slot 0 0).comb = [] ∧
       (s.slot 0 0).unacked = [] ∧ rdReg o.a s = .ok (0xFFFFFFFF, s) ∧ instanceDone 0xFFFFFFFF ((0xFFFFFFFF : BitVec 64).setWidth 32) = false ∧
       instanceDone 0 ((0xFFFFFFFF : BitVec 64).setWidth 32) = true ∧ (∃ t, dstX o.d 1 s = .ok ((), t))) ∧
    (let up := sBar [] 0 0xFFFFFFFF
     up.hubJoined { tOne with gaz := [{ valid := true, slots := 1, members := [0] }] } 0 0 = true ∧
     (let tm : Team := { tOne with place := some { planes := [1], x := 0, y := 0 }, gaz := [{ valid := true, slots := 1, members := [0] }] }
      let s : State := { up with teams := [tm], port := { up.port with linksDown := [0] } }
      s.teamOf 0 0 = some tm ∧ (s.slot 0 0).regs.groupEntry 0 = some 0 ∧ 0 < tm.ngroup ∧ (tm.entry 0).arrived.contains (0, 0) = false ∧ s.hubJoined tm 0 0 = false ∧
        s.mayRun 0xCA = true)) ∧
    (let s := sBar [(0, 0)] 0x400000005 6
     (s.slot 0 0).regs.barpend.getLsbD 34 = true ∧ bitsOf (s.slot 0 0).regs.barpend.toNat 33 32 = 0 ∧ instanceDone 6 ((s.slot 0 0).regs.barpend.setWidth 32) = true) ∧
    (({ tOne with gaz := [{ valid := true, slots := 1, members := [0], arrived := [(0, 0)] }] } : Team).allArrived 0 = true) := by
  and_intros <;> first | decide +kernel | exact ans_ok (by decide +kernel) | exact err_of (by decide +kernel) | exact next_of (by decide +kernel) | exact exists_ok (by decide +kernel) | exact exists_some (by decide +kernel) | exact all_ok (by decide +kernel) | exact quiet_of (by decide +kernel) | exact exists2_ok (by decide +kernel) | exact exists_pair (by decide +kernel) | exact queued_of (by decide +kernel)

/-- The matrix unit of core 0, owned and enabled for domain 0, over legends of 128 blocks; rows at offset 0. -/
def sMx (leg : Legend) (mu : MatrixUnit := {}) (stride : BitVec 64 := 0) : State :=
  onCore { slots := #v[{ thr := thrOf [(1, 0xFC00000000000000), (2, stride), (4, 0xFC00000000008000)], status := .ready }, {}, {}, {}]
           leg := (List.range 128).map (fun i => (i, leg)), mem := [(0x8000, 1)], mu := { mu with en := true } }

theorem witness_MatrixIssue : ∀ leg ∈ [0x0044, 0x0081],
    let s := sMx leg
    let row := if leg = 0x0081 then 128 else 64
    let o : Op := { d := .reg 2, a := .reg 1, b := .reg 2 }
    s.matrixReady 0 0 ∧ s.thread.guardBit o = true ∧ (∀ n ∈ [0xD0, 0xD1, 0xD2, 0xD3, 0xD4, 0xD5, 0xD6, 0xD7, 0xD8, 0xD9, 0xDA, 0xDB], s.mayRun n = true) ∧
    rdReg o.a s = .ok (0xFC00000000000000, s) ∧ rdReg o.b s = .ok (0, s) ∧ s.tileMode 0 0 0xFC00000000000000 = decide (leg = 0x0081) ∧
    s.rowOff 0 0 (0xFC00000000000000, row) = some 0 ∧
    (∀ r ∈ rowsFrom 0xFC00000000000000 (BitVec.ofNat 64 row) 64 row, (s.rowOff 0 0 r).isSome = true ∧
      ∀ i, i < (r.2 + 63) / 64 → legMode (LegMap.read (s.core 0).leg (((s.rowOff 0 0 r).getD 0 + 64 * i) / 64)) = some (decide (leg = 0x0081))) ∧
    modeBad false (s.core 0).mu.modes.2 2 = false ∧ (∃ t, dstX (.reg 2) 0 s = .ok ((), t)) := by
  intro leg hl
  simp only [List.mem_cons, List.not_mem_nil, or_false] at hl
  rcases hl with rfl | rfl <;> (and_intros <;> first | decide +kernel | exact ans_ok (by decide +kernel) | exact err_of (by decide +kernel) | exact next_of (by decide +kernel) | exact exists_ok (by decide +kernel) | exact exists_some (by decide +kernel) | exact all_ok (by decide +kernel) | exact quiet_of (by decide +kernel) | exact exists2_ok (by decide +kernel) | exact exists_pair (by decide +kernel) | exact queued_of (by decide +kernel))

theorem witness_MatrixIssue_more :
    (let s := sMx 0x0044 { ab16 := true }
     modeBad (s.core 0).mu.modes.1 (s.core 0).mu.modes.2 0 = true) ∧
    (let s := sMx 0x0044
     let o : Op := { d := .reg 0, a := .reg 1, b := .reg 4 }
     rdReg o.b s = .ok (0xFC00000000008000, s) ∧ s.rowOff 0 0 (0xFC00000000008000, 2) = some 0x8000 ∧ Mem.word (s.core 0).mem 0x8000 2 = 1 ∧
       (∀ r ∈ rowsFrom 0xFC00000000000000 16 16 16, (s.rowOff 0 0 r).isSome = true) ∧ s.rowOff 0 0 (0xFC00000000000000, 16) = some 0) ∧
    (let s := sMx 0x0044
     (∀ x ∈ s.seqSteps 0 0 0xFC00000000000000 1024 0 3, x.2.2.1 = false ∧ (∀ r ∈ x.2.2.2, (s.rowOff 0 0 r).isSome = true)) ∧ s.rowOff 0 0 (0xFC00000000000000, 1) = some 0) ∧
    (let s := sMx 0x0044
     s.locate 0 0 0xFC00000000000000 4096 = some (.loc 0 0 0 4096) ∧ (∀ r ∈ rowsFrom 0xFC00000000000000 256 16 256, (s.rowOff 0 0 r).isSome = true) ∧
       s.rowOff 0 0 (0xFC00000000000000, 256) = some 0 ∧ (s.core 0).mu.queue = [] ∧ (s.core 0).drains = [] ∧ bitsOf (0 : BitVec 64).toNat 15 12 = 0) := by
  and_intros <;> first | decide +kernel | exact ans_ok (by decide +kernel) | exact err_of (by decide +kernel) | exact next_of (by decide +kernel) | exact exists_ok (by decide +kernel) | exact exists_some (by decide +kernel) | exact all_ok (by decide +kernel) | exact quiet_of (by decide +kernel) | exact exists2_ok (by decide +kernel) | exact exists_pair (by decide +kernel) | exact queued_of (by decide +kernel)

theorem witness_MatrixEvents :
    (∀ k ∈ [MKind.lda 0 64 false, .ldb 3 true 0 64 false, .zero 3, .mul 3 0, .muls 3 0, .st 3 (0x20000 - 4096) 256, .ldbs 3 true 15 0x1F000, .chain 0x44 true,
        .drain 3 7 0x44 true 0xFC0000000001FC00 { dev := 0, core := 0, isLocal := true } 0x4000000],
      let op : MOp := { kind := k, slot := 0, rm := 0 }
      ((sMx 0x0044 { queue := [op] }).core 0).mu.queue = op :: []) ∧
    (let u : MatrixUnit := {}
     (vget {} u.tiles (pairOf 3)).b16 = (vget {} u.tiles 3).b16 ∧ 0x20000 - 4096 + 15 * 256 + 256 ≤ 0x20000 ∧ Memory.wf ((sMx 0x0044).core 0).mem = true) ∧
    (let s := sMx 0x0044 { mseq := 0x80001800000A0000 }
     mseqActive (s.core 0).mu.mseq = true ∧ (s.core 0).mu.queue = [] ∧ mseqNext (s.core 0).mu.mseq = 0 ∧ mseqLast (s.core 0).mu.mseq = 3) ∧
    (let s := sMx 0x0044 { mseq := 0x8000FFC0000A0000, seqRange := some 6, seqFl := 16 }
     mseqActive (s.core 0).mu.mseq = true ∧ (s.core 0).mu.queue = [] ∧ mseqLast (s.core 0).mu.mseq ≤ mseqNext (s.core 0).mu.mseq) ∧
    (let s := (sMx 0x0044 { mseq := 0x80001800000A0000 }).modSlot 0 0 (fun x => { x with haltReq := true })
     (s.slot 0 0).haltReq = true ∧ mseqActive (s.core 0).mu.mseq = true) ∧
    (let s := sMx 0x0044 { mseq := 0x0000182008000000, due := true }
     (s.core 0).mu.due = true ∧ mseqHeld (s.core 0).mu.mseq = true ∧ mseqActive (s.core 0).mu.mseq = false ∧ (s.slot 0 0).status = .ready ∧ (s.slot 0 0).haltReq = false ∧
       (s.slot 0 0).halted = false ∧ mseqNext (s.core 0).mu.mseq ≤ mseqLast (s.core 0).mu.mseq ∧ (s.restartSeq 0 (s.core 0).mu.mseq).toOption.isSome = true) ∧
    (let s := sMx 0x0044 { mseq := 0x0000006000000000, due := true }
     mseqHeld (s.core 0).mu.mseq = true ∧ mseqLast (s.core 0).mu.mseq < mseqNext (s.core 0).mu.mseq) ∧
    (let p := pkt (.drainBlock 9 0x1FFC0 64 (List.replicate 64 7) none 0x1FFC0)
     let s := sPkt (sOne []) p
     s.packetAt 0 = some p ∧ p.dev = s.ownDev ∧ (∀ q ∈ s.net.take 0, q.isDrain = false) ∧ (s.core p.core).ranges = [] ∧ (s.bank p.core (0x1FFC0 / 0x2000)).pers = 0 ∧
       (s.bank p.core (0x1FFC0 / 0x2000)).spanned = false ∧ Memory.wf (s.core p.core).mem = true) ∧
    (let d : Drain := { id := 9, slot := 0, ident := some { team := 7, member := 0, slot := 0 }, addr := 0, wake := 0x4000000, left := 0, fl := 0, dom := 0 }
     let s := (sOne []).modCore 0 (fun x => { x with drains := [d] })
     (s.core 0).drains[0]? = some d ∧ (s.slot 0 0).ident = d.ident ∧ s.addressOk (((s.teamOf 0 0).map Team.size).getD 0) d.wake.toNat = true ∧ (s.slot 0 0).ni.length < 16) := by
  and_intros <;> first | decide +kernel | exact ans_ok (by decide +kernel) | exact err_of (by decide +kernel) | exact next_of (by decide +kernel) | exact exists_ok (by decide +kernel) | exact exists_some (by decide +kernel) | exact all_ok (by decide +kernel) | exact quiet_of (by decide +kernel) | exact exists2_ok (by decide +kernel) | exact exists_pair (by decide +kernel) | exact queued_of (by decide +kernel)

/-- A job card at offset 0 of core 0 whose words are ws; the completion goes to the actor itself. -/
def sJob (ws : List Nat) : State :=
  (sOne [(1, 0xFC00000000000000), (2, 0x4000000)]).modCore 0 (fun x => { x with mem := ws.zipIdx.foldl (fun m e => Mem.setWord m (8 * e.2) 8 e.1) [] })
/-- The descriptor of n blocks of the own core's memory from block b. -/
def dLoc (b n : Nat) : Nat := 0xC000000000000000 + b * 2 ^ 29 + (n - 1)
def jobWords : List (Nat × List Nat) := [(0, [dLoc 64 1, 0, 0, 0, dLoc 2047 1, 0, 0, 0]), (1, [dLoc 64 1, dLoc 66 1, 0, 0, dLoc 65 1, 0, 0, 0]),
  (2, [dLoc 64 1, dLoc 66 1, 0, 0, dLoc 65 1, 0, 0, 0]), (3, [dLoc 64 1, 0, 0, 0, dLoc 65 1, 0, 0, 0]), (4, [dLoc 64 1, 0, 0, 0, 0, 0, 0, 0])]

theorem witness_Jobs : ∀ e ∈ jobWords,
    let s := sJob e.2
    let o : Op := { a := .reg 1, b := .reg 2, i18 := 2 <<< 3 }
    let ds := (List.range 8).map (fun i => (decodeRegion (Mem.word (s.core 0).mem (8 * i) 8)).getD none)
    let rs := ds.map (fun r => r.bind (s.region 0 0))
    s.calm 0 0 ∧ s.isGuest = false ∧ (∀ j, (s.slot 0 j).queued = []) ∧ s.runs 0xE0 o ∧ rdReg o.a s = .ok (0xFC00000000000000, s) ∧ rdReg o.b s = .ok (0x4000000, s) ∧
    (s.slot 0 0).ident = some { team := 7, member := 0, slot := 0 } ∧ s.gatherBad 0 0 = false ∧
    s.addressOk (((s.teamOf 0 0).map Team.size).getD 0) 0x4000000 = true ∧ (s.cluster (clusterOf 0)).cards.length < 64 ∧
    (∀ i, i < 8 → (decodeRegion (Mem.word (s.core 0).mem (8 * i) 8)).isSome = true) ∧ (∀ d ∈ ds, ∀ r ∈ d.toList, (s.region 0 0 r).isSome = true) ∧
    (∀ i, i < 8 → ∀ j, j < 4 → i ≠ j + 4 → ∀ p ∈ (lget none rs i).toList, ∀ q ∈ (lget none rs (4 + j)).toList, p.meets q = false) ∧
    rolesOk e.1 2 (ds.take 4) (ds.drop 4) = true ∧ tOne.inGroup 0 0 0 = true ∧ s.teamOf 0 0 = some tOne := by
  intro e he
  simp only [jobWords, List.mem_cons, List.not_mem_nil, or_false] at he
  rcases he with rfl | rfl | rfl | rfl | rfl <;> (and_intros <;> first | decide +kernel | exact ans_ok (by decide +kernel) | exact err_of (by decide +kernel) | exact next_of (by decide +kernel) | exact exists_ok (by decide +kernel) | exact exists_some (by decide +kernel) | exact all_ok (by decide +kernel) | exact quiet_of (by decide +kernel) | exact exists2_ok (by decide +kernel) | exact exists_pair (by decide +kernel) | exact queued_of (by decide +kernel))

/-- A card of cluster 0, from block 0 to the last block of core 0's memory. -/
def rAt (base : Nat) : Region := { isLocal := true, base, blocks := 1, addr := base }
def aCard (type : Nat) (phase : CardPhase) : Card :=
  { id := 3, core := 0, slot := 0, ident := { team := 7, member := 0, slot := 0 }, dom := 0, addr := 0, done := 0x4000000, type, etype := 2, group := 0
    ins := [some (rAt 0), none, none, none], outs := [some (rAt 0x1FFC0), none, none, none], ready := true, phase }

theorem witness_Jobs_events :
    (let x := aCard 0 .queued
     let s := { sOne [] with clusters := [(0, { cards := [x] })] }
     (s.cluster 0).cards[0]? = some x ∧ s.team x.ident.team = some tOne ∧ x.phase = .queued ∧ x.ready = true ∧ tOne.st = .resident ∧ x.edges = [] ∧ (tOne.coreOfMember x.ident.member).getD x.core = x.core ∧
       (∀ r ∈ x.ins ++ x.outs, ∀ g ∈ r.toList, Region.again tOne g = g) ∧ s.rangesFree (x.ranges s.ownDev) = true) ∧
    (let x := aCard 0 .started
     let s := { sOne [] with clusters := [(31, { cards := [x] })] }
     (s.cluster 31).cards[0]? = some x ∧ x.left.getD x.units = [(0, 0)] ∧ (rAt 0).dev = s.ownDev ∧ s.isLost s.ownDev = false ∧ s.regionJoined x (rAt 0) = true ∧ s.regionJoined x (rAt 0x1FFC0) = true ∧ (rAt 0).meets (rAt 0x1FFC0) = false ∧
       (∀ k, k < 64 → s.gatherBad 0 k = false ∧ s.gatherBad 0 (0x1FFC0 + k) = false) ∧ Memory.wf (s.core 0).mem = true) ∧
    (aCard 0 .performed).phase = .performed ∧
    (let f (region unit : Nat) : Skip := { region, unit, status := 3, addr := 64 * unit, key := (region, unit) }
     let x : Card := { aCard 0 .started with left := some [], fails := [f 4 1, f 0 2] }
     let s := { sOne [] with clusters := [(31, { cards := [x, { x with fails := [] }] })] }
     (s.cluster 31).cards[0]? = some x ∧ (s.cluster 31).cards[1]? = some { x with fails := [] } ∧ x.type < 3 ∧ x.left.getD x.units = [] ∧ f 0 2 ∈ x.fails ∧
       ∀ g ∈ x.fails, (f 0 2).region < g.region ∨ ((f 0 2).region = g.region ∧ (f 0 2).unit < g.unit) ∨ f 0 2 = g) ∧
    (∀ b : Bool, let g : GazEntry := { valid := true, slots := 1, members := [0], reduces := [((0, 0), 1)], bcasts := [((0, 0), 1)] }
      let tm : Team := { tOne with gaz := [g] }
      tm.st = .resident ∧ tm.groupSlots 0 ≠ [] ∧ 0 < tm.gaz.length ∧ (g.complete.filter (fun x => x.1 == b)).length = 0 ∧
        (∀ q ∈ tm.groupSlots 0, ∃ e ∈ (if b then g.bcasts else g.reduces), e.1 = q ∧ 0 < e.2)) := by
  and_intros <;> first | decide +kernel | exact ans_ok (by decide +kernel) | exact err_of (by decide +kernel) | exact next_of (by decide +kernel) | exact exists_ok (by decide +kernel) | exact exists_some (by decide +kernel) | exact all_ok (by decide +kernel) | exact quiet_of (by decide +kernel) | exact exists2_ok (by decide +kernel) | exact exists_pair (by decide +kernel) | exact queued_of (by decide +kernel)

theorem witness_GathersAndStreams :
    (∀ m ∈ [(0, 4), (1, 8), (2, 32), (3, 64)],
      let s := sMx 0
      let o : Op := { a := .reg 1, b := .reg 3, c := .reg 4, m := BitVec.ofNat 4 m.1 }
      s.calm 0 0 ∧ s.isGuest = false ∧ (∀ j, (s.slot 0 j).queued = []) ∧ s.mayRun 0xE1 = true ∧ rdReg o.a s = .ok (0xFC00000000000000, s) ∧ rdV 3 s = .ok (0, s) ∧
        rdReg o.c s = .ok (0xFC00000000008000, s) ∧ s.rowOff 0 0 (0xFC00000000008000, 8 * m.2) = some 0x8000 ∧
        (s.bank 0 (0x8000 / 0x2000)).pers = 0 ∧ (s.bank 0 ((0x8000 + 8 * m.2 - 1) / 0x2000)).spanned = false ∧ (s.thread.laneMask o 8).all id = true ∧
        gatherLane m.2 0xFC00000000000000 s = .ok (({ dev := 0, core := 0, isLocal := true }, .so), s)) ∧
    (let g : Gather := { id := 5, slot := 0, z := 64, lanes := [(0x1FFC0, 0xFC00000000000000, { dev := 0, core := 0, isLocal := true }, .so)], dom := 0 }
     let s := onCore { gathers := [g], ranges := [{ id := 6, lo := 0x1FE00, len := 512, write := true, holder := .gather 5 }], mem := [(3, 7)] }
     (s.core 0).gathers = g :: [] ∧ (s.slot 0 0).awayAt = none ∧ s.gatherBad 0 ((0xFC00000000000000 : BitVec 64).toNat % 0x20000) = false ∧
       (s.core 0).ranges.any (fun r => r.write && r.holder != .gather g.id) = false ∧ s.isLost s.ownDev = false ∧
       s.stacksJoined (coreStack 0) (coreStack 0) = true ∧ s.poison = [] ∧ s.laneArrived g.id 0x1FFC0 = true ∧ Memory.wf (s.core 0).mem = true) := by
  refine ⟨fun m hm => ?_, ?_⟩
  · simp only [List.mem_cons, List.not_mem_nil, or_false] at hm
    rcases hm with rfl | rfl | rfl | rfl <;> (and_intros <;> first | decide +kernel | exact ans_ok (by decide +kernel) | exact err_of (by decide +kernel) | exact next_of (by decide +kernel) | exact exists_ok (by decide +kernel) | exact exists_some (by decide +kernel) | exact all_ok (by decide +kernel) | exact quiet_of (by decide +kernel) | exact exists2_ok (by decide +kernel) | exact exists_pair (by decide +kernel) | exact queued_of (by decide +kernel))
  · (and_intros <;> first | decide +kernel | exact ans_ok (by decide +kernel) | exact err_of (by decide +kernel) | exact next_of (by decide +kernel) | exact exists_ok (by decide +kernel) | exact exists_some (by decide +kernel) | exact all_ok (by decide +kernel) | exact quiet_of (by decide +kernel) | exact exists2_ok (by decide +kernel) | exact exists_pair (by decide +kernel) | exact queued_of (by decide +kernel))

theorem witness_GathersAndStreams_streams :
    (let s := (sOne [(1, 0xFC0000000001FFE0)]).modCore 0 (fun x => { x with
       mem := Mem.setWord [] 0x1FFF0 8 0x00070F0500000010, streams := #v[{ iv := true, isrc := 1 }, { noq := true, esize := 3 }, { count := 1 }, {}], queues := #v[[], [], [], [], [], [], [], List.replicate 16 0] })
     let o : Op := { d := .reg 3, a := .reg 1, i18 := 0 }
     s.calm 0 0 ∧ s.isGuest = false ∧ s.thread.guardBit o = true ∧ (∀ n ∈ [0xE2, 0xE3, 0xE4, 0xE5, 0xE6], s.mayRun n = true) ∧ rdReg o.a s = .ok (0xFC0000000001FFE0, s) ∧
       (∀ j, (s.slot 0 j).queued = []) ∧ (0xFC0000000001FFE0 : BitVec 64).toNat % 32 = 0 ∧ s.gatherBad 0 0x1FFE0 = false ∧
       (let w := Mem.word (s.core 0).mem 0x1FFF0 8;
        bitsOf w 39 32 = 5 ∧ bitsOf w 47 40 = 15 ∧ bitsOf w 55 48 = 7 ∧ bitsOf w 63 56 = 0) ∧ Mem.word (s.core 0).mem 0x1FFF8 8 = 0 ∧
       ((s.core 0).stream 0).active = false ∧ ((s.core 0).stream 0).noq = false ∧ ((s.core 0).stream 1).active = false ∧ (1 : Nat) ≠ 0 ∧ ((s.core 0).stream 1).noq = true ∧
       ((s.core 0).stream 1).esize.toNat < 4 ∧ ((s.core 0).queue 7).length ≤ 16 ∧ ∃ t, wrX 3 16 s = .ok ((), t)) ∧
    (∀ base ∈ [(0xFC0000000001FFE0, 0), (0xFC0000000001FFE1, 1)],
     let s := (sOne []).modCore 0 (fun x => { x with streams := #v[{}, {}, {}, { base := BitVec.ofNat 64 base.1, count := 1, esize := 5, active := true }] })
     let r := (s.core 0).stream 3
     r.active = true ∧ r.noq = false ∧ r.iv = false ∧ (s.slot 0 0).haltReq = false ∧ (s.slot 0 0).halted = false ∧ r.next.toNat < r.count.toNat ∧
       (r.elemAddr 0).toNat % 32 = base.2 ∧ s.locate 0 0 0xFC0000000001FFE0 32 = some (.loc s.ownDev 0 0x1FFE0 32) ∧ s.gatherBad 0 0x1FFE0 = false ∧
       s.localHeld 0 0x1FFE0 32 false = false ∧ s.isLost s.ownDev = false ∧ s.poison = [] ∧ (s.core 0).room r.qsel.toNat ≠ 0) := by
  refine ⟨?_, fun b hb => ?_⟩
  · (and_intros <;> first | decide +kernel | exact ans_ok (by decide +kernel) | exact err_of (by decide +kernel) | exact next_of (by decide +kernel) | exact exists_ok (by decide +kernel) | exact exists_some (by decide +kernel) | exact all_ok (by decide +kernel) | exact quiet_of (by decide +kernel) | exact exists2_ok (by decide +kernel) | exact exists_pair (by decide +kernel) | exact queued_of (by decide +kernel))
  · simp only [List.mem_cons, List.not_mem_nil, or_false] at hb
    rcases hb with rfl | rfl <;> (and_intros <;> first | decide +kernel | exact ans_ok (by decide +kernel) | exact err_of (by decide +kernel) | exact next_of (by decide +kernel) | exact exists_ok (by decide +kernel) | exact exists_some (by decide +kernel) | exact all_ok (by decide +kernel) | exact quiet_of (by decide +kernel) | exact exists2_ok (by decide +kernel) | exact exists_pair (by decide +kernel) | exact queued_of (by decide +kernel))

/-- A kernel of SVC 19, which may read and write the lines from address 0. -/
def kOne : Kernel :=
  { ticket := 4, card := 0, ident := some { team := 7, member := 0, slot := 0 }, dom := 0, code := 0, coden := 0, args := List.replicate 8 9
    reads := [{ isLocal := false, base := 0, blocks := 64 }], writes := [{ isLocal := false, base := 0, blocks := 64 }], mask := 0x80000, stack := 0, expiry := 0, prio := 3
    rm := 1, done := 0x4000000 }
def sSvc (k : Kernel) (v : Svc) : State :=
  { sTables with cur := .svc 19, kernels := [k], teams := [tOne], svcs := [(19, { v with kernel := some 4, status := .running })] }
def pairState {α : Type} (e : Except Stop (α × State)) : State := match e with | .ok x => x.2 | .error _ => {}

theorem witness_DeepInstructions_deep :
    let s : State := { (sOne [(1, 0xFC00000000000000)]) with ptroot := sTables.ptroot, hbm := sTables.hbm }
    let s := s.modCore 0 (fun x => { x with mem := [(0, 0xFC00), (0x10, 0x100), (0x18, 0x80000), (0x28, 0x4000000)].foldl (fun m e => Mem.setWord m e.1 8 e.2) [] })
    let o : Op := { d := .reg 3, a := .reg 1 }
    let w (i : Nat) : Nat := Mem.word (s.core 0).mem (8 * i) 8
    let s1 := pairState (loadBlock 0x100 s)
    s.calm 0 0 ∧ s.isGuest = false ∧ s.runs 0xE7 o ∧ rdReg o.a s = .ok (0xFC00000000000000, s) ∧ (∀ j, (s.slot 0 j).queued = []) ∧ s.gatherBad 0 0 = false ∧
    w 0 % 64 = 0 ∧ w 0 < 2 ^ 56 ∧ w 1 = 0 ∧ w 2 = 0x100 ∧ w 3 % 2 ^ 32 ≠ 0 ∧ w 3 < 2 ^ 35 ∧ bitsOf (w 4) 37 35 < 5 ∧ w 4 < 2 ^ 50 ∧ w 6 = 0 ∧ w 7 = 0 ∧
    s.addressOk (((s.teamOf 0 0).map Team.size).getD 0) (w 5) = true ∧ loadBlock 0x100 s = .ok (List.replicate 64 0, s1) ∧
    (∀ i, i < 8 → decodeRegion (wordAt (List.replicate 64 0) (8 * i) 8) = some none) ∧ s1.calm 0 0 ∧ (s1.kernels.filter (fun x => x.st != .ended)).length < 256 ∧
    ∃ t, dstX o.d 0 s1 = .ok ((), t) := by
  and_intros <;> first | decide +kernel | exact ans_ok (by decide +kernel) | exact err_of (by decide +kernel) | exact next_of (by decide +kernel) | exact exists_ok (by decide +kernel) | exact exists_some (by decide +kernel) | exact all_ok (by decide +kernel) | exact quiet_of (by decide +kernel) | exact exists2_ok (by decide +kernel) | exact exists_pair (by decide +kernel) | exact queued_of (by decide +kernel)

def readsX (r : Opd) (v : BitVec 64) (s : State) : Bool := match rdReg r s with | .ok x => decide (x.1 = v) && decide (x.2 = s) | .error _ => false
theorem readsX_spec {r : Opd} {v : BitVec 64} {s : State} (h : readsX r v s = true) : rdReg r s = .ok (v, s) := by
  rw [readsX] at h
  generalize rdReg r s = e at h ⊢
  cases e with
  | error => cases h
  | ok x => obtain ⟨y, z⟩ := x; simp at h; rw [h.1, h.2]

theorem witness_DeepInstructions :
    (∀ wr : Bool, let v : Svc := { thr := thrOf [(1, 0x300), (2, 0x3FF00)] }
     let s := sSvc { kOne with st := .running } v
     let o : Op := { d := .reg 3, a := .reg 1, b := .reg 2 }
     s.cur = .svc 19 ∧ s.poison = [] ∧ s.mayRun (if wr then 0xE9 else 0xE8) = true ∧ s.thread.guardBit o = true ∧ rdReg o.a s = .ok (0x300, s) ∧ rdReg o.b s = .ok (0x3FF00, s) ∧
       s.svcKernel 19 = some { kOne with st := .running } ∧ (∀ j, j < 4 → kOne.writes.any (·.holds (0x300 + 64 * j)) = true) ∧ (s.svc 19).moving ≠ some 0x300 ∧
       s.protWalk 0 0x300 = some ePage ∧ ((s.walkTokens (19 / 64) (s.xlatReads 512 0x300)).any (fun s0 => (s0.translate 512 0x300).1 == .pa 0x20300 false)) = true ∧ channelOf 0x20300 = 19 ∧ (s.svc 19).rows.length < 8) ∧
    (let s := sSvc { kOne with st := .running } { thr := thrOf [(1, 0x3FFF8), (2, 0x3FF00), (3, 1)], mem := [(0x3FFF9, 3)] }
     let o : Op := { a := .reg 1, b := .reg 2, c := .reg 3 }
     s.runs 0xEA o ∧ (s.svc 19).scan = none ∧ rdReg o.a s = .ok (0x3FFF8, s) ∧ rdReg o.b s = .ok (0x3FF00, s) ∧ rdReg o.c s = .ok (1, s) ∧
       (s.svc 19).rowHeld 0x3FFF8 8 false = false ∧ (s.svc 19).rows.length < 8 ∧ Mem.word (s.svc 19).mem 0x3FFF8 8 = 0x300 ∧
       scanLines ((List.range 1).map (fun i => Mem.word (s.svc 19).mem (0x3FFF8 + 8 * i) 8)) s = .ok ([(0x300, 0x20300)], pairState (scanLines [0x300] s))) ∧
    (∀ sc ∈ [({ lines := [(0x300, 0x20300), (0x300, 0x20300)], wave := 1 } : Scan), { lines := [(0x300, 0x20300), (0x300, 0x20300)], next := 1, wave := 1 }],
     let s := sSvc { kOne with st := .running } { thr := thrOf [(2, 0x3FE00)], scan := some sc }
     let o : Op := { a := .reg 1, b := .reg 2, c := .reg 3 }
     s.mayRun 0xEA = true ∧ s.thread.guardBit o = true ∧ (s.svc 19).scan = some sc ∧ readsX o.b 0x3FE00 s = true ∧ (scanLines ((sc.lines.drop sc.next).map Prod.fst) s).toOption.isSome = true ∧
       0x3FE00 + 256 * sc.lines.length ≤ 0x40000 ∧ (s.svc 19).rows.length < 8) ∧
    (let s := sSvc { kOne with st := .running } { thr := thrOf [(1, 0x3EFC0), (2, 0x3F000)], leg := (List.range 65).map (fun i => (4031 + i, 0x0044)) }
     let o : Op := { d := .reg 3, a := .reg 1, b := .reg 2, m := 1 }
     s.mayRun 0xEB = true ∧ rdReg o.a s = .ok (0x3EFC0, s) ∧ rdReg o.b s = .ok (0x3F000, s) ∧ rdV 3 s = .ok (0, s) ∧ 0x3F000 + 4096 ≤ 0x40000 ∧
       (s.svc 19).rowHeld 0x3EFC0 64 false = false ∧ (s.svc 19).rowHeld 0x3F000 4096 false = false ∧ isB8 (legFmt (LegMap.read (s.svc 19).leg (0x3EFC0 / 64))) = true ∧
       (∀ j, j < 64 → isB8 (legFmt (LegMap.read (s.svc 19).leg (0x3F000 / 64 + j))) = true) ∧
       ∃ t, dstLanes o.d 32 (s.thread.laneMask o 32) (List.replicate 32 0) (s.modThread (·.orFlags 0)) = .ok ((), t)) ∧
    (let s := sSvc { kOne with st := .running } {}
     s.runs 0xEE {} ∧ s.runs 0xEC {} ∧ s.runs 0xED {} ∧ (s.svc 19).rows = [] ∧ (s.svc 19).kernel = some 4 ∧ s.kernel 4 = some { kOne with st := .running } ∧
       s.waitingFor { kOne with st := .running } = [] ∧ i18f { i18 := 10 } 3 0 = 10 ∧ ∃ t, wrX 31 9 s = .ok ((), t)) ∧
    (let s := { sSvc { kOne with st := .running } {} with kernels := [{ kOne with st := .running }, { kOne with ticket := 5, st := .ready }] }
     s.runs 0xED {} ∧ s.kernel 4 = some { kOne with st := .running } ∧ ∃ y ∈ s.waitingFor { kOne with st := .running }, kOne.prio ≤ y.prio) ∧
    (let s := sSvc { kOne with st := .running } { rows := [{ line := 0, pa := 0, off := 0, write := false }] }
     s.runs 0xEC {} ∧ (s.svc 19).rows ≠ []) := by
  refine ⟨fun wr => ?_, ?_⟩
  · cases wr <;> (and_intros <;> first | decide +kernel | exact ans_ok (by decide +kernel) | exact err_of (by decide +kernel) | exact next_of (by decide +kernel) | exact exists_ok (by decide +kernel) | exact exists_some (by decide +kernel) | exact all_ok (by decide +kernel) | exact quiet_of (by decide +kernel) | exact exists2_ok (by decide +kernel) | exact exists_pair (by decide +kernel) | exact queued_of (by decide +kernel))
  · (and_intros <;> first | decide +kernel | exact ans_ok (by decide +kernel) | exact err_of (by decide +kernel) | exact next_of (by decide +kernel) | exact exists_ok (by decide +kernel) | exact exists_some (by decide +kernel) | exact all_ok (by decide +kernel) | exact quiet_of (by decide +kernel) | exact exists2_ok (by decide +kernel) | exact exists_pair (by decide +kernel) | exact queued_of (by decide +kernel))

theorem witness_DeepEvents :
    (let k := { kOne with st := .ready }
     let s : State := { sTables with kernels := [k] }
     s.kernel 4 = some k ∧ (∀ x ∈ s.kernels, x.st = .ready → x.ticket ∉ k.behind) ∧ (∀ x ∈ s.kernels, x.ticket ≠ 4 → s.grantable x = true → s.goesFirst x k = false) ∧ s.port.preempts = [] ∧ (∀ i ∈ k.live, (1, i) ∉ s.port.retired ∧ (3, i) ∉ s.port.retired) ∧ k.live = [19] ∧
       (∀ i ∈ k.svcs, s.svcKernel i = none)) ∧
    (let k := { kOne with st := .cleaning }
     let s : State := { sTables with kernels := [k] }
     s.kernel 4 = some k ∧ s.cleanable k = true ∧ ∃ r t, s.dirRead k.dom k.code (64 * (k.coden + 1)) = .ok (r, t)) ∧
    (let k := { kOne with st := .running }
     let s := { sSvc k {} with svcs := [(19, { kernel := some 4, status := .running, left := some 0 })] }
     s.kernel 4 = some k ∧ k.status = 0 ∧ ∃ i ∈ k.live, (s.svc i).left = some 0) ∧
    (let k := { kOne with st := .halting, preempts := 0xFFFF }
     let s := sSvc k {}
     s.kernel 4 = some k ∧ k.live ≠ [] ∧ (∀ i ∈ k.live, (s.svc i).settled = true ∧ (s.svc i).status.isFault = false) ∧ ∀ i ∈ k.svcs, (s.svc i).kernel = some 4) ∧
    (let k := { kOne with st := .halting }
     let s := { sSvc k {} with svcs := [(19, { kernel := some 4, status := .faulted .page 8 0x300 })] }
     s.kernel 4 = some k ∧ k.live = [19] ∧ (s.svc 19).status = .faulted .page 8 0x300) ∧
    (let k := { kOne with st := .running, ended := [19] }
     let s := { sSvc k {} with kernels := [k, { kOne with ticket := 5, st := .queued, edges := [4] }] }
     s.kernel 4 = some k ∧ k.status = 0 ∧ k.live = [] ∧ k.fault = none) ∧
    (∀ write : Bool, let r : RowAccess := { line := 0x300, pa := 0x20300, off := 0x3FF00, write, served := true }
     let s := sSvc kOne { rows := [r], mem := [(0x3FFFF, 7)] }
     (s.svc 19).rows = r :: [] ∧ r.served = true ∧ r.scan = none ∧ (∀ l ∈ s.l2, l.line ≠ r.line) ∧ Memory.wf (s.svc 19).mem = true ∧ Memory.wf s.hbm = true) ∧
    (∀ n ∈ [1, 2], ∀ past : Bool, let l : Nat × Nat := (0x300, 0x20300)
     let sc : Scan := { lines := List.replicate n l, wave := 1, read := 1 }
     let fresh : Scan := { lines := List.replicate n l, past }
     let r (sc : Scan) : RowAccess := { line := 0, pa := 0, off := 0x3FE00, write := false, scan := some sc }
     let s (sc : Scan) := sSvc { kOne with st := .running } { rows := [r sc] }
     ((s sc).svc 19).rows = r sc :: [] ∧ sc.next < sc.wave ∧ sc.wave ≤ sc.read ∧ (sc.wave < sc.lines.length ↔ n = 2) ∧ (sc.lines.length ≤ sc.wave ↔ n = 1) ∧
       ((s fresh).svc 19).rows = r fresh :: [] ∧ fresh.wave ≤ fresh.next ∧ (s fresh).svcIssues 19 = true ∧ fresh.next < fresh.lines.length) ∧
    (let r : RowAccess := { line := 0x300, pa := 0x20300, off := 0, write := false }
     let x : Channel := { normal := [(.write 1, 3)], dn := 1 }
     let s := { sSvc kOne { rows := [{ r with served := true }, r] } with channels := [(19, x)] }
     (s.svc 19).rows = [{ r with served := true }] ++ r :: [] ∧ [{ r with served := true }].all (·.through) = true ∧ r.served = false ∧ r.scan = none ∧
       (s.channel 19).normal ≠ [] ∧ (∀ e ∈ (s.channel 19).normal, e.1.isRead = false) ∧ (s.svc 18).command = none ∧ (∀ e ∈ (s.channel 18).normal, s.normalReady 18 e.1 = false) ∧
       (s.channel 19).wn ≠ 0 ∧ ¬ ((s.channel 19).dn ≤ 0 ∧ (s.channel 19).dd ≤ 0) ∧ (s.channel 18).normal = [] ∧ (s.channel 18).dn ≤ 0 ∧ (s.channel 18).dd ≤ 0 ∧
       ({ x with wn := 0, wd := 0 } : Channel).wn = 0 ∧ 767 < 768) := by
  and_intros <;> first | decide +kernel | exact ans_ok (by decide +kernel) | exact err_of (by decide +kernel) | exact next_of (by decide +kernel) | exact exists_ok (by decide +kernel) | exact exists_some (by decide +kernel) | exact all_ok (by decide +kernel) | exact quiet_of (by decide +kernel) | exact exists2_ok (by decide +kernel) | exact exists_pair (by decide +kernel) | exact queued_of (by decide +kernel)

/-- An actor in K mode that reads or writes a system register, with the value v in x2. -/
def sSys (v : BitVec 64) (sl : Slot → Slot := id) (x : Core → Core := id) : State :=
  ((sOne [(2, v)]).modSlot 0 0 (fun y => sl { y with km := true })).modCore 0 x
def oSys (n : Nat) : Op := { d := .reg 3, b := .reg 2, i18 := BitVec.ofNat 18 n }

/-- The hypotheses of SGET (0xF0) or SSET (0xF1) of register n. -/
def atReg (code : Nat) (s : State) (n : Nat) : Bool :=
  decide (s.cur = .slot 0 0) && decide ((s.slot 0 0).guest = none) && (s.mayRun code && s.thread.guardBit (oSys n)) && decide (i18f (oSys n) 9 0 = n)

theorem atReg_spec {code : Nat} {s : State} {n : Nat} (h : atReg code s n = true) :
    s.cur = .slot 0 0 ∧ (s.slot 0 0).guest = none ∧ s.runs code (oSys n) ∧ i18f (oSys n) 9 0 = n := by
  simp only [atReg, Bool.and_eq_true, decide_eq_true_eq] at h
  obtain ⟨⟨⟨h1, h2⟩, h3⟩, h4⟩ := h
  exact ⟨h1, h2, runs_of (by simpa using h3), h4⟩

theorem all_isok {α : Type} {l : List α} {e : α → Except Stop (Unit × State)} (h : l.all (fun x => (e x).toOption.isSome) = true) :
    ∀ x ∈ l, ∃ t, e x = .ok ((), t) := fun x hx => exists_ok (List.all_eq_true.mp h x hx)

theorem witness_SystemRegisters :
    (let s := sOne [(2, 9)]
     s.cur = .slot 0 0 ∧ (s.slot 0 0).guest = none ∧ s.runs 0xF0 (oSys 0x020) ∧ s.sysAcc (i18f (oSys 0x020) 9 0) = .no ∧ s.runs 0xF1 (oSys 0x1BA) ∧
       s.sysAcc (i18f (oSys 0x1BA) 9 0) = .no ∧ s.runs 0xF1 (oSys 0x023) ∧ s.sysAcc (i18f (oSys 0x023) 9 0) = .ro ∧
       srcX (immValue (oSys 0x023)) (oSys 0x023).b s = .ok (9, s)) ∧
    (let s := sSys 9
     (s.slot 0 0).satOwed 0 s.ownDev = false ∧ (∀ e ∈ sysReads, atReg 0xF0 s e.1 = true ∧ s.sysAcc e.1 ≠ .no) ∧
       (∀ e ∈ sysReads, ∃ t, dstX (oSys e.1).d (e.2 s 0 0) s = .ok ((), t))) ∧
    (∀ n ∈ [0x000, 0x023, 0x132, 0x1A0, 0x120, 0x12F] ++ sysKeeps.map Prod.fst,
      let s := sSys 0x104
      atReg 0xF1 s n = true ∧ s.sysAcc n = .rw ∧ (0x104 : BitVec 64).toNat % 8 < 5 ∧ (0x104 : BitVec 64).toNat % 4 = 0 ∧
        bitsOf (0x104 : BitVec 64).toNat 11 8 ≠ 0) ∧
    srcX (immValue (oSys 0x000)) (oSys 0x000).b (sSys 0x104) = .ok (0x104, sSys 0x104) ∧ ((sSys 0x104).slot 0 0).satOwed 0 (sSys 0x104).ownDev = false ∧
    (∀ q ∈ [0x80FF, 0x00FF], let s := sSys 9 (fun x => { x with regs := { x.regs with qossel := BitVec.ofNat 16 q } })
      atReg 0xF1 s 0x156 = true ∧ s.sysAcc 0x156 = .ro ∧ s.unitPart (s.slot 0 0).regs.qossel = s.corePart 0 ∧ ((s.slot 0 0).regs.qossel.getLsbD 15 = true ↔ q = 0x80FF)) ∧
    (∀ n ∈ [0x000, 0x001, 0x132, 0x1A0], let s := sSys 5
      atReg 0xF1 s n = true ∧ s.sysAcc n = .rw ∧ 5 ≤ (5 : BitVec 64).toNat % 8 ∧ (5 : BitVec 64).toNat % 4 ≠ 0) ∧
    srcX (immValue (oSys 0x000)) (oSys 0x000).b (sSys 5) = .ok (5, sSys 5) := by
  and_intros <;> first | decide +kernel | exact ans_ok (by decide +kernel) | exact all_isok (by decide +kernel)

theorem witness_SystemRegisters_rings :
    let reads (s : State) (n : Nat) : Prop := atReg 0xF0 s n = true ∧ s.sysAcc n ≠ .no
    (let r : TravRec := { addr := 0x1000, cyc := 2, word := 3 }
     let s := sSys 0 id (fun x => { x with trav := { x.trav with ring := [r] } })
     reads s 0x162 ∧ (s.core 0).trav.ring = r :: [] ∧
       ∃ t, dstX (.reg 3) r.addr (s.modCore 0 (fun x => { x with trav := { x.trav with ring := [], travc := r.cyc, travs := r.word } })) = .ok ((), t)) ∧
    (let r : SfrqRec := { addr := 0x1000, pc := 8, kind := 1, reason := 2, size := 4 }
     let s := sSys 0 (fun x => { x with sfrq := [r], sfReported := 1 })
     reads s 0x1A8 ∧ (s.slot 0 0).sfrq = r :: [] ∧
       ∃ t, dstX (.reg 3) r.addr (s.modSlot 0 0 (fun y => { y with sfrq := [], sfReported := y.sfReported - 1, regs := { y.regs with
         sfrqPc := r.pc, sfrqInfo := BitVec.ofNat 64 (2 ^ 63 + 2 ^ 60 * r.kind + 2 ^ 56 * r.reason + r.size) } })) = .ok ((), t)) ∧
    (let r : SampRec := { pc := 8, info := 3 }
     let s := sSys 0 id (fun x => { x with samp := { x.samp with ring := [r] } })
     reads s 0x1B2 ∧ (s.core 0).samp.ring = r :: [] ∧
       ∃ t, dstX (.reg 3) r.pc (s.modCore 0 (fun x => { x with samp := { x.samp with ring := [], info := r.info } })) = .ok ((), t)) ∧
    (let s := sSys 0
     (s.slot 0 0).owed = [] ∧ ∀ e ∈ [(0x162, (s.core 0).trav.ring.isEmpty), (0x1A8, (s.slot 0 0).sfrq.isEmpty), (0x1B2, (s.core 0).samp.ring.isEmpty)],
       atReg 0xF0 s e.1 = true ∧ s.sysAcc e.1 ≠ .no ∧ e.2 = true) := by
  and_intros <;> first | decide +kernel | exact ans_ok (by decide +kernel) | exact err_of (by decide +kernel) | exact next_of (by decide +kernel) | exact exists_ok (by decide +kernel) | exact exists_some (by decide +kernel) | exact all_ok (by decide +kernel) | exact quiet_of (by decide +kernel) | exact exists2_ok (by decide +kernel) | exact exists_pair (by decide +kernel) | exact queued_of (by decide +kernel)

/-- The hypotheses of a write of register n with the value of x2. -/
def writesReg (s : State) (n : Nat) (v : BitVec 64) : Bool :=
  atReg 0xF1 s n && decide (s.sysAcc n = .rw) && (match srcX (immValue (oSys n)) (oSys n).b s with | .ok x => decide (x.1 = v) && decide (x.2 = s) | .error _ => false)

theorem writesReg_spec {s : State} {n : Nat} {v : BitVec 64} (h : writesReg s n v = true) :
    s.cur = .slot 0 0 ∧ (s.slot 0 0).guest = none ∧ s.runs 0xF1 (oSys n) ∧ i18f (oSys n) 9 0 = n ∧ s.sysAcc n = .rw ∧
      srcX (immValue (oSys n)) (oSys n).b s = .ok (v, s) := by
  rw [writesReg, Bool.and_eq_true, Bool.and_eq_true, decide_eq_true_eq] at h
  obtain ⟨⟨h1, h2⟩, h3⟩ := h
  obtain ⟨a, b, c, d⟩ := atReg_spec h1
  refine ⟨a, b, c, d, h2, ?_⟩
  generalize srcX (immValue (oSys n)) (oSys n).b s = e at h3 ⊢
  cases e with
  | error => cases h3
  | ok x => obtain ⟨y, z⟩ := x; simp at h3; rw [h3.1, h3.2]

theorem witness_SystemRegisters_writes :
    (let s := sSys 0x1C00000000
     writesReg s 0x040 0x1C00000000 = true ∧ mseqActive (s.core 0).mu.mseq = false ∧ (0x1C00000000 : BitVec 64).getLsbD 63 = false) ∧
    (let s := sSys 1 id (fun x => { x with mu := { x.mu with mseq := 0x8000180000000000 } })
     writesReg s 0x040 1 = true ∧ mseqActive (s.core 0).mu.mseq = true) ∧
    (let s := sSys 0x10FFF
     writesReg s 0x110 0x10FFF = true ∧ (s.core 0).mu.queue = [] ∧ mseqActive (s.core 0).mu.mseq = false) ∧
    (let s := sSys 0x00FF0007
     writesReg s 0x160 0x00FF0007 = true ∧ (0x00FF0007 : BitVec 64).getLsbD 0 = true ∧ (s.core 0).trav.en = false) ∧
    writesReg (sSys 0x1F00000400) 0x1B0 0x1F00000400 = true ∧
    (let s := sSys 0x110
     writesReg s 0x133 0x110 = true ∧ (0x110 : BitVec 64).toNat % 16 = (s.slot 0 0).act.mbox.toNat) ∧
    (let s := sSys 0x10F id (fun x => { x with banks := vput x.banks 15 { ctl := 0xF8000001 } })
     writesReg s 0x133 0x10F = true ∧ (0x10F : BitVec 64).toNat % 16 ≠ (s.slot 0 0).act.mbox.toNat) ∧
    (let s := sSys 1
     writesReg s 0x133 1 = true ∧ (1 : BitVec 64).toNat % 16 ≠ (s.slot 0 0).act.mbox.toNat ∧ s.mboxOk 0 0 ((1 : BitVec 64).toNat % 16) = false) ∧
    writesReg (sSys 4) 0x004 4 = true ∧ writesReg (sSys 3) 0x004 3 = true ∧
    (let s := sSys 3 (fun x => { x with regs := { x.regs with cmpsel := 0x300 } })
     writesReg s 0x1BA 3 = true ∧ s.teamOf 0 0 = some tOne ∧ (s.slot 0 0).regs.cmpsel.toNat % 256 < tOne.ngroup ∧ (s.slot 0 0).regs.cmpsel.toNat % 256 < tOne.gaz.length ∧
       (3 : BitVec 64).setWidth 32 &&& cmpReserved ((s.slot 0 0).regs.cmpsel.toNat / 256) = 0) ∧
    (∀ j, j < 4 → let s := sSys 0xFFFFFFFF00000001
      writesReg s (0x180 + j) 0xFFFFFFFF00000001 = true ∧ ((s.core 0).stream j).iv = false) ∧
    (∀ j, j < 4 → let s := sSys 0xFFFF8000
      writesReg s (0x151 + j) 0xFFFF8000 = true ∧ s.unitPart (s.slot 0 0).regs.qossel = s.corePart 0 ∧ (((0xFFFF8000 : BitVec 64) >>> 16).setWidth 16 : BitVec 16) ≠ 0) ∧
    (∀ j, j < 4 → writesReg (sSys 0xFFFF) (0x151 + j) 0xFFFF = true ∧ (((0xFFFF : BitVec 64) >>> 16).setWidth 16 : BitVec 16) = 0) ∧
    (let s := sSys 0x4C (fun x => { x with regs := { x.regs with qossel := 0x80FF } })
     writesReg s 0x155 0x4C = true ∧ (s.slot 0 0).regs.qossel.getLsbD 15 = true ∧ s.unitPart (s.slot 0 0).regs.qossel = s.corePart 0) := by
  and_intros <;> first | decide +kernel | exact ans_ok (by decide +kernel) | exact err_of (by decide +kernel) | exact next_of (by decide +kernel) | exact exists_ok (by decide +kernel) | exact exists_some (by decide +kernel) | exact all_ok (by decide +kernel) | exact quiet_of (by decide +kernel) | exact exists2_ok (by decide +kernel) | exact exists_pair (by decide +kernel) | exact queued_of (by decide +kernel)

/-- A store to the local memory of another core that is not acknowledged yet. -/
theorem witness_SystemInstructions_flags :
    let s := onSlot { unacked := [{ id := 1, ord := 1, tgt := { dev := 0, core := 4095, isLocal := true }, kind := .rc }] }
    s.cur = .slot 0 0 ∧ s.thread.guardBit {} = true ∧ s.mayRun 0xF7 = true ∧ (s.slot 0 0).satOwed 0 s.ownDev = true := by
  and_intros <;> first | decide +kernel | exact ans_ok (by decide +kernel) | exact err_of (by decide +kernel) | exact next_of (by decide +kernel) | exact exists_ok (by decide +kernel) | exact exists_some (by decide +kernel) | exact all_ok (by decide +kernel) | exact quiet_of (by decide +kernel) | exact exists2_ok (by decide +kernel) | exact exists_pair (by decide +kernel) | exact queued_of (by decide +kernel)

theorem witness_SystemInstructions :
    let s := (sSys 0x1000).modSlot 0 0 (fun x => { x with thr := thrOf [(1, 0x1000), (2, 5), (4, 0xFFFFFFFFFFFFFF), (5, 0xFFF), (6, 0x100000000000000), (7, 0x1000)] })
    let o : Op := { d := .reg 3, a := .reg 1, b := .reg 2, i18 := 0x3F, m := 12 }
    s.calm 0 0 ∧ s.thread.guardBit o = true ∧ (∀ n ∈ [0xF4, 0xF5, 0xF6, 0xF7, 0xF8], s.mayRun n = true) ∧
    (∃ t, dstX o.d (s.core 0).cyc s = .ok ((), t)) ∧ (∃ t, dstX o.d (0#53 ++ s.thread.flags ++ 0#1 ++ s.thread.rm) s = .ok ((), t)) ∧
    rdReg o.a s = .ok (0x1000, s) ∧ rdReg o.b s = .ok (5, s) ∧ rdReg (.reg 4) s = .ok (0xFFFFFFFFFFFFFF, s) ∧ rdReg (.reg 5) s = .ok (0xFFF, s) ∧
    rdReg (.reg 6) s = .ok (0x100000000000000, s) ∧ rdReg (.reg 7) s = .ok (0x1000, s) ∧
    (0xFFFFFFFFFFFFFF : BitVec 64).toNat < 2 ^ 56 ∧ (0xFFF : BitVec 64).toNat < 2 ^ 12 ∧ 2 ^ 56 ≤ (0x100000000000000 : BitVec 64).toNat ∧ 2 ^ 12 ≤ (0x1000 : BitVec 64).toNat ∧
    (s.slot 0 0).satOwed 0 s.ownDev = false ∧ (∀ x b, (s.invalidate x b).accessesUnder x = false) ∧ (∀ x, s.rowsUnder x = false) ∧ s.l2 = [] := by
  and_intros <;> first | decide +kernel | exact ans_ok (by decide +kernel) | exact exists_ok (by decide +kernel) | exact quiet_of (by decide +kernel) | exact fun _ => rfl | (intro x b; cases x <;> cases b <;> rfl)

/-- A team of one core with two templates; its group 0 holds slot 1. -/
def tTwo : Team := { tOne with tmpls := [lget none tOne.tmpls 0, lget none tOne.tmpls 0, none, none], gaz := [{ valid := true, slots := 2, members := [0] }] }

/-- The keeper in K mode at slot 0; slot 1 holds its team's actor, halted, or an AWAY mark. -/
def sKeeper (xs : List (Nat × BitVec 64)) (sl : Slot) : State :=
  { ((sOne xs).modSlot 0 0 (fun x => { x with km := true })).modCore 0 (fun x => { x with slots := vput x.slots 1 sl }) with
      teams := [tTwo] }
def hSlot : Slot := { ident := some { team := 7, member := 0, slot := 1 }, halted := true, haltReq := true, status := .waiting, act := { mbox := 15 } }

/-- Whether a store of the save of core 0 to a block finds it at home. -/
def saveHere (s : State) (a : Nat) : Bool :=
  ((s.core 0).plb.find? (·.covers 0 a)).any (fun e => e.w && s.deviceOk (e.home a).1 && e.home a == (s.ownDev, 0)) && decide (a < 2 ^ 56) &&
    decide (line64 a = a) && !s.isLost s.ownDev && !s.guardHeld a true && s.stacksJoined 0 0 && ((s.core 0).l1Find a).isSome && s.lineReady 0 a

theorem save_one {s : State} {a cls : Nat} (h : saveHere s a = true) (bs : List Byte) :
    ∃ t, s.dirSetBlock 0 a bs none (some 0) cls = .ok t ∧ ∀ b, saveHere t b = saveHere s b := by
  simp only [saveHere, Bool.and_eq_true, decide_eq_true_eq, Bool.not_eq_true'] at h
  obtain ⟨⟨⟨⟨⟨⟨⟨he, ha⟩, hl⟩, hd⟩, hg⟩, hj⟩, h1⟩, h2⟩ := h
  obtain ⟨e, he, hw⟩ := (Option.any_eq_true _ _).mp he
  simp only [Bool.and_eq_true, beq_iff_eq] at hw
  obtain ⟨l, hf⟩ := Option.isSome_iff_exists.mp h1
  have hs : s.hitServed 0 a cls = true := by
    have hm := List.mem_of_find?_eq_some hf
    have hp := List.find?_some hf
    simp only [State.hitServed, Bool.or_eq_true]
    exact .inl (List.any_eq_true.mpr ⟨l, hm, hp⟩)
  have hr : s.reach 0 a true (some 0) cls = .ok (some 0, s) := by
    have hv := hw.1.2
    rw [hw.2] at hv
    have hw' : s.authorize 0 a (fun e => e.w) (some 0) = .ok (s.ownDev, 0) := by
      rw [State.authorize, if_neg (by omega)]
      simp [State.plbOf, he, hw.1.1, hw.2, hv]
    have hj' : s.stacksJoined (coreStack 0) (coreStack 0) = true := hj
    simp [State.reach, hw', hd, hg, State.fetchLine, hs, h2, hj']
  refine ⟨s.writeHome 0 a (bs.map some) cls, ?_, fun b => ?_⟩
  · simp [State.dirSetBlock, hr, hl]
  · have hfill : s.fillL1 0 a cls = s := by simp [State.fillL1, hf]
    simp only [State.writeHome, hfill]
    generalize hg' : (fun l : L1Line => if l.line == line64 a then
      ({ l with data := (bvWriteMasked l.data l.dirty (a % 64) (bs.map some)).1, dirty := (bvWriteMasked l.data l.dirty (a % 64) (bs.map some)).2 } : L1Line) else l) = g
    have hline : ∀ l : L1Line, (g l).line = l.line := by
      intro l; rw [← hg']; simp only []; split <;> rfl
    have hc : ((s.modCore 0 (fun c => { c with l1 := c.l1.map g })).core 0) = { s.core 0 with l1 := (s.core 0).l1.map g } := by
      simp
    unfold saveHere
    rw [hc]
    have hfind : (({ s.core 0 with l1 := (s.core 0).l1.map g } : Core).l1Find b).isSome = ((s.core 0).l1Find b).isSome := by
      simp only [Core.l1Find, List.find?_map, Option.isSome_map]
      congr 2
      funext l
      simp [hline]
    rw [hfind]
    rfl

/-- A save whose blocks all are at home is written whole. -/
theorem save_all {cls : Nat} : ∀ (l : List (List Byte)) (s : State) (a : Nat), (∀ i, i < l.length → saveHere s (a + 64 * i) = true) →
    ∃ t, s.writeSave 0 cls a l = .ok (t, none)
  | [], s, _, _ => ⟨s, rfl⟩
  | b :: l, s, a, h => by
    obtain ⟨t, ht, hb⟩ := save_one (cls := cls) (h 0 (by simp)) b
    obtain ⟨u, hu⟩ := save_all l t (a + 64) (fun i hi => by
      rw [hb, show a + 64 + 64 * i = a + 64 * (i + 1) by omega]
      exact h (i + 1) (by simpa using hi))
    exact ⟨u, by simpa [State.writeSave] using ht ▸ hu⟩
/-- A save whose blocks below 2^56 all are at home is written, as far as they go. -/
theorem save_any {cls : Nat} : ∀ (l : List (List Byte)) (s : State) (a : Nat), (∀ i, a + 64 * i < 2 ^ 56 → saveHere s (a + 64 * i) = true) →
    ∃ x, s.writeSave 0 cls a l = .ok x
  | [], s, _, _ => ⟨(s, none), rfl⟩
  | b :: l, s, a, h => by
    rcases Nat.lt_or_ge a (2 ^ 56) with ha | ha
    · obtain ⟨t, ht, hb⟩ := save_one (cls := cls) (h 0 ha) b
      obtain ⟨u, hu⟩ := save_any l t (a + 64) (fun i hi => by
        rw [hb, show a + 64 + 64 * i = a + 64 * (i + 1) by omega]
        exact h (i + 1) (by omega))
      exact ⟨u, by simpa [State.writeSave] using ht ▸ hu⟩
    · have h : s.reach 0 a true (some 0) cls = .error .rights := by rw [State.reach, State.authorize, if_pos ha]
      exact ⟨(s, some (a, 1)), by rw [State.writeSave, State.dirSetBlock, h]⟩

/-- The keeper evicts the actor of slot 1, with banks 1 and 15 of its core, to the last 400 blocks of the address space, whose lines all
are at home in core 0. -/
def saveAt : Nat := 2 ^ 56 - 64 * 400
def sEvict : State :=
  (sKeeper [(1, 0x10), (2, BitVec.ofNat 64 (saveAt + 0x3F)), (4, 2)] hSlot).modCore 0 (fun x => { x with
    plb := [{ page := 2 ^ 40 - 1, big := false, dom := 0, r := true, w := true, x := true, a := true, kind := .rc, hashed := false, hdev := 0, hcore := 0 }]
    l1 := (List.range 400).map (fun i => { line := saveAt + 64 * i, data := 0, leg := 0 }) })
def sEvictL2 : State :=
  { sEvict with l2 := (List.range 100).map (fun i => { line := saveAt + 256 * i, pa := 0, slice := sliceOf 0 (saveAt + 256 * i), data := 0, leg := #v[0, 0, 0, 0] }) }

theorem evict_home : ∀ i, i < 400 → saveHere sEvictL2.free.2 (saveAt + 64 * i) = true := by decide +kernel

/-- The save that AEVICT makes there is written whole. -/
theorem witness_ActorInstructions_save : (∀ l, ∃ x, sEvictL2.free.2.writeSave 0 0 saveAt l = .ok x) ∧
    ∀ l, l.length = 64 + 168 * 2 → ∃ t, sEvictL2.free.2.writeSave 0 0 saveAt l = .ok (t, none) :=
  ⟨fun l => save_any l _ _ (fun i hi => evict_home i (by unfold saveAt at hi; omega)),
   fun l hl => save_all l _ _ (fun i hi => evict_home i (by omega))⟩

theorem witness_ActorInstructions :
    (let tm : Team := tTwo
     let s := sKeeper [] hSlot
     let o : Op := { d := .reg 3, a := .reg 1 }
     s.calm 0 0 ∧ s.thread.guardBit o = true ∧ rdReg o.a s = .ok (0, s) ∧ s.mayRun 0xF9 = true ∧ s.teamOf 0 0 = some tm ∧ (0 : BitVec 64).toNat < tm.ngroup ∧
       tm.slotPlaces 0 = [(0, 1, 0)] ∧ (∀ x ∈ tm.slotPlaces 0, (x.1, x.2.1) ≠ (0, 0)) ∧
       (∀ x ∈ tm.slotPlaces 0, (s.slot x.1 x.2.1).ident.isSome = true → (s.slot x.1 x.2.1).halted = true) ∧
       (∀ x ∈ tm.slotPlaces 0, (s.slot x.1 x.2.1).ident = some { team := tm.handle, member := x.2.2, slot := x.2.1 } ∧ x.2.1 < 4 ∧ (s.slot x.1 x.2.1).guest = none)) ∧
    (let s := sKeeper [(1, 1)] hSlot
     rdReg (.reg 1) s = .ok (1, s) ∧ s.teamOf 0 0 = some tTwo ∧ tOne.ngroup ≤ (1 : BitVec 64).toNat) ∧
    (let a : BitVec 64 := 0x10
     let b : BitVec 64 := BitVec.ofNat 64 (saveAt + 0x3F)
     let s := sEvictL2
     let o : Op := { d := .reg 3, a := .reg 1, b := .reg 2, c := .reg 4 }
     let saved := (List.range 16).filter (fun j => j == (s.slot 0 1).act.mbox.toNat || (2 : BitVec 64).getLsbD j)
     s.calm 0 0 ∧ s.thread.guardBit o = true ∧ s.mayRun 0xFA = true ∧ adrCore a.toNat = 0 ∧ adrSlot a.toNat = 1 ∧ rdReg o.a s = .ok (a, s) ∧ rdReg o.b s = .ok (b, s) ∧
       rdReg o.c s = .ok (2, s) ∧ s.physAddress a = true ∧ (s.slot 0 1).guest = none ∧ (s.slot 0 1).ident = hSlot.ident ∧ (2 : BitVec 64).toNat < 2 ^ 16 ∧
       (2 : BitVec 64).getLsbD (s.slot 0 1).act.mbox.toNat = false ∧ (∀ j, j < 16 → (2 : BitVec 64).getLsbD j = true → s.isMailbox 0 j = false) ∧ saved = [1, 15] ∧
       (∀ j ∈ saved, (s.bank 0 j).spanned = false) ∧ (s.slot 0 1).halted = true ∧ (s.slot 0 1).sq = [] ∧ (s.slot 0 1).owed = [] ∧ (s.core 0).drains = [] ∧
       (∀ j ∈ saved, ((s.core 0).withoutSeq 1).held (j * 0x2000) 0x2000 true = false) ∧ (∀ e ∈ (s.slot 0 1).ni, e.isFlying = false) ∧
       (s.slot 0 0).regs.qos.toNat = 0 ∧ b.toNat / 64 * 64 = saveAt) := by
  refine ⟨?_, ?_, ?_⟩
  · (and_intros <;> first | decide +kernel | exact ans_ok (by decide +kernel) | exact err_of (by decide +kernel) | exact next_of (by decide +kernel) | exact exists_ok (by decide +kernel) | exact exists_some (by decide +kernel) | exact all_ok (by decide +kernel) | exact quiet_of (by decide +kernel) | exact exists2_ok (by decide +kernel) | exact exists_pair (by decide +kernel) | exact queued_of (by decide +kernel))
  · (and_intros <;> first | decide +kernel | exact ans_ok (by decide +kernel) | exact err_of (by decide +kernel) | exact next_of (by decide +kernel) | exact exists_ok (by decide +kernel) | exact exists_some (by decide +kernel) | exact all_ok (by decide +kernel) | exact quiet_of (by decide +kernel) | exact exists2_ok (by decide +kernel) | exact exists_pair (by decide +kernel) | exact queued_of (by decide +kernel))
  · (and_intros <;> first | decide +kernel | exact ans_ok (by decide +kernel) | exact err_of (by decide +kernel) | exact next_of (by decide +kernel) | exact exists_ok (by decide +kernel) | exact exists_some (by decide +kernel) | exact all_ok (by decide +kernel) | exact quiet_of (by decide +kernel) | exact exists2_ok (by decide +kernel) | exact exists_pair (by decide +kernel) | exact queued_of (by decide +kernel))

/-- The keeper over the tables of `sTables`, with words in the frame at 0x20000, which holds addresses 0 to 64 Ki. -/
def sFrame (s : State) (ws : List (Nat × Nat)) : State :=
  { s with ptroot := sTables.ptroot, hbm := ws.foldl (fun m e => Mem.setWord m (0x20000 + e.1) 8 e.2) sTables.hbm }
def aMark : AwayMark := { team := 7, member := 0, refused := [(0, 1, 2, 3)], ovf := 5 }
/-- A context of team 7, member 0, in K mode and ready, with no bank saved: its lines stand in the home core's caches. -/
def sContext : State :=
  let s := sFrame (sKeeper [(1, 0x10), (2, 0)] { away := some aMark }) []
  { s.modCore 0 (fun x => { x with l1 := (List.range 64).map (fun i =>
      { line := 64 * i, data := if i = 0 then 0x7000 + 3 * 2 ^ 64 + 0x40 * 2 ^ 128 else if i = 4 then 9 * 2 ^ 64 else 0, leg := 0 }) }) with
    l2 := (List.range 16).map (fun i => { line := 256 * i, pa := 0x20000 + 256 * i, slice := sliceOf 0 (256 * i), data := 0, leg := #v[0, 0, 0, 0] }) }

theorem witness_ActorInstructions_restore :
    (let s := sContext
     let o : Op := { d := .reg 3, a := .reg 1, b := .reg 2 }
     s.calm 0 0 ∧ s.thread.guardBit o = true ∧ s.mayRun 0xFB = true ∧ rdReg o.a s = .ok (0x10, s) ∧ rdReg o.b s = .ok (0, s) ∧ s.physAddress 0x10 = true ∧
       adrCore 0x10 = 0 ∧ adrSlot 0x10 = 1 ∧ (s.slot 0 1).away = some aMark) ∧
    (let s := sKeeper [(1, 0x10)] {}
     s.calm 0 0 ∧ rdReg (.reg 1) s = .ok (0x10, s) ∧ (s.slot 0 1).away = none) := by
  and_intros <;> first | decide +kernel | exact ans_ok (by decide +kernel) | exact err_of (by decide +kernel) | exact next_of (by decide +kernel) | exact exists_ok (by decide +kernel) | exact exists_some (by decide +kernel) | exact all_ok (by decide +kernel) | exact quiet_of (by decide +kernel) | exact exists2_ok (by decide +kernel) | exact exists_pair (by decide +kernel) | exact queued_of (by decide +kernel)

/-- A read whose lines all stand at their home leaves the state as it is. -/
def lineHere (s : State) (h : Nat) (p : Nat × Nat) : Bool :=
  (match s.authorize 0 p.1 (·.r) (some 0) with | .ok x => x.1 == s.ownDev && x.2 == h | .error _ => false) && !s.isLost s.ownDev && s.stacksJoined (coreStack 0) (coreStack h) &&
    !s.guardHeld p.1 false && s.lineReady h p.1 && ((s.core h).l1Find p.1).isSome

theorem readHome_here {s : State} {h a n cls : Nat} (hl : ((s.core h).l1Find a).isSome = true) : ∃ bs, s.readHome h a n cls = (bs, s) := by
  obtain ⟨l, e⟩ := Option.isSome_iff_exists.mp hl
  simp [State.readHome, State.fillL1, e]

theorem reach_here {s : State} {h cls : Nat} {p : Nat × Nat} (hp : lineHere s h p = true) : s.reach 0 p.1 false (some 0) cls = .ok (some h, s) := by
  simp only [lineHere, Bool.and_eq_true, Bool.not_eq_true'] at hp
  obtain ⟨⟨⟨⟨⟨ha, hl⟩, hj⟩, hg⟩, hr⟩, hi⟩ := hp
  split at ha
  · rename_i x e
    obtain ⟨d, c⟩ := x
    simp only [Bool.and_eq_true, beq_iff_eq] at ha
    have hs : s.hitServed h p.1 cls = true := by
      obtain ⟨l, hf⟩ := Option.isSome_iff_exists.mp hi
      simp only [State.hitServed, Bool.or_eq_true]
      have hp := List.find?_some hf
      exact .inl (List.any_eq_true.mpr ⟨l, List.mem_of_find?_eq_some hf, hp⟩)
    simp [State.reach, e, ha.1, ha.2, hl, hj, hg, State.fetchLine, hr, hs]
  · simp at ha

theorem dirRead_here {s : State} {h cls : Nat} (ps : List (Nat × Nat)) (hp : ps.all (lineHere s h) = true) (bs : List Byte) :
    ∃ r, ps.foldl (fun acc p =>
      match acc with
      | .error e => .error e
      | .ok (bs, s) =>
        match s.reach 0 p.1 false (some 0) cls with
        | .error d => .error (d, p.1)
        | .ok (some h, s1) => let (x, s2) := s1.readHome h p.1 p.2 cls; .ok (bs ++ x, s2)
        | .ok (none, s1) => let (x, s2) := s1.freeBytes p.2; .ok (bs ++ x, s2)) (.ok (bs, s) : Except (Denied × Nat) (List Byte × State)) = .ok (bs ++ r, s) := by
  induction ps generalizing bs with
  | nil => exact ⟨[], by simp⟩
  | cons p ps ih =>
    rw [List.all_cons, Bool.and_eq_true] at hp
    have hl : ((s.core h).l1Find p.1).isSome = true := by
      have := hp.1; simp only [lineHere, Bool.and_eq_true] at this; exact this.2
    obtain ⟨x, hx⟩ := readHome_here (n := p.2) (cls := cls) hl
    obtain ⟨r, hr⟩ := ih hp.2 (bs ++ x)
    refine ⟨x ++ r, ?_⟩
    rw [List.foldl_cons]
    simp only [reach_here hp.1, hx]
    rw [hr, List.append_assoc]

/-- The first line of the context. -/
def firstLine : List Byte := (sContext.readHome 0 0 64 0).1

theorem context_facts : (lineHere sContext 0 (0, 64) && (cutAt 64 65 64 4032).all (lineHere sContext 0) && decide (firstLine.length = 64) &&
    decide (wordAt firstLine 0 8 = 0x7000) && sContext.poison.isEmpty) = true := by decide +kernel

theorem witness_ActorInstructions_context : ∃ ctx, loadSys 0 0x1000 sContext = .ok (ctx, sContext) ∧ bitsOf (wordAt ctx 0 8) 27 12 = aMark.team ∧
    bitsOf (wordAt ctx 0 8) 39 28 = aMark.member ∧ maskBanks (bitsOf (wordAt ctx 0 8) 57 42) = [] := by
  have q := context_facts
  simp only [Bool.and_eq_true, decide_eq_true_eq] at q
  obtain ⟨⟨⟨⟨q1, q2⟩, q3⟩, q4⟩, q5⟩ := q
  have hl : ((sContext.core 0).l1Find 0).isSome = true := by
    have := q1; simp only [lineHere, Bool.and_eq_true] at this; exact this.2
  obtain ⟨x, hx⟩ := readHome_here (n := 64) (cls := 0) hl
  have hf : firstLine = x := by rw [firstLine, hx]
  obtain ⟨r, hr⟩ := dirRead_here (cls := 0) (cutAt 64 65 64 4032) q2 x
  have hw : wordAt (x ++ r) 0 8 = 0x7000 := by
    rw [← q4, hf]
    rw [hf] at q3
    simp only [wordAt, List.drop_zero]
    rw [List.take_append_of_le_length (by omega)]
  have h : loadSys 0 0x1000 sContext = .ok (x ++ r, sContext) := by
    have hd : sContext.dirRead 0 0 0x1000 (some 0) 0 = .ok (x ++ r, sContext) := by
      have hp : parts64 0 0x1000 = (0, 64) :: cutAt 64 65 64 4032 := rfl
      unfold State.dirRead
      rw [hp, List.foldl_cons]
      simp only [reach_here q1, hx, List.nil_append]
      exact hr
    have hq : sContext.poison = [] := List.isEmpty_iff.mp q5
    unfold loadSys
    rw [if_neg (by decide), hq, show sContext.at_.1 = 0 from rfl, show (sContext.slot 0 sContext.at_.2).regs.qos.toNat = 0 from rfl, hd]
    rfl
  exact ⟨_, h, by rw [hw]; rfl, by rw [hw]; rfl, by rw [hw]; rfl⟩

/-- The keeper with a team descriptor at address 0x1000: one core, domain 1, one template at 0x3000, bank images at 0x2000. The
lines stand in the home core's caches, with word 2 of the descriptor w. -/
def sLaunch (w : Nat) : State :=
  let s := sFrame (sKeeper [(1, 0x1000)] {}) []
  let htab := (List.range 8).foldl (fun d i => d + 0x000F0100 * 2 ^ (64 * i)) 0
  let lines : List (Nat × Nat) := [(0x1000, 2 ^ 64 + w * 2 ^ 128 + 0x2000 * 2 ^ 192 + 0x3000 * 2 ^ 320), (0x1040, 0), (0x2000, 0), (0x2040, 0), (0x3000, 0), (0x3040, htab), (0x3080, htab)]
  { s.modCore 0 (fun x => { x with l1 := lines.map (fun l => { line := l.1, data := BitVec.ofNat 512 l.2, leg := 0 }) }) with
    hbm := Mem.setWord s.hbm 64 8 0x8000000000002000
    l2 := [0x1000, 0x2000, 0x3000].map (fun a => { line := a, pa := 0x20000 + a, slice := sliceOf 0 a, data := 0, leg := #v[0, 0, 0, 0] }) }

/-- What KLAUNCH reads is an image that the scheduler refuses with r, or accepts, and D takes the answer. -/
def launchOk (r : Nat) (im : Option TeamImage) (t : State) : Bool :=
  match t.launchCheck im with
  | .error e => e == r && (dstX (.reg 3) (BitVec.ofNat 64 (2 ^ 63 + r)) t).toOption.isSome
  | .ok tm => r == 0 && (dstX (.reg 3) (BitVec.ofNat 64 tm.handle) { t with
      nextId := t.nextId + 1, nextHandle := (tm.handle + 1) % 65536, teams := t.teams.filter (fun x => x.handle != tm.handle) ++ [{ tm with queuedAt := t.nextId }], port := { t.port with launched := true } }).toOption.isSome

theorem witness_ActorInstructions_launch :
    (let s := sLaunch 0
     let o : Op := { d := .reg 3, a := .reg 1 }
     s.calm 0 0 ∧ s.thread.guardBit o = true ∧ s.mayRun 0xFC = true ∧ rdReg o.a s = .ok (0x1000, s) ∧ (0x1000 : BitVec 64).toNat < 2 ^ 56 ∧ (0x1000 : BitVec 64).toNat % 64 = 0) ∧
    (∃ im t, readTeam 0x1000 (sLaunch 0) = .ok (im, t) ∧ launchOk 0 im t = true) ∧
    (∃ im t, readTeam 0x1000 (sLaunch 1) = .ok (im, t) ∧ launchOk 1 im t = true) := by
  refine ⟨?_, exists_read (by decide +kernel), exists_read (by decide +kernel)⟩
  (and_intros <;> first | decide +kernel | exact ans_ok (by decide +kernel) | exact err_of (by decide +kernel) | exact next_of (by decide +kernel) | exact exists_ok (by decide +kernel) | exact exists_some (by decide +kernel) | exact all_ok (by decide +kernel) | exact quiet_of (by decide +kernel) | exact exists2_ok (by decide +kernel) | exact exists_pair (by decide +kernel) | exact queued_of (by decide +kernel))

theorem witness_Preemption :
    (∀ scope arg, scope ∈ [0, 1, 2, 3] → arg = (if scope = 0 then 7 else 0) →
      let s := sKeeper [] hSlot
      scope < 4 ∧ s.port.preempts.contains ⟨scope, arg⟩ = false ∧ s.inScope ⟨scope, arg⟩ 0 0 = true ∧ s.inScope ⟨scope, arg⟩ 0 1 = true) ∧
    (let s := { sKeeper [] hSlot with port := { preempts := [⟨3, 0⟩] } }
     s.port.preempts.contains ⟨3, 0⟩ = true ∧ s.inScope ⟨3, 0⟩ 0 1 = true ∧ (∀ q ∈ s.port.preempts, q ≠ ⟨3, 0⟩ → s.inScope q 0 1 = false) ∧ (s.slot 0 1).killed = false ∧
       ∀ o ∈ (s.slot 0 1).owed, o.allBack = false) ∧
    (let o : Owed := { rid := 1, addr := 0, dst := .x 31 8, kinds := [.rc], tgts := [], got := [none] }
     o.allBack = false) ∧
    (let r : SfrqRec := { addr := 0x40, pc := 0, kind := 0, reason := 1, size := 8 }
     let s := sKeeper [] { hSlot with halted := false, status := .ready, sfrq := [r], regs := { kvec := 0x1000 } }
     (s.slot 0 1).haltReq = true ∧ (s.slot 0 1).comb = [] ∧ (s.slot 0 1).halted = false ∧ (s.slot 0 1).ident.isSome = true ∧ s.quiet 0 1 = true ∧ s.net = [] ∧ (s.slot 0 1).killed = false ∧
       (s.slot 0 1).dying = false ∧ (s.slot 0 1).sfrq[(s.slot 0 1).sfReported]? = some r ∧ (s.slot 0 1).atBoundary = true ∧ (s.slot 0 1).doubleFault (s.slot 0 1).thr.pc = false) ∧
    (let s := sKeeper [] { hSlot with halted := false, status := .ready, seqFault := some (.rights, 0x1FFFF), regs := { kvec := 0x1000 } }
     (s.slot 0 1).haltReq = true ∧ (s.slot 0 1).comb = [] ∧ (s.slot 0 1).halted = false ∧ (s.slot 0 1).ident.isSome = true ∧ s.quiet 0 1 = true ∧ s.net = [] ∧ (s.slot 0 1).killed = false ∧
       (s.slot 0 1).sfPending = false ∧ (s.slot 0 1).dying = false ∧ (s.slot 0 1).seqFault = some (.rights, 0x1FFFF) ∧ (s.slot 0 1).doubleFault (s.slot 0 1).thr.pc = false) ∧
    (∀ killed, let s := sKeeper [] { hSlot with halted := false, killed }
     (s.slot 0 1).haltReq = true ∧ (s.slot 0 1).comb = [] ∧ (s.slot 0 1).halted = false ∧ (s.slot 0 1).ident.isSome = true ∧ s.quiet 0 1 = true ∧ s.net = [] ∧ (s.slot 0 1).sfPending = false ∧ (s.slot 0 1).seqFault = none ∧ (s.slot 0 1).killed = killed) := by
  refine ⟨fun scope arg hs ha => ?_, ?_, ?_, ?_, ?_, ?_⟩
  · subst ha
    simp only [List.mem_cons, List.not_mem_nil, or_false] at hs
    rcases hs with rfl | rfl | rfl | rfl <;> (and_intros <;> first | decide +kernel | exact ans_ok (by decide +kernel) | exact err_of (by decide +kernel) | exact next_of (by decide +kernel) | exact exists_ok (by decide +kernel) | exact exists_some (by decide +kernel) | exact all_ok (by decide +kernel) | exact quiet_of (by decide +kernel) | exact exists2_ok (by decide +kernel) | exact exists_pair (by decide +kernel) | exact queued_of (by decide +kernel))
  · (and_intros <;> first | decide +kernel | exact ans_ok (by decide +kernel) | exact err_of (by decide +kernel) | exact next_of (by decide +kernel) | exact exists_ok (by decide +kernel) | exact exists_some (by decide +kernel) | exact all_ok (by decide +kernel) | exact quiet_of (by decide +kernel) | exact exists2_ok (by decide +kernel) | exact exists_pair (by decide +kernel) | exact queued_of (by decide +kernel))
  · rfl
  · decide +kernel
  · (and_intros <;> first | decide +kernel | exact ans_ok (by decide +kernel) | exact err_of (by decide +kernel) | exact next_of (by decide +kernel) | exact exists_ok (by decide +kernel) | exact exists_some (by decide +kernel) | exact all_ok (by decide +kernel) | exact quiet_of (by decide +kernel) | exact exists2_ok (by decide +kernel) | exact exists_pair (by decide +kernel) | exact queued_of (by decide +kernel))
  · decide +kernel

/-- Team 7 as the scheduler holds it, of two cores side by side. -/
def tPair (st : TeamState) : Team :=
  { tOne with st, w := 2, place := if st == .resident then some { planes := [0], x := 30, y := 31 } else none
              saves := if st == .swapped then (List.range 2).map (fun m => (m, { slots := Vector.replicate 4 {}, queues := Vector.replicate 8 [], qerr := 0, qbad := [], qfault := [], cards := [], mem := [(m, 9)]
                                                                                 leg := [], banks := Vector.replicate 16 {}, mu := {}, deque := [], streams := Vector.replicate 4 {} })) else [] }
def sTeam (t : Team) (slots : Slot) (preempts : List Preempt := []) : State :=
  { cores := [(1022, { slots := #v[slots, {}, {}, {}], mem := [(0, 1)] })], teams := [t], port := { preempts } }

theorem witness_TeamEvents :
    (let tm := tPair .queued
     let s := sTeam tm {}
     s.team 7 = some tm ∧ tm.st = .queued ∧ s.canPlace tm (tm.placeOf (31 * 32 + 30)) = true ∧ s.turnOf 7 = true ∧ lget none tm.tmpls 0 ≠ none ∧ tm.size = 2 ∧
       (let p := tm.placeOf (31 * 32 + 30)
        ((List.range tm.size).foldlM (fun (s' : State) m => s'.launchCore tm m (tm.coreAt p m) (s.kvecOf tm.domain).1) (s.kvecOf tm.domain).2).toOption.isSome = true)) ∧
    (let tm := { tPair .resident with retired := [(0, 0), (1, 0)] }
     let s := sTeam tm {}
     s.team 7 = some tm ∧ tm.st = .resident ∧ (∀ x ∈ tm.usedSlots, x ∈ tm.retired) ∧ tm.cores = [1022, 1023] ∧ (∀ c ∈ tm.cores, s.coreQuiet c = true)) ∧
    (let tm := tPair .resident
     let s := sTeam tm { ident := some { team := 7, member := 0, slot := 0 }, halted := true, haltReq := true } [⟨0, 7⟩]
     s.team 7 = some tm ∧ tm.st = .resident ∧ s.port.preempts.contains { scope := 0, arg := 7 } = true ∧ (∀ c ∈ tm.cores, s.coreHalted 7 c = true) ∧
       tm.coreOfMember 1 = some 1023) ∧
    (let tm := tPair .swapped
     let s := sTeam tm {}
     s.team 7 = some tm ∧ tm.st = .swapped ∧ s.canPlace tm (tm.placeOf (31 * 32 + 30)) = true ∧ s.turnOf 7 = true ∧ (tm.saves.map Prod.fst).Nodup ∧ (∀ e ∈ tm.saves, e.1 < tm.size) ∧
       tm.saves.length = 2) ∧
    (let s := { sTeam (tPair .resident) {} with port := { quantumLeft := 0 } }
     s.port.quantumLeft = 0 ∧ ∀ t ∈ s.teams, t.st ≠ .queued ∧ t.st ≠ .swapped) ∧
    (let s := { sTeam (tPair .resident) {} with teams := [tPair .resident, { tPair .queued with handle := 8, queuedAt := 5 }], port := { quantumLeft := 0, quantum := 9, count := 9 } }
     s.port.quantumLeft = 0 ∧ s.port.quantum.toNat ≤ (s.port.count - (tPair .resident).since).toNat) := by
  and_intros <;> first | decide +kernel | exact ans_ok (by decide +kernel) | exact err_of (by decide +kernel) | exact next_of (by decide +kernel) | exact exists_ok (by decide +kernel) | exact exists_some (by decide +kernel) | exact all_ok (by decide +kernel) | exact quiet_of (by decide +kernel) | exact exists2_ok (by decide +kernel) | exact exists_pair (by decide +kernel) | exact queued_of (by decide +kernel)

/-- A device that master 0 owns with nonce 5. -/
def sOwned (port : Port := {}) : State := { port := { port with own := { port.own with owner := some (0, 5) } } }

/-- A device that refuses rebalancing steps, whose cores all run at 3.2 GHz. -/
def sSlow : State := { (sOwned { power := true }) with cores := (List.range 4096).map (fun c => (c, { clock := 3200 })) }

theorem aget_has {α : Type} {P : α → Prop} {d : α} {a : Nat} (l : List (Nat × α)) (h : ∀ e ∈ l, P e.2) (ha : a ∈ l.map Prod.fst) : P (aget d l a) := by
  induction l with
  | nil => cases ha
  | cons e l ih =>
    obtain ⟨k, v⟩ := e
    unfold aget
    split
    · exact h (k, v) (by simp)
    · rename_i hne
      refine ih (fun e he => h e (by simp [he])) ?_
      simp only [List.map_cons, List.mem_cons] at ha
      rcases ha with rfl | ha
      · simp at hne
      · exact ha

theorem witness_DeviceEvents_clocks : ∀ c, c < 4096 → (sSlow.core c).clock ≤ 3200 := fun c hc =>
  aget_has (P := fun x : Core => x.clock ≤ 3200) sSlow.cores (fun e he => by
    simp only [sSlow, List.mem_map] at he
    obtain ⟨i, -, rfl⟩ := he
    simp) (by simp [sSlow, Function.comp_def, hc])

theorem witness_DeviceEvents :
    (∀ e ∈ [(0, 4096), (1, 256), (2, 512), (3, 256), (4, 4096), (5, 1)],
      (e.1 * 4096) / 4096 = e.1 ∧ (e.1 * 4096) % 4096 < unitCount e.1 ∧ (e.1 * 4096 + (e.2 - 1)) / 4096 = e.1 ∧ (e.1 * 4096 + (e.2 - 1)) % 4096 < unitCount e.1) ∧
    (∀ unc, let x : UnitTest := { kind := 3, num := 255, addr := 0x1FFFF, unc, count := 9 }
     let s : State := { port := { tests := [x] } }
     s.port.tests[0]? = some x ∧ x.kind < 4) ∧
    (4 ≤ (5 * 4096) / 4096 ∧ 2 ^ 56 - 1 < 2 ^ 56) ∧
    (let s : State := {}
     255 < 256 ∧ 255 ≠ s.ownDev ∧ s.isLost 255 = false ∧ (∀ p ∈ s.net, p.dev ≠ 255)) ∧
    (let s := sOwned { lostDevs := [3, 4] }
     s.port.own.owner.isSome = true) ∧
    (let s := sOwned { power := true }
     s.port.power = true ∧ 4095 < 4096 ∧ 3300 ≤ (s.core 4095).clock) ∧
    (let s := sSlow
     s.port.power = true ∧ 0 < (15 * 256 + 255) / 256 ∧ (15 * 256 + 255) / 256 < (s.channel ((15 * 256 + 255) % 256)).limit) ∧
    (let s := sOwned { leaseCount := 1000000001 }
     s.port.own.owner = some (0, 5) ∧ s.port.own.lease.ult s.port.leaseCount = true) ∧
    (let s := sOwned { leaseCount := 1000000000 }
     s.port.own.lease.ult s.port.leaseCount = false) ∧
    (∀ m ∈ [0, 2, 0x100, 0x1FF], isMaster m = true) := by
  and_intros <;> first | decide +kernel | exact ans_ok (by decide +kernel) | exact err_of (by decide +kernel) | exact next_of (by decide +kernel) | exact exists_ok (by decide +kernel) | exact exists_some (by decide +kernel) | exact all_ok (by decide +kernel) | exact quiet_of (by decide +kernel) | exact exists2_ok (by decide +kernel) | exact exists_pair (by decide +kernel) | exact queued_of (by decide +kernel)

theorem witness_CommandNumbers :
    (∀ m ∈ [0, 2, 0x100, 0x1FF], ({} : State).heard m) ∧
    (let s := sOwned { masters := [(0, { cmdseq := 5 })] }
     let last := (s.port.master 0).cmdseq
     s.heard 0 ∧ (s.port.contest.isSome && s.isOwner 0) = false ∧ (∀ n ∈ [5, 0x80000006], let q := BitVec.ofNat 32 n; q ≠ last + 1 ∧ (last - q).toNat < 2 ^ 31) ∧ (∀ n ∈ [7, 0x80000005], let q := BitVec.ofNat 32 n; q ≠ last + 1 ∧ 2 ^ 31 ≤ (last - q).toNat) ∧
       (6 : BitVec 32) = last + 1 ∧ 4096 < 4097 ∧ ∃ n, s.port.own.owner = some (0, n)) := by
  refine ⟨fun m hm => ?_, ?_⟩
  · simp only [List.mem_cons, List.not_mem_nil, or_false] at hm
    rcases hm with rfl | rfl | rfl | rfl <;> exact ⟨by decide, by decide, by decide⟩
  · refine ⟨⟨by decide, by decide, by decide⟩, by decide, by decide +kernel, by decide +kernel, by decide, by decide, 5, rfl⟩

/-- The next command of master 0, with its words and payload. -/
def cmdOf (a0 a1 a2 : BitVec 64) (payload : List Byte := []) : HostCmd := { master := 0, seq := 1, len := payload.length, a0, a1, a2, payload }

theorem witness_HostCommands :
    (∀ a b c : BitVec 64, ∀ bs : List Byte, bs.length ≤ 4096 → (sOwned).nextCommand (cmdOf a b c bs)) ∧
    (let c := cmdOf 0 0x3F 2
     let u := ({ (sOwned) with ptroot := sTables.ptroot, hbm := sTables.hbm } : State).taken c
     c.a0.toNat < 4096 ∧ c.a1.toNat < 2 ^ 56 ∧ 1 ≤ c.a2.toNat ∧ c.a2.toNat ≤ 4096 ∧ c.payload.length = c.len ∧ c.len = 0 ∧
       (let v := (parts64 0x3F 2).foldl (fun v p => v.portFill 0 p.1) u
        v.firstDenied 0 0x3F 2 false = none ∧ v.firstLost 0 0x3F 2 = none ∧ ∃ s1, v.reachAll 0 0x3F 2 false = .ok s1 ∧ (s1.dirRead 0 0x3F 2).toOption.isSome = true)) ∧
    (let c := cmdOf 0 0x3F 2 [1, 2]
     let u := ({ (sOwned) with ptroot := sTables.ptroot, hbm := sTables.hbm } : State).taken c
     c.len = c.a2.toNat ∧ (let v := (parts64 0x3F 2).foldl (fun v p => v.portFill 0 p.1) u
       v.firstDenied 0 0x3F 2 true = none ∧ v.firstLost 0 0x3F 2 = none ∧ ∃ s1, v.reachAll 0 0x3F 2 true = .ok s1 ∧ (s1.dirWrite 0 65 0x3F c.payload).toOption.isSome = true)) ∧
    (let c := cmdOf 0x3FFFF 0 0 (List.replicate 32 9)
     c.len = 32 ∧ c.payload.length = 32 ∧ c.a0.toNat < 2 ^ 28 ∧ ((sOwned).taken c).addressOk 0 c.a0.toNat = true) ∧
    (({} : State).port.own.owner = none ∧ ({} : State).nextCommand (cmdOf 0xFFFFFFFF 0 0) ∧ (0xFFFFFFFF : BitVec 64).toNat < 2 ^ 32) ∧
    ((sOwned).port.own.owner = some (0, 5) ∧ (cmdOf 0 0 0).len = 0 ∧ (sOwned).nextCommand { cmdOf 0 0 0 with master := 1 } ∧ (0 : Nat) ≠ 1) ∧
    (let s := sOwned { claimed := some (0, [(0, 1)]) }
     s.port.own.owner = some (0, 5) ∧ s.port.contest = some [(0, 1)] ∧ s.nextCommand { cmdOf 9 0 0 with master := 1 } ∧ (0 : Nat) < 1) ∧
    (let s : State := { (sOwned) with port := { claimed := some (0, [(1, 1)]), own := { (sOwned).port.own with owner := some (1, 5) } } }
     s.port.own.owner = some (1, 5) ∧ s.port.contest = some [(1, 1)] ∧ s.nextCommand (cmdOf 9 0 0) ∧ (0 : Nat) < 1) ∧
    (∀ n, (sOwned).port.own.owner ≠ some (1, n)) := by
  refine ⟨fun a b c bs h => ⟨⟨rfl, fun _ => rfl, by simp [sOwned]⟩, rfl, rfl, h⟩, ?_, ?_, ?_, ?_, ?_, ?_, ?_, ?_⟩
  · refine ⟨by decide, by decide, by decide, by decide, by decide, by decide, by decide +kernel, by decide +kernel, ?_⟩
    exact exists_okP (e := State.reachAll _ _ _ _ _) (f := fun (s1 : State) => (s1.dirRead 0 0x3F 2).toOption.isSome) (by decide +kernel)
  · refine ⟨by decide, by decide +kernel, by decide +kernel, ?_⟩
    exact exists_okP (e := State.reachAll _ _ _ _ _) (f := fun (s1 : State) => (s1.dirWrite 0 65 0x3F [1, 2]).toOption.isSome) (by decide +kernel)
  · (and_intros <;> first | decide +kernel | exact ans_ok (by decide +kernel) | exact err_of (by decide +kernel) | exact next_of (by decide +kernel) | exact exists_ok (by decide +kernel) | exact exists_some (by decide +kernel) | exact all_ok (by decide +kernel) | exact quiet_of (by decide +kernel) | exact exists2_ok (by decide +kernel) | exact exists_pair (by decide +kernel) | exact queued_of (by decide +kernel))
  · exact ⟨by decide, ⟨⟨by decide, by decide, by decide⟩, by decide, by decide, by decide⟩, by decide⟩
  · exact ⟨by decide, by decide, ⟨⟨by decide, by decide, by decide⟩, by decide, by decide, by decide⟩, by decide⟩
  · exact ⟨by decide, by decide, ⟨⟨by decide, by decide, by decide⟩, by decide, by decide, by decide⟩, by decide⟩
  · exact ⟨by decide, by decide, ⟨⟨by decide, by decide, by decide⟩, by decide, by decide, by decide⟩, by decide⟩
  · intro n h
    exact absurd (congrArg (fun o => o.map Prod.fst) h) (by simp [sOwned])

theorem witness_HostCommands_owner :
    (let s := sOwned
     s.port.own.owner = some (0, 5) ∧ isMaster 2 = true ∧ (s.taken (cmdOf 2 0 0)).port.isConnected 2 = true ∧ (2 : BitVec 64).toNat < 2 ^ 16) ∧
    (1 : BitVec 64) ≠ 0 ∧
    (∀ a1 ∈ [0, 1], let s := sOwned
     let c := cmdOf 0 (BitVec.ofNat 64 a1) 0 [7]
     1 ≤ c.len ∧ c.payload.length = c.len ∧ s.port.running = none ∧ c.a0.toNat = s.port.image.length ∧ s.port.image.length + c.len ≤ 0x1000000) ∧
    (let s := sOwned { running := some 77, lifecycle := 1 }
     s.port.running = some 77 ∧ s.port.lifecycle = 1 ∧ (0xFFFFFFFF : BitVec 64).toNat < 2 ^ 32) ∧
    (∀ l ∈ [0, 2, 3], (sOwned { lifecycle := BitVec.ofNat 2 l }).port.lifecycle ≠ 1) ∧
    (let s := sOwned
     let bs : List Byte := List.replicate 31 0 ++ [1] ++ List.replicate 31 0 ++ [30] ++ List.replicate 32 15
     let c := cmdOf 0 0 0 bs
     let x : PartChange := { map := c.payload, master := c.master, seq := c.seq }
     c.len = 96 ∧ c.payload.length = 96 ∧ s.port.parts = [] ∧ s.mapBad x = false ∧ s.movingClusters x = [31] ∧ s.teamsMoving (s.movingClusters x) = [] ∧
       (∀ d, s.accessesUnder (.dom d) = false) ∧ s.l2 = []) ∧
    (∀ n ∈ [1, 4095], 1 ≤ (BitVec.ofNat 64 n).toNat ∧ (BitVec.ofNat 64 n).toNat < 4096 ∧ (15 : BitVec 64).toNat < 16) ∧
    ((0xFFFE : BitVec 64).toNat < 2 ^ 16 ∧ (0xFFFE : BitVec 64).getLsbD 0 = false) ∧ (1 ≤ (0xFFFFFFFF : BitVec 64).toNat ∧ (0xFFFFFFFF : BitVec 64).toNat < 2 ^ 32) ∧
    ((255 : BitVec 64).toNat < 256 ∧ (sOwned).port.launched = false) ∧
    (let e : Event := { seq := 9, evt := 1, cseq := 0, status := 0, master := 0, b0 := 0, b1 := 0, payload := [] }
     let s := sOwned { masters := [(0, { evseq := 9, ring := [e] })] }
     let c := cmdOf 9 0x7FFFFFFF 0
     c.len = 0 ∧ c.a0.toNat ≤ c.a1.toNat ∧ c.a1.toNat < 2 ^ 31 ∧ (∃ e ∈ (s.port.master c.master).ring, e.seq = c.a0.setWidth 32)) := by
  and_intros <;> first | decide +kernel | exact fun _ => rfl

theorem witness_HostCommands_actor :
    ∀ dom ∈ [0, 1], ∀ n ∈ [1, 0xFFFFFFFF],
      let a0 := BitVec.ofNat 64 n
      let m : Msg := { source := 0, dest := 0x8000000, payload := 0x31 + a0.setWidth 256 <<< 64, dom }
      let p := { pkt (.msg m 3) with core := 0xFFE }
      let s := sPkt {} p
      s.packetAt 0 = some p ∧ p.body = .msg m 3 ∧ p.dev = s.ownDev ∧ m.dest.getLsbD 27 = true ∧ s.msgBehind 0 p = false ∧ m.dest.toNat % 16 = 0 ∧
        m.payload.setWidth 16 = (0x31 : BitVec 16) ∧ m.payload.extractLsb' 16 48 = (0 : BitVec 48) ∧ m.payload.extractLsb' 128 128 = (0 : BitVec 128) ∧
        m.payload.extractLsb' 64 64 = a0 ∧ 1 ≤ a0.toNat ∧ a0.toNat < 2 ^ 32 := by decide +kernel

/-- Slot 0 of core 0 with one block of code in its instruction cache, at an address, granted. -/
def sCode (pc : BitVec 64) (data : Nat) (granted : Bool := true) : State :=
  { onCore { slots := #v[{ thr := { thrOf [] with pc }, status := .ready }, {}, {}, {}]
             icache := [{ block := pc.toNat / 32 * 32, dom := 0, data := BitVec.ofNat 256 data }] } with granted }
def wAdd : Nat := 0x0000004007820404
def iAdd : Instr := .add { d := .reg 1, a := .reg 2, b := .reg 30, t := 1 }

theorem witness_StepRunsDecoded :
    (∀ pc ∈ [0, 24], let s := sCode (BitVec.ofNat 64 pc) (wAdd * 2 ^ (8 * pc))
     s.granted = true ∧ s.cur = .slot 0 0 ∧ ((s.slot 0 0).sfPending && !(s.slot 0 0).draining) = false ∧ (s.slot 0 0).seqFault = none ∧ s.guardStalls 0 0 = false ∧
       s.thread.pc.toNat = pc ∧ (s.core 0).icache.find? (fun b => b.block == pc / 32 * 32 && b.dom == s.checkDom 0 0) = (s.core 0).icache.head? ∧
       (s.core 0).icache.length = 1 ∧ s.poison = []) ∧
    (let s := sCode 24 (wAdd * 2 ^ 192)
     let s1 := sCode 24 (wAdd * 2 ^ 192) false
     fetchBytes { s with granted := false } = .ok (natToBytes 8 wAdd, s1) ∧ s1.cur = s.cur ∧ decodeBlock .core (natToBytes 8 wAdd) = .ok (iAdd, 8) ∧
       (∃ e, opOf iAdd = some e ∧ (decide (e.1 = 1) && (rowOf e.1).any s1.allowed) = true) ∧ s1.breakHits 0 0 s1.thread.pc = []) ∧
    decodeBlock .core (natToBytes 8 0x00000400000003CC) = .ok (.kret { m := 1 }, 8) ∧ opOf (.kret { m := 1 }) = some (0xF3, { m := 1 }) ∧
    (∃ r, rowOf 0xF3 = some r ∧ (!(sCode 24 (wAdd * 2 ^ 192) false).allowed r) = true) ∧
    decodeBlock .core (natToBytes 8 0) = .error (.illegal 0) ∧ (let w := wAdd + 1; decodeBlock .core (natToBytes 8 w) = .error (.boundary (BitVec.ofNat 64 (w % 2 ^ 32)))) := by
  and_intros <;> first | decide +kernel | exact ans_ok (by decide +kernel) | exact dec_ok (by decide +kernel) | exact exists_someP (by decide +kernel) | rfl

theorem witness_StepRunsDecoded_others :
    (let s : State := { cur := .svc 255, granted := true, svcs := [(255, { thr := { thrOf [] with pc := 0x3FFF8 }, mem := Mem.setWord [] 0x3FFF8 8 wAdd })] }
     let held : Svc := { (s.svc 255) with code := some (0x3FFE0, Mem.readN (s.svc 255).mem 0x3FFE0 32) }
     let u : State := { s with svcs := [(255, held)] }
     let bs := natToBytes 8 wAdd
     (∀ x ∈ [s, u], x.granted = true ∧ x.cur = .svc 255 ∧ x.thread.pc.toNat = 0x3FFF8 ∧ fetchBytes { x with granted := false } = .ok (bs, { u with granted := false })) ∧
       decodeBlock .deep bs = .ok (iAdd, 8) ∧ (∃ e, opOf iAdd = some e ∧ (rowOf e.1).any (·.deep) = true) ∧
       (s.svc 255).rowHeld 0x3FFE0 32 false = false ∧ s.poison = [] ∧ (s.svc 255).code = none ∧ (u.svc 255).code.map Prod.fst = some (0x3FFF8 / 32 * 32)) ∧
    (decodeBlock .deep (natToBytes 8 0) = .error (.illegal 0) ∧ (let w := wAdd + 1; decodeBlock .deep (natToBytes 8 w) = .error (.boundary (BitVec.ofNat 64 (w % 2 ^ 32))))) ∧
    (∀ n ∈ [0, 1], let s : State := { cur := .svc 255, granted := true, svcs := [(255, { thr := { thrOf [] with pc := 0x20 }, mem := Mem.setWord [] 0x20 8 n })] }
     ∃ bs t, fetchBytes { s with granted := false } = .ok (bs, t) ∧ decide (t.cur = s.cur) = true) ∧
    (let s : State := { agenda := [.event .quantumExpiry, .host { opc := 0x41 }] }
     s.granted = false ∧ s.agenda = .event .quantumExpiry :: [.host { opc := 0x41 }] ∧ opOf .quantumExpiry = none) ∧
    (∀ n ∈ [0x01, 0x02, 0x03, 0x10, 0x11, 0x12, 0x13, 0x20, 0x21, 0x22, 0x23, 0x24, 0x30, 0x31, 0x32, 0x40, 0x41],
      let s : State := { agenda := [.host { opc := BitVec.ofNat 16 n }] }
      s.granted = false ∧ s.masterUp 0 = true ∧ s.port.held = [] ∧ s.agenda = .host { opc := BitVec.ofNat 16 n } :: [] ∧ (BitVec.ofNat 16 n).toNat = n) := by
  and_intros <;> first | decide +kernel | exact dec_ok (by decide +kernel) | exact exists_someP (by decide +kernel) |
    (intro n hn; simp only [List.mem_cons, List.not_mem_nil, or_false] at hn; rcases hn with rfl | rfl <;> exact exists_read (by decide +kernel)) |
    (intro x hx; simp only [List.mem_cons, List.not_mem_nil, or_false] at hx; rcases hx with rfl | rfl <;> exact ⟨by decide +kernel, by decide +kernel, by decide +kernel, ans_ok (by decide +kernel)⟩)

theorem witness_EncodeThenDecode :
    (iAdd.wf .core = true ∧ (opOf iAdd).isSome = true ∧ iAdd.wf .deep = true) ∧
    (∀ i ∈ [Instr.add { len := .w96, d := .reg 31, a := .queue 7, b := .imm, ext := 0xFFFFFFFF, p := 7, pn := true }, .trap { i18 := 0x3FFFF }],
      i.wf .core = true ∧ (opOf i).isSome = true) := by decide +kernel

theorem witness_DecodeThenEncode :
    decodeBlock .core (natToBytes 8 wAdd ++ [0xFF]) = .ok (iAdd, 8) ∧ decodeBlock .deep (natToBytes 8 wAdd) = .ok (iAdd, 8) :=
  ⟨dec_ok (by decide +kernel), dec_ok (by decide +kernel)⟩

/-- What instructions of the other families ask for: two vectors, an MZERO with room in the queue, a mailbox's actor, a deque with room, an NI
with room, and a HEAP. -/
theorem witness_InstructionFrames_units :
    (let o : Op := { oVec with p := 0 }
     sVec.cur = .slot 0 0 ∧ sVec.mayRun 0x80 = true ∧ laneTable2.head?.map (fun e => e.2.1) = some 0x80 ∧
       srcV 32 (immValue o) o.a sVec = .ok (5, sVec) ∧ srcV 32 (immValue o) o.b sVec = .ok (7, sVec) ∧
       ∃ t, dstLanes o.d 32 (sVec.thread.laneMask o 8) (12 :: List.replicate 7 0) (sVec.modThread (·.orFlags 0)) = .ok ((), t)) ∧
    (sMx 0x0044).cur = .slot 0 0 ∧
    (∃ u, exec (.mzero { d := .reg 3 }) (sMx 0x0044) = .next u ∧ decide ((u.core 0).mu.queue.length = ((sMx 0x0044).core 0).mu.queue.length + 1) = true) ∧
    (let s := (sMail 0 [] []).modSlot 0 0 (fun x => { x with thr := thrOf [(1, 0x8000)], status := .ready })
     s.cur = .slot 0 0 ∧ s.isGuest = false ∧ s.runs 0xC3 { a := .reg 1 } ∧ rdReg (.reg 1) s = .ok (0x8000, s)) ∧
    ((sTask 63).cur = .slot 0 0 ∧ ((sTask 63).slot 0 0).comb = []) ∧
    (∃ u, exec (.fork { a := .reg 1, b := .reg 2, c := .reg 4 }) (sTask 63) = .next u ∧ decide ((u.core 0).deque.length = ((sTask 63).core 0).deque.length + 1) = true) ∧
    (let s := sOne [(1, 0x4000000), (2, 9)]
     s.cur = .slot 0 0 ∧ (s.slot 0 0).guest = none ∧ (s.slot 0 0).comb = [] ∧
       ∃ u, exec (.send { a := .reg 1, b := .reg 2 }) s = .next u ∧ decide ((u.slot 0 0).ni.length = (s.slot 0 0).ni.length + 1) = true) ∧
    (let s := sOne [] { ctl := 0x24004, hcount := 2 }
     let q : BankReq := { core := 0, bank := 1, off := 0x1FFF, code := 0xB4, addr := 0xFC00000000003FFF, din := 0, bv := 0, wide := false, vdata := 0, detach := false, km := false, own := true }
     (s.bank 0 1).span = none ∧ (s.bank 0 1).isMember = false ∧ (s.bank 0 1).pers = 4 ∧ 1 < 16 ∧ Memory.wf (s.core 0).mem = true ∧ (s.bank 0 1).cap ≤ 512 ∧
       (s.bank 0 1).hcount ≤ (s.bank 0 1).cap ∧ ∃ r t, s.bankOp q = .ok (r, t)) := by
  and_intros <;> first | decide +kernel | exact ans_ok (by decide +kernel) | exact err_of (by decide +kernel) | exact next_of (by decide +kernel) | exact exists_ok (by decide +kernel) | exact exists_some (by decide +kernel) | exact all_ok (by decide +kernel) | exact quiet_of (by decide +kernel) | exact exists2_ok (by decide +kernel) | exact exists_pair (by decide +kernel) | exact queued_of (by decide +kernel)

/-- Values that each clause on the number helpers is about: a number within its format and one past it, with each kind of overflow of P3109. -/
theorem witness_NumberHelpers :
    (roundGrid 0 false 1 0 false f16.p f16.emin = (0, 1024, true, false) ∧ roundGrid 0 false 1 16 false f16.p f16.emin = (16, 1024, true, false) ∧
      f16.decode f16.maxBits = .fin false 2047 5) ∧
    (isB8 0x44 = true ∧ b8Ext 0x44 = false ∧ isB8 0x53 = true ∧ b8Ext 0x53 = true ∧ b8Unsigned 0x44 = false ∧ isB8 0x63 = true ∧ b8Unsigned 0x63 = true ∧
      decodeB8 (b8Max 0x44) 0x44 = .fin false 15 4 ∧ roundGrid 0 false 1 0 false (b8P 0x44) (1 - (b8Bias 0x44 : Int)) = (0, 8, true, false) ∧
      roundGrid 0 false 1 100 false (b8P 0x44) (1 - (b8Bias 0x44 : Int)) = (100, 8, true, false) ∧
      (roundGrid 0 true 1 0 false (b8P 0x63) (1 - (b8Bias 0x63 : Int))).2.1 ≠ 0) ∧
    (f32.decode 0x3F800000 = .fin false 8388608 (-23) ∧ f32.decode 0xBF800000 = .fin true 8388608 (-23) ∧ f32.decode 0 = .fin false 0 (-149)) := by decide +kernel

theorem witness_NumberHelpers_values :
    (((1024 : Nat) : ℚ) * 2 ^ ((0 : Int) - f16.p + 1) ≤ (FVal.fin false 2047 5).toRat ∧ (FVal.fin false 2047 5).toRat < ((1024 : Nat) : ℚ) * 2 ^ ((16 : Int) - f16.p + 1)) ∧
    (((8 : Nat) : ℚ) * 2 ^ ((0 : Int) - b8P 0x44 + 1) ≤ (FVal.fin false 15 4).toRat ∧ (FVal.fin false 15 4).toRat < ((8 : Nat) : ℚ) * 2 ^ ((100 : Int) - b8P 0x44 + 1)) ∧
    ((FVal.fin false 8388608 (-23)).toRat + (FVal.fin false 8388608 (-23)).toRat ≠ 0 ∧ (FVal.fin false 8388608 (-23)).toRat + (FVal.fin true 8388608 (-23)).toRat = 0) ∧
    ((FVal.fin false 0 0).toRat = 0 ∧ (FVal.fin false 1 0).toRat ≠ 0 ∧ (FVal.fin false 1 400).toRat ≠ 0) := by
  have h : f16.p = 11 := rfl
  have h' : b8P 0x44 = 4 := rfl
  simp only [FVal.toRat, h, h']
  norm_num [zpow_ofNat, zpow_neg]

/-- Groups whose products are all zero, whose sum is not zero and is, and one with a NaN; values that ChooseScale scales and clamps. -/
theorem witness_NumberHelpers_groups :
    (∀ x ∈ ([FVal.fin false 1 0].zip [FVal.fin true 0 3]), x.2 = .fin true 0 3) ∧ (FVal.nan true).isNan = true ∧
    (chooseScale [.fin false 0 0] 0x44).2 = 0 ∧ (chooseScale [.fin false 1 0] 0x44).2 = 0 ∧ (chooseScale [.fin false 1 (-400)] 0x44).2 ≠ 0 ∧
    (chooseScale [.fin false 1 400] 0x44).2 ≠ 0 := by decide +kernel

theorem test_reset_not_granted : State.reset.granted = false := rfl

end Sys2Proof.Machine
end

section
/-! How a step finds what it runs (R7, R33-R35, R46, R47): the granted agent's fetch, decoding and dispatch, or the agenda's
first turn. -/

open Sys2Proof

namespace Sys2Proof.Machine

/-! ### Fetch, decode and run -/

/-- Bytes that spell an instruction are run as that instruction, in the state that the fetch leaves. -/
theorem State.fetchRun_decoded {s s1 : State} {bs : List Byte} {i : Instr} {n : Nat} (hf : fetchBytes s = .ok (bs, s1))
    (hd : decodeBlock s1.prof bs = .ok (i, n)) : s.fetchRun = s1.runDecoded i := by
  simp only [State.fetchRun, hf, hd]

theorem State.fetchRun_illegal {s s1 : State} {bs : List Byte} {v : BitVec 64} (hf : fetchBytes s = .ok (bs, s1))
    (hd : decodeBlock s1.prof bs = .error (.illegal v)) : s.fetchRun = .next (s1.trapCur .illegal v) := by
  simp only [State.fetchRun, hf, hd]

theorem State.fetchRun_boundary {s s1 : State} {bs : List Byte} {v : BitVec 64} (hf : fetchBytes s = .ok (bs, s1))
    (hd : decodeBlock s1.prof bs = .error (.boundary v)) : s.fetchRun = .next (s1.trapCur .boundary v) := by
  simp only [State.fetchRun, hf, hd]

theorem State.runDecoded_forbidden {s : State} {i : Instr} {code : Nat} {o : Op} {r : Row} (ho : opOf i = some (code, o))
    (hr : rowOf code = some r) (ha : s.allowed r = false) :
    s.runDecoded i = .next (s.trapCur .illegal (packWord0 code o)) := by
  simp [State.runDecoded, ho, hr, ha]

/-- A slot runs an instruction that its profile and mode allow and that no breakpoint matches. -/
theorem State.runDecoded_slot {s : State} {c k : Nat} {i : Instr} {code : Nat} {o : Op} {r : Row} (hc : s.cur = .slot c k)
    (ho : opOf i = some (code, o)) (hr : rowOf code = some r) (ha : s.allowed r = true)
    (hb : s.breakHits c k s.thread.pc = []) : s.runDecoded i = exec i s := by
  simp [State.runDecoded, ho, hr, ha, hc, hb, breakValue]

/-- An SVC runs any instruction of the deep profile. -/
theorem State.runDecoded_svc {s : State} {n : Nat} {i : Instr} {code : Nat} {o : Op} {r : Row} (hc : s.cur = .svc n)
    (ho : opOf i = some (code, o)) (hr : rowOf code = some r) (hd : r.deep = true) : s.runDecoded i = exec i s := by
  simp [State.runDecoded, ho, hr, hc, State.allowed, hd]

/-! ### A granted step -/

/-- A slot with no fault to take and no guard to wait for fetches its next instruction. -/
theorem State.issueOne_slot {s : State} {c k : Nat} (hc : s.cur = .slot c k) (hc4 : c < 4096) (hk : k < 4)
    (hsf : ((s.slot c k).sfPending && !(s.slot c k).draining) = false) (hq : (s.slot c k).seqFault = none)
    (hd : s.guardStalls c k = false) : s.issueOne = s.fetchRun := by
  have hbound : ¬(4096 ≤ c ∨ 4 ≤ k) := by omega
  simp [State.issueOne, hc, hbound, hsf, hq, hd]

theorem State.issueOne_svc {s : State} {n : Nat} (hc : s.cur = .svc n) (hn : n < 256) : s.issueOne = s.fetchRun := by
  have hbound : ¬ 256 ≤ n := by omega
  simp [State.issueOne, hc, hbound]

/-- A granted step issues for its agent. -/
theorem step_issues {s : State} (hg : s.granted = true) : step s = State.issueOne { s with granted := false } := by
  simp [step, hg]

/-! ### What a fetch finds -/

/-- A slot whose fetch block is in its instruction cache reads the rest of the block from there (R257). -/
theorem fetchBytes_cached {s : State} {c k : Nat} {cb : CodeBlock} (hc : s.cur = .slot c k)
    (hf : (s.core c).icache.find? (fun b => b.block == s.thread.pc.toNat / 32 * 32 && b.dom == s.checkDom c k) = some cb)
    (hp : s.poison = []) : fetchBytes s = .ok ((bvBytes 32 cb.data).drop (s.thread.pc.toNat % 32), s) := by
  simp only [fetchBytes, hc, fetchSlot]
  rw [bind_ok (getS_run s)]
  simp [hf, hp]

/-- An SVC reads on in the block that it fetched last (R308). -/
theorem fetchBytes_held {s : State} {n : Nat} {bs : List Byte} (hc : s.cur = .svc n)
    (hb : (s.svc n).code = some (s.thread.pc.toNat / 32 * 32, bs)) :
    fetchBytes s = .ok (bs.drop (s.thread.pc.toNat % 32), s) := by
  simp only [fetchBytes, hc, fetchSvc]
  rw [bind_ok (getS_run s)]
  simp [hb]

/-- An SVC that holds another block, or none, takes the block at its counter from its buffer (R308). -/
theorem fetchBytes_fetched {s : State} {n : Nat} (hc : s.cur = .svc n) (hpc : s.thread.pc.toNat < 0x40000)
    (hr : (s.svc n).rowHeld (s.thread.pc.toNat / 32 * 32) 32 false = false) (hp : s.poison = [])
    (hb : ∀ b, (s.svc n).code = some b → b.1 ≠ s.thread.pc.toNat / 32 * 32) :
    let bs := Mem.readN (s.svc n).mem (s.thread.pc.toNat / 32 * 32) 32
    fetchBytes s = .ok (bs.drop (s.thread.pc.toNat % 32),
      s.modSvc n (fun v => { v with code := some (s.thread.pc.toNat / 32 * 32, bs) })) := by
  have hnone : (s.svc n).code.bind (fun b => if b.1 == s.thread.pc.toNat / 32 * 32 then some b.2 else none) = none := by
    cases h : (s.svc n).code with
    | none => rfl
    | some b => simp [hb b h]
  have hin : ¬ bufferBytes ≤ s.thread.pc.toNat := by
    have : bufferBytes = 0x40000 := rfl
    omega
  simp only [fetchBytes, hc, fetchSvc]
  rw [bind_ok (getS_run s)]
  simp only [hnone, hin, hr, hp, if_false, Bool.false_eq_true, List.contains_nil]
  rw [bind_ok (modS_run _ s)]
  rfl

/-! ### A step that is not granted -/

/-- Without a grant a step takes the first turn of the agenda. -/
theorem step_takes_turn {s : State} {t : Turn} {rest : List Turn} (hg : s.granted = false) (ha : s.agenda = t :: rest) :
    step s = State.takeTurn { s with agenda := rest } t := by
  simp [step, hg, State.nextTurn, ha]

theorem State.takeTurn_event (s : State) {i : Instr} (hi : opOf i = none) : s.takeTurn (.event i) = exec i s := by
  simp [State.takeTurn, hi]

/-- A command whose link carries traffic, and behind which none is held, arrives at once. -/
theorem State.takeTurn_host {s : State} {cmd : HostCmd} (hu : s.masterUp cmd.master = true) (hh : s.port.held = []) :
    s.takeTurn (.host cmd) = s.hostArrives cmd := by
  simp [State.takeTurn, State.hostTurn, hu, hh]

/-- A command with a listed OPC has the meaning that `exec` gives it. -/
theorem State.hostArrives_listed (s : State) (cmd : HostCmd) :
    ∀ e ∈ [(0x01, Instr.hread cmd), (0x02, .hwrite cmd), (0x03, .hsend cmd), (0x10, .claim cmd), (0x11, .renew cmd),
        (0x12, .yield cmd), (0x13, .leaseset cmd), (0x20, .image cmd), (0x21, .attest cmd), (0x22, .lcset cmd),
        (0x23, .partset cmd), (0x24, .dompart cmd), (0x30, .traceset cmd), (0x31, .quantum cmd), (0x32, .devidset cmd),
        (0x40, .replay cmd), (0x41, .reset cmd)],
      cmd.opc.toNat = e.1 → s.hostArrives cmd = exec e.2 s := by
  simp only [List.forall_mem_cons, List.not_mem_nil, IsEmpty.forall_iff, implies_true, and_true]
  and_intros <;>
  · intro h
    simp only [State.hostArrives, h]
    rfl

end Sys2Proof.Machine

open Sys2Proof.Machine

/-- Settles O56: fetch, decoding and dispatch are taken in turn; the order of turns is log entry 1, and a fetch when the
instruction is to issue is log entry 51. -/
theorem stepRunsDecoded : Obligations.StepRunsDecoded := by
  unfold Obligations.StepRunsDecoded
  refine ⟨?_, ?_, ?_, ?_, ?_⟩
  · intro s s1 c k bs hg hc hc4 hk hsf hq hd hf hcur
    have hs1 : s1.cur = .slot c k := hcur.trans hc
    have hprof : s1.prof = .core := by simp [State.prof, hs1]
    rw [step_issues hg, State.issueOne_slot (s := { s with granted := false }) hc hc4 hk hsf hq hd, ← hprof]
    refine ⟨fun i n code o r hdec ho hr => ⟨fun ha hb => ?_, fun ha => ?_⟩, fun v hdec => ?_, fun v hdec => ?_⟩
    · rw [State.fetchRun_decoded hf hdec, State.runDecoded_slot hs1 ho hr ha hb]
    · rw [State.fetchRun_decoded hf hdec, State.runDecoded_forbidden ho hr ha]
    · exact State.fetchRun_illegal hf hdec
    · exact State.fetchRun_boundary hf hdec
  · intro s c k cb hc _ hf hp
    exact fetchBytes_cached hc hf hp
  · intro s s1 n bs hg hc hn hf hcur
    have hs1 : s1.cur = .svc n := hcur.trans hc
    have hprof : s1.prof = .deep := by simp [State.prof, hs1]
    rw [step_issues hg, State.issueOne_svc (s := { s with granted := false }) hc hn, ← hprof]
    refine ⟨fun i l code o r hdec ho hr hdeep => ?_, fun v hdec => ?_, fun v hdec => ?_⟩
    · rw [State.fetchRun_decoded hf hdec, State.runDecoded_svc hs1 ho hr hdeep]
    · exact State.fetchRun_illegal hf hdec
    · exact State.fetchRun_boundary hf hdec
  · intro s n hc
    exact ⟨fun bs hb => fetchBytes_held hc hb, fun hpc hr hp hb => fetchBytes_fetched hc hpc hr hp hb⟩
  · intro s rest hg
    refine ⟨fun i ha hi => ?_, fun cmd ha hu hh e he hopc => ?_⟩
    · rw [step_takes_turn hg ha, State.takeTurn_event _ hi]
    · rw [step_takes_turn hg ha, State.takeTurn_host (s := { s with agenda := rest }) hu hh]
      exact State.hostArrives_listed _ cmd e he hopc
end

section
/-! SGET and SSET (R9, R29, R376): what retirement leaves, the checks that all rows share, the values read and kept, and the
rows that do more (R25, R158, R173, R184, R263, R278, R302, R322, R338, R344, R346). -/

open Sys2Proof

namespace Sys2Proof.Machine

/-! ### What the retirement of an instruction leaves -/

section
variable {s : State} {c k : Nat} (len : Len)

theorem State.finish_regs (hc : s.cur = .slot c k) (hk : k < 4) : ((s.finish len).slot c k).regs = (s.slot c k).regs := by
  simp [State.finish_slot s len hc hk, State.noteIssue_slot s hc hk]

theorem State.finish_act (hc : s.cur = .slot c k) (hk : k < 4) : ((s.finish len).slot c k).act = (s.slot c k).act := by
  simp [State.finish_slot s len hc hk, State.noteIssue_slot s hc hk]

theorem State.finish_v (hc : s.cur = .slot c k) (hk : k < 4) : ((s.finish len).slot c k).v = (s.slot c k).v := by
  simp [State.finish_slot s len hc hk, State.noteIssue_slot s hc hk]

theorem State.finish_guest (hc : s.cur = .slot c k) (hk : k < 4) : ((s.finish len).slot c k).guest = (s.slot c k).guest := by
  simp [State.finish_slot s len hc hk, State.noteIssue_slot s hc hk]

theorem State.finish_thread (hc : s.cur = .slot c k) (hk : k < 4) :
    (s.finish len).thread = { (s.slot c k).thr with pc := (s.slot c k).thr.pc + BitVec.ofNat 64 (lenBytes len) } := by
  obtain ⟨-, -, -, -, hcur, -⟩ := s.finish_frame len hc
  simp [State.thread, hcur.trans hc, State.finish_slot s len hc hk]

/-- A retirement updates the core's record of the issue and the slot that issued, and nothing else. -/
theorem State.finish_eq (hc : s.cur = .slot c k) : ∃ f g : Slot → Slot,
    s.finish len = ((s.modCore c (fun x => { x with last := k, issued := some k })).modSlot c k f).modSlot c k g := by
  simp only [State.finish, State.advance, State.setPc, State.modThread, State.noteIssue, hc, State.modSlot_cur, State.modCore_cur]
  exact ⟨_, _, rfl⟩

theorem State.finish_mu (hc : s.cur = .slot c k) : ((s.finish len).core c).mu = (s.core c).mu := by
  obtain ⟨f, g, e⟩ := State.finish_eq len hc
  simp [e]

theorem State.finish_trav (hc : s.cur = .slot c k) : ((s.finish len).core c).trav = (s.core c).trav := by
  obtain ⟨f, g, e⟩ := State.finish_eq len hc
  simp [e]

theorem State.finish_samp (hc : s.cur = .slot c k) : ((s.finish len).core c).samp = (s.core c).samp := by
  obtain ⟨f, g, e⟩ := State.finish_eq len hc
  simp [e]

theorem State.finish_streams (hc : s.cur = .slot c k) : ((s.finish len).core c).streams = (s.core c).streams := by
  obtain ⟨f, g, e⟩ := State.finish_eq len hc
  simp [e]

theorem State.finish_qosUnit (hc : s.cur = .slot c k) (sel : BitVec 16) : (s.finish len).qosUnit sel = s.qosUnit sel := by
  obtain ⟨f, g, e⟩ := State.finish_eq len hc
  simp [e, State.qosUnit, State.channel, State.slice]

theorem State.finish_team (hc : s.cur = .slot c k) (h : Nat) : (s.finish len).team h = s.team h := by
  obtain ⟨f, g, e⟩ := State.finish_eq len hc
  simp [e, State.team]
end

/-! ### Stream records -/

/-- An update of a core that keeps its slots leaves every slot. -/
theorem State.slot_modCore_keeps (s : State) (c : Nat) (f : Core → Core) (h : (f (s.core c)).slots = (s.core c).slots) (d j : Nat) :
    (s.modCore c f).slot d j = s.slot d j := by
  by_cases e : d = c
  · subst e; simp [State.slot, Core.slot, h]
  · simp [State.slot, State.core_modCore_ne _ _ e]

@[simp] theorem State.slot_modStream (s : State) (c i : Nat) (f : Stream → Stream) (d j : Nat) :
    (s.modCore c (·.modStream i f)).slot d j = s.slot d j := s.slot_modCore_keeps c _ rfl d j

@[simp] theorem Core.stream_modStream (x : Core) {i : Nat} (f : Stream → Stream) (h : i < 4) :
    (x.modStream i f).stream i = f (x.stream i) := by
  simp [Core.modStream, Core.setStream, Core.stream, h]

/-! ### SGET -/

/-- Slot k of core c runs an SGET of register n, which it may read. -/
structure SgetRuns (o : Op) (s : State) (c k n : Nat) : Prop where
  cur : s.cur = .slot c k
  runs : s.runs 0xF0 o
  num : sysNum o = n
  acc : s.sysAcc n ≠ .no

theorem sgetWith_refused {get : BitVec 64 → Nat → M (BitVec 64)} {o : Op} {s : State} (hr : s.runs 0xF0 o)
    (ha : s.sysAcc (sysNum o) = .no) : sgetWith get o s = .next (s.trapCur .illegal (packWord0 0xF0 o)) := by
  refine runScalar_trap hr.1 hr.2 ?_
  rw [bind_ok (getS_run s)]
  simp [ha]

theorem SgetRuns.sgetWith_eq {get : BitVec 64 → Nat → M (BitVec 64)} {o : Op} {s s1 t : State} {c k n : Nat} {v : BitVec 64}
    (h : SgetRuns o s c k n) (hg : get (packWord0 0xF0 o) n s = .ok (v, s1)) (hd : dstX o.d v s1 = .ok ((), t)) :
    sgetWith get o s = .next (t.finish o.len) := by
  refine runScalar_ok h.runs.1 h.runs.2 ?_
  rw [bind_ok (getS_run s)]
  simp only [h.num, h.acc, if_false]
  rw [bind_ok hg, bind_ok hd]
  rfl

/-! ### SSET -/

theorem ssetWith_refused {set : BitVec 64 → Nat → BitVec 64 → M Unit} {o : Op} {s : State} (hr : s.runs 0xF1 o)
    (ha : s.sysAcc (sysNum o) = .no) : ssetWith set o s = .next (s.trapCur .illegal (packWord0 0xF1 o)) := by
  refine runScalar_trap hr.1 hr.2 ?_
  rw [bind_ok (getS_run s)]
  simp [ha]

/-- An SSET always answers a next state. -/
theorem ssetWith_next (set : BitVec 64 → Nat → BitVec 64 → M Unit) (o : Op) (s : State) : ∃ u, ssetWith set o s = .next u := by
  rw [ssetWith, runScalar]
  exact runLanes_next _ _ _ _

/-- Slot k of core c runs an SSET of the value v, its operand read, to register n, to which it has an access. -/
structure SsetRuns (a : Acc) (o : Op) (s s1 : State) (c k n : Nat) (v : BitVec 64) : Prop where
  cur : s.cur = .slot c k
  runs : s.runs 0xF1 o
  num : sysNum o = n
  acc : s.sysAcc n = a
  src : srcX (immValue o) o.b s = .ok (v, s1)

section
variable {set : BitVec 64 → Nat → BitVec 64 → M Unit} {a : Acc} {o : Op} {s s1 t : State} {c k n : Nat} {v x : BitVec 64}

theorem SsetRuns.cur1 (h : SsetRuns a o s s1 c k n v) : s1.cur = .slot c k := (srcX_near h.src).1.cur.trans h.cur

theorem SsetRuns.at1 (h : SsetRuns a o s s1 c k n v) : s1.at_ = (c, k) := by simp [State.at_, h.cur1]

theorem SsetRuns.slot1 (h : SsetRuns a o s s1 c k n v) : s1.slot c k = s.slot c k := (srcX_near h.src).2 c k

theorem SsetRuns.ownDev1 (h : SsetRuns a o s s1 c k n v) : s1.ownDev = s.ownDev := by
  obtain ⟨-, -, -, -, -, -, -, -, -, -, -, -, -, hport⟩ := (srcX_near h.src).1.rest
  simp [State.ownDev, hport]

theorem SsetRuns.prof (h : SsetRuns a o s s1 c k n v) : s.prof = .core := by simp [State.prof, h.cur]

/-- A register that the slot may write: its row runs on the operand. -/
theorem SsetRuns.ssetWith_rw (h : SsetRuns .rw o s s1 c k n v) : ssetWith set o s = .next (s.conclude o.len
    ((do set (packWord0 0xF1 o) n v; pure .next : M Flow) s1)) := by
  rw [ssetWith, runScalar_run h.runs.1 h.runs.2, bind_ok (getS_run s)]
  simp only [h.num, h.acc, reduceCtorEq, decide_false, Bool.false_and, Bool.false_or, if_false, Bool.false_eq_true]
  rw [bind_ok h.src]

/-- A register that the slot may only read: of THROTTLE, QOSSEL is checked (R322). -/
theorem SsetRuns.ssetWith_ro (h : SsetRuns .ro o s s1 c k n v) : ssetWith set o s = .next (s.conclude o.len
    ((if n == 0x156 then do let _ ← channelSite (packWord0 0xF1 o); pure .next else pure .next : M Flow) s1)) := by
  rw [ssetWith, runScalar_run h.runs.1 h.runs.2, bind_ok (getS_run s)]
  simp only [h.num, h.acc, h.prof, reduceCtorEq, decide_false, Bool.and_false, Bool.or_false, if_false, Bool.false_eq_true]
  rw [bind_ok h.src]
  simp only [decide_true, Bool.true_and, if_true]

/-- A register that is written takes the effect of its row. -/
theorem SsetRuns.ssetWith_eq (h : SsetRuns .rw o s s1 c k n v) (hs : set (packWord0 0xF1 o) n v s1 = .ok ((), t)) :
    ssetWith set o s = .next (t.finish o.len) := by
  rw [h.ssetWith_rw, bind_ok hs]
  rfl

/-- A row that refuses its write raises its fault, with nothing changed. -/
theorem SsetRuns.ssetWith_trap {cause : Cause} (h : SsetRuns .rw o s s1 c k n v)
    (hs : set (packWord0 0xF1 o) n v s1 = .error (.trap cause x)) : ssetWith set o s = .next (s.trapCur cause x) := by
  rw [h.ssetWith_rw, bind_error hs]
  rfl

/-- A write of a read-only register other than THROTTLE is ignored (R9). -/
theorem SsetRuns.ssetWith_readOnly (h : SsetRuns .ro o s s1 c k n v) (hn : n ≠ 0x156) :
    ssetWith set o s = .next (s1.finish o.len) := by
  rw [h.ssetWith_ro, if_neg (by simpa using hn)]
  rfl

/-- A write of THROTTLE is ignored too, where QOSSEL names a channel of the slot's partition (R322). -/
theorem SsetRuns.ssetWith_throttle {sel : BitVec 16} (h : SsetRuns .ro o s s1 c k 0x156 v)
    (hs : channelSite (packWord0 0xF1 o) s1 = .ok (sel, s1)) : ssetWith set o s = .next (s1.finish o.len) := by
  rw [h.ssetWith_ro, if_pos BEq.rfl, bind_ok hs]
  rfl

theorem SsetRuns.ssetWith_throttle_trap {cause : Cause} (h : SsetRuns .ro o s s1 c k 0x156 v)
    (hs : channelSite (packWord0 0xF1 o) s1 = .error (.trap cause x)) : ssetWith set o s = .next (s.trapCur cause x) := by
  rw [h.ssetWith_ro, if_pos BEq.rfl, bind_error hs]
  rfl

end

/-! ### The units that QOSSEL and CMPSEL name -/

section
variable {s : State} {c k : Nat}

theorem qosSite_ok (hc : s.cur = .slot c k) (hp : s.unitPart (s.slot c k).regs.qossel = s.corePart c) :
    qosSite s = .ok ((s.slot c k).regs.qossel, s) := by
  unfold qosSite
  rw [bind_ok (curSlot_run s), bind_ok (getS_run s)]
  simp [State.at_, hc, hp]

theorem channelSite_ok (w : BitVec 64) (hc : s.cur = .slot c k) (hb : (s.slot c k).regs.qossel.getLsbD 15 = true)
    (hp : s.unitPart (s.slot c k).regs.qossel = s.corePart c) :
    channelSite w s = .ok ((s.slot c k).regs.qossel, s) := by
  unfold channelSite
  rw [bind_ok (curSlot_run s)]
  simp [State.at_, hc, hb, qosSite_ok hc hp]

theorem channelSite_slice (w : BitVec 64) (hc : s.cur = .slot c k) (hb : (s.slot c k).regs.qossel.getLsbD 15 = false) :
    channelSite w s = .error (.trap .illegal w) := by
  unfold channelSite
  rw [bind_ok (curSlot_run s)]
  simp only [State.at_, hc, hb, Bool.false_eq_true, if_false, raise_run]

theorem cmpSite_ok {tm : Team} (hc : s.cur = .slot c k) (ht : s.teamOf c k = some tm)
    (hn : (s.slot c k).regs.cmpsel.toNat % 256 < tm.ngroup) :
    cmpSite s = .ok ((tm, (s.slot c k).regs.cmpsel.toNat % 256, (s.slot c k).regs.cmpsel.toNat / 256), s) := by
  unfold cmpSite
  rw [bind_ok (curSlot_run s), bind_ok (curTeam_run s)]
  simp [State.at_, hc, ht, hn]

theorem flagsIn_ok (hc : s.cur = .slot c k) (ho : (s.slot c k).satOwed c s.ownDev = false) : flagsIn s = .ok ((), s) := by
  simp [flagsIn, hc, ho]
end

/-! ### The values that SGET reads -/

/-- A word with zeros above its field is the field widened. -/
theorem zero_append_eq_setWidth (n : Nat) {m : Nat} (x : BitVec m) : 0#n ++ x = x.setWidth (n + m) := by
  apply BitVec.eq_of_toNat_eq
  have hx : x.toNat < 2 ^ (n + m) := Nat.lt_of_lt_of_le x.isLt (Nat.pow_le_pow_right (by decide) (by omega))
  simp [Nat.mod_eq_of_lt hx]

theorem toNat_append_add {n m : Nat} (x : BitVec n) (y : BitVec m) : (x ++ y).toNat = 2 ^ m * x.toNat + y.toNat := by
  rw [BitVec.toNat_append, ← Nat.shiftLeft_add_eq_or_of_lt y.isLt, Nat.shiftLeft_eq, Nat.mul_comm]

/-- FPCTL, field by field (R21). -/
theorem Thread.fpctl_eq (t : Thread) : t.fpctl = 0#53 ++ t.flags ++ 0#1 ++ t.rm := by
  apply BitVec.eq_of_toNat_eq
  simp only [Thread.fpctl, toNat_append_add, BitVec.toNat_ofNat]
  omega

/-- VUSE, field by field (R25). -/
theorem SlotRegs.vuse_eq (r : SlotRegs) : r.vuse = 0#61 ++ BitVec.ofBool r.vuseMode ++ r.vuseN := by
  apply BitVec.eq_of_toNat_eq
  simp only [SlotRegs.vuse, toNat_append_add, BitVec.toNat_ofNat, BitVec.toNat_ofBool]
  have := r.vuseMode.toNat_le
  omega

/-- MUNIT, field by field (R158). -/
theorem MatrixUnit.munit_eq (u : MatrixUnit) : u.munit = 0#47 ++ BitVec.ofBool u.en ++ 0#4 ++ u.domain := by
  apply BitVec.eq_of_toNat_eq
  simp only [MatrixUnit.munit, toNat_append_add, BitVec.toNat_ofNat, BitVec.toNat_ofBool]
  have := u.en.toNat_le
  omega

theorem sysGet_plain {s : State} {c k n : Nat} (w : BitVec 64) (hc : s.cur = .slot c k) (h0 : n ≠ 0)
    (hq : n < 0x151 ∨ 0x156 < n) (ha : n ≠ 0x1B9) (hb : n ≠ 0x1BA) : sysGet w n s = .ok (s.coreGet c k n, s) := by
  have h1 : ¬(0x151 ≤ n ∧ n ≤ 0x154) := by omega
  have h2 : n ≠ 0x155 ∧ n ≠ 0x156 := by omega
  simp [sysGet, hc, h0, h1, h2, ha, hb]

theorem sysGet_fpctl {s : State} {c k : Nat} (w : BitVec 64) (hc : s.cur = .slot c k)
    (ho : (s.slot c k).satOwed c s.ownDev = false) : sysGet w 0 s = .ok (s.coreGet c k 0, s) := by
  simp only [sysGet, hc, BEq.rfl, if_true]
  rw [bind_ok (flagsIn_ok hc ho), bind_ok (curThread_run s)]
  simp [State.coreGet, State.thread, hc]

theorem sysReads_plain : ∀ e ∈ sysReads, e.1 = 0 ∨ e.1 ≠ 0 ∧ (e.1 < 0x151 ∨ 0x156 < e.1) ∧ e.1 ≠ 0x1B9 ∧ e.1 ≠ 0x1BA := by
  decide

/-- A register of the list reads as its fields, with zeros elsewhere (R29). -/
theorem coreGet_sysReads {s : State} {c k : Nat} (hg : (s.slot c k).guest = none) :
    ∀ e ∈ sysReads, s.coreGet c k e.1 = e.2 s c k := by
  simp only [sysReads, List.forall_mem_cons, List.not_mem_nil, IsEmpty.forall_iff, implies_true, and_true]
  and_intros <;>
    simp [State.coreGet, State.homeOf, hg, Thread.fpctl_eq, SlotRegs.vuse_eq, MatrixUnit.munit_eq] <;>
    exact (zero_append_eq_setWidth _ _).symm

/-! ### What SSET keeps -/

/-- A field that is stored and read again holds the low bits of what was written. -/
theorem setWidth_setWidth_eq_and (v : BitVec 64) {w : Nat} (h : w ≤ 64) :
    (v.setWidth w).setWidth 64 = v &&& BitVec.ofNat 64 (2 ^ w - 1) := by
  apply BitVec.eq_of_toNat_eq
  have hw : 2 ^ w ≤ 2 ^ 64 := Nat.pow_le_pow_right (by decide) h
  have hv : v.toNat % 2 ^ w < 2 ^ 64 := Nat.lt_of_le_of_lt (Nat.mod_le _ _) v.isLt
  have hm : (2 ^ w - 1) % 2 ^ 64 = 2 ^ w - 1 := Nat.mod_eq_of_lt (by omega)
  rw [BitVec.toNat_setWidth, BitVec.toNat_setWidth, Nat.mod_eq_of_lt hv, BitVec.toNat_and, BitVec.toNat_ofNat, hm,
    Nat.and_two_pow_sub_one_eq_mod]

theorem sysKeeps_eq : sysKeeps =
  [(0x005, 2), (0x006, 32), (0x020, 64), (0x021, 9), (0x022, 64), (0x131, 64), (0x134, 17), (0x140, 35), (0x170, 32), (0x171, 64),
   (0x1AB, 8), (0x1B8, 10), (0x100, 64), (0x101, 64), (0x102, 64), (0x103, 64), (0x104, 64), (0x105, 64), (0x106, 64), (0x107, 64),
   (0x184, 64), (0x185, 64), (0x186, 64), (0x187, 64), (0x1A1, 64), (0x1A2, 64), (0x1A3, 64), (0x1A4, 64)] := rfl

/-- Register by register of the list: a write keeps its low bits, and a read of the same register finds them. -/
theorem coreSet_sysKeeps {s : State} {c k : Nat} (hk : k < 4) (hg : (s.slot c k).guest = none) (v : BitVec 64) :
    ∀ e ∈ sysKeeps, ∃ t, s.coreSet c k e.1 v = some t ∧ t.cur = s.cur ∧ (t.slot c k).guest = none ∧
      t.coreGet c k e.1 = (v.setWidth e.2).setWidth 64 := by
  simp only [sysKeeps_eq, List.forall_mem_cons, List.not_mem_nil, IsEmpty.forall_iff, implies_true, and_true]
  and_intros <;>
    simp [State.coreSet, State.coreGet, State.homeOf, hg, hk]

/-- Register by register of the list: the retirement of the SSET leaves what it wrote. -/
theorem coreGet_finish {s : State} {c k : Nat} (len : Len) (hc : s.cur = .slot c k) (hk : k < 4) (hg : (s.slot c k).guest = none) :
    ∀ e ∈ sysKeeps, (s.finish len).coreGet c k e.1 = s.coreGet c k e.1 := by
  simp only [sysKeeps_eq, List.forall_mem_cons, List.not_mem_nil, IsEmpty.forall_iff, implies_true, and_true]
  and_intros <;>
    simp [State.coreGet, State.homeOf, State.finish_guest _ hc hk, hg, State.finish_regs _ hc hk, State.finish_act _ hc hk,
      Core.stream, State.finish_streams _ hc]

theorem sysKeeps_width : ∀ e ∈ sysKeeps, e.2 ≤ 64 := by decide

theorem sysKeeps_plain : ∀ e ∈ sysKeeps, e.1 ≠ 0 ∧ e.1 ≠ 0x1B9 := by decide

section
variable {o : Op} {s s1 t : State} {c k n : Nat} {v : BitVec 64}

theorem sysSet_plain (w : BitVec 64) (hc : s.cur = .slot c k) (h0 : n ≠ 0) (hn : n ≠ 0x1B9) (hs : s.coreSet c k n v = some t) :
    sysSet w n v s = .ok ((), t) := by
  simp [sysSet, hc, h0, hn, hs]

theorem sysSet_plain_trap (w : BitVec 64) (hc : s.cur = .slot c k) (h0 : n ≠ 0) (hn : n ≠ 0x1B9) (hs : s.coreSet c k n v = none) :
    sysSet w n v s = .error (.trap .illegal w) := by
  simp [sysSet, hc, h0, hn, hs]

theorem sysSet_fpctl (w : BitVec 64) (hc : s.cur = .slot c k) (ho : (s.slot c k).satOwed c s.ownDev = false)
    (hs : s.coreSet c k 0 v = some t) : sysSet w 0 v s = .ok ((), t) := by
  simp only [sysSet, hc, BEq.rfl, if_true]
  rw [bind_ok (flagsIn_ok hc ho), bind_ok (getS_run s)]
  simp [hs]

theorem sysSet_fpctl_trap (w : BitVec 64) (hc : s.cur = .slot c k) (ho : (s.slot c k).satOwed c s.ownDev = false)
    (hs : s.coreSet c k 0 v = none) : sysSet w 0 v s = .error (.trap .illegal w) := by
  simp only [sysSet, hc, BEq.rfl, if_true]
  rw [bind_ok (flagsIn_ok hc ho), bind_ok (getS_run s)]
  simp [hs]

/-- FPCTL takes RM and the flags (R21). -/
theorem coreSet_fpctl (hv : v.toNat % 8 < 5) : s.coreSet c k 0x000 v = some (s.modSlot c k (fun x =>
    { x with thr := { (s.slot c k).thr with rm := v.setWidth 3, flags := (v >>> 4).setWidth 7 } })) := by
  have hrm : BitVec.ofNat 3 v.toNat = v.setWidth 3 := by simp
  have hfl : BitVec.ofNat 7 (v.toNat / 16) = (v >>> 4).setWidth 7 := by
    apply BitVec.eq_of_toNat_eq
    simp [Nat.shiftRight_eq_div_pow]
  simp [State.coreSet, Thread.setFpctl, hv, hrm, hfl]

/-- XSTAT takes INFIRING and PREVK; a 1 clears VWAKE (R26). -/
theorem coreSet_xstat : s.coreSet c k 0x023 v = some (s.modSlot c k (fun x => { x with regs := { x.regs with
    infiring := v.getLsbD 2, prevk := v.getLsbD 1, vwake := x.regs.vwake && !v.getLsbD 0 } })) := by
  simp [State.coreSet]

theorem coreSet_acode (hv : v.toNat % 4 = 0) :
    s.coreSet c k 0x132 v = some (s.modSlot c k (fun x => { x with act := { x.act with acode := v } })) := by
  simp [State.coreSet, hv]

theorem coreSet_kvec (hv : v.toNat % 4 = 0) :
    s.coreSet c k 0x1A0 v = some (s.modSlot c k (fun x => { x with regs := { x.regs with kvec := v } })) := by
  simp [State.coreSet, hv]

/-- An entry of HTAB with a threshold keeps its fields (R182). -/
theorem coreSet_htab {i : Nat} (hi : i < 16) (hv : bitsOf v.toNat 11 8 ≠ 0) :
    s.coreSet c k (0x120 + i) v =
      some (s.modSlot c k (fun x => { x with act := { x.act with htab := vput x.act.htab i (v &&& 0xFFFFFFFF000F0F07) } })) := by
  interval_cases i <;> simp [State.coreSet, hv]

/-- The values that a register refuses: RM or BST of 5 to 7, an address that is no multiple of 4 (R21, R22, R181, R329). -/
theorem coreSet_none (h : n = 0x000 ∧ 5 ≤ v.toNat % 8 ∨ n = 0x001 ∧ 5 ≤ v.toNat % 8 ∨ n = 0x132 ∧ v.toNat % 4 ≠ 0 ∨
    n = 0x1A0 ∧ v.toNat % 4 ≠ 0) : s.coreSet c k n v = none := by
  rcases h with ⟨rfl, hv⟩ | ⟨rfl, hv⟩ | ⟨rfl, hv⟩ | ⟨rfl, hv⟩ <;> simp [State.coreSet, Thread.setFpctl, hv]

theorem SsetRuns.sset_eq (h : SsetRuns .rw o s s1 c k n v) (h0 : n ≠ 0) (hn : n ≠ 0x1B9) (hs : s1.coreSet c k n v = some t) :
    exec (.sset o) s = .next (t.finish o.len) :=
  h.ssetWith_eq (sysSet_plain _ h.cur1 h0 hn hs)

theorem SsetRuns.sset_trap (h : SsetRuns .rw o s s1 c k n v) (h0 : n ≠ 0) (hn : n ≠ 0x1B9) (hs : s1.coreSet c k n v = none) :
    exec (.sset o) s = .next (s.trapCur .illegal (packWord0 0xF1 o)) :=
  h.ssetWith_trap (sysSet_plain_trap _ h.cur1 h0 hn hs)

theorem SsetRuns.sset_fpctl_eq (h : SsetRuns .rw o s s1 c k 0 v) (ho : (s1.slot c k).satOwed c s.ownDev = false)
    (hs : s1.coreSet c k 0 v = some t) : exec (.sset o) s = .next (t.finish o.len) :=
  h.ssetWith_eq (sysSet_fpctl _ h.cur1 (by rw [h.ownDev1, ho]) hs)

theorem SsetRuns.sset_fpctl_trap (h : SsetRuns .rw o s s1 c k 0 v) (ho : (s1.slot c k).satOwed c s.ownDev = false)
    (hs : s1.coreSet c k 0 v = none) : exec (.sset o) s = .next (s.trapCur .illegal (packWord0 0xF1 o)) :=
  h.ssetWith_trap (sysSet_fpctl_trap _ h.cur1 (by rw [h.ownDev1, ho]) hs)

/-- A register of the list keeps the low bits of what SSET writes. -/
theorem SsetRuns.sset_keeps (hk : k < 4) (hg : (s.slot c k).guest = none) : ∀ e ∈ sysKeeps, SsetRuns .rw o s s1 c k e.1 v →
    ∃ u, exec (.sset o) s = .next u ∧ u.coreGet c k e.1 = v &&& BitVec.ofNat 64 (2 ^ e.2 - 1) := by
  intro e he h
  obtain ⟨t, ht, hcur, hguest, hval⟩ := coreSet_sysKeeps hk (h.slot1 ▸ hg) v e he
  obtain ⟨h0, hn⟩ := sysKeeps_plain e he
  refine ⟨t.finish o.len, h.sset_eq h0 hn ht, ?_⟩
  rw [coreGet_finish o.len (hcur.trans h.cur1) hk hguest e he, hval, setWidth_setWidth_eq_and v (sysKeeps_width e he)]

end


/-! ### The current slot and core of a slot's body -/

section
variable {s : State} {c k : Nat}

theorem curSlot_slot (hc : s.cur = .slot c k) : curSlot s = .ok (s.slot c k, s) := by simp [State.at_, hc]

theorem curCore_slot (hc : s.cur = .slot c k) : curCore s = .ok (s.core c, s) := by simp [State.at_, hc]

theorem modCurCore_slot (hc : s.cur = .slot c k) (f : Core → Core) : modCurCore f s = .ok ((), s.modCore c f) := by
  simp [modCurCore, State.at_, hc]

theorem modCurSlot_slot (hc : s.cur = .slot c k) (f : Slot → Slot) : modCurSlot f s = .ok ((), s.modSlot c k f) := by
  simp [modCurSlot, State.at_, hc]
end

/-! ### The reads that pop a record (R278, R338, R346) -/

section
variable {o : Op} {s s1 t : State} {c k n : Nat}

theorem SgetRuns.travpop_pops {r : TravRec} {rest : List TravRec} (h : SgetRuns o s c k n) (hr : (s.core c).trav.ring = r :: rest)
    (hd : dstX o.d r.addr (s.modCore c (fun x => { x with trav := { x.trav with ring := rest, travc := r.cyc, travs := r.word } })) =
      .ok ((), t)) : exec (.travpop o) s = .next (t.finish o.len) := by
  rw [exec_travpop, execTravpop]
  refine h.sgetWith_eq ?_ hd
  rw [bind_ok (curCore_slot h.cur)]
  simp only [hr]
  rw [bind_ok (modCurCore_slot h.cur _)]
  rfl

theorem SgetRuns.sfrqpop_pops {r : SfrqRec} {rest : List SfrqRec} (h : SgetRuns o s c k n) (hr : (s.slot c k).sfrq = r :: rest)
    (hd : dstX o.d r.addr (s.modSlot c k (fun y => { y with
      sfrq := rest, sfReported := y.sfReported - 1, regs := { y.regs with sfrqPc := r.pc, sfrqInfo := r.word } })) = .ok ((), t)) :
    exec (.sfrqpop o) s = .next (t.finish o.len) := by
  rw [exec_sfrqpop, execSfrqpop]
  refine h.sgetWith_eq ?_ hd
  rw [bind_ok (curSlot_slot h.cur)]
  simp only [hr]
  rw [bind_ok (modCurSlot_slot h.cur _)]
  rfl

theorem SgetRuns.samppop_pops {r : SampRec} {rest : List SampRec} (h : SgetRuns o s c k n) (hr : (s.core c).samp.ring = r :: rest)
    (hd : dstX o.d r.pc (s.modCore c (fun x => { x with samp := { x.samp with ring := rest, info := r.info } })) = .ok ((), t)) :
    exec (.samppop o) s = .next (t.finish o.len) := by
  rw [exec_samppop, execSamppop]
  refine h.sgetWith_eq ?_ hd
  rw [bind_ok (curCore_slot h.cur)]
  simp only [hr]
  rw [bind_ok (modCurCore_slot h.cur _)]
  rfl

/-- A read that answers zero leaves zero in its register. -/
theorem SgetRuns.sgetWith_zero {get : BitVec 64 → Nat → M (BitVec 64)} {r : Fin 32} (h : SgetRuns o s c k n) (hk : k < 4)
    (hg : get (packWord0 0xF0 o) n s = .ok (0, s1)) (hcur : s1.cur = s.cur) (ho : (s1.slot c k).owed = []) (hd : o.d = .reg r) :
    ∃ u, sgetWith get o s = .next u ∧ u.thread.getX r.val = 0 := by
  have hc : s1.cur = .slot c k := hcur.trans h.cur
  have hw := wrX_slot (n := r.val) (v := 0) hc (.inr (by simp [ho]))
  refine ⟨_, h.sgetWith_eq hg (by rw [hd]; exact hw), ?_⟩
  rw [State.finish_thread (s := s1.modSlot c k _) _ hc hk, State.slot_modSlot _ _ _ _ hk]
  by_cases h0 : r.val = 0
  · rw [h0]; rfl
  · exact Thread.getX_setX _ _ _ h0 r.isLt

theorem SgetRuns.travpop_empty {r : Fin 32} (h : SgetRuns o s c k n) (hk : k < 4) (hr : (s.core c).trav.ring.isEmpty = true)
    (hd : o.d = .reg r) (ho : (s.slot c k).owed = []) : ∃ u, exec (.travpop o) s = .next u ∧ u.thread.getX r.val = 0 := by
  rw [exec_travpop, execTravpop]
  refine h.sgetWith_zero hk ?_ rfl ?_ hd
    (s1 := s.modCore c (fun x => { x with trav := { x.trav with travs := x.trav.travs &&& 0x7FFFFFFFFFFFFFFF } }))
  · rw [bind_ok (curCore_slot h.cur)]
    simp only [List.isEmpty_iff.mp hr]
    rw [bind_ok (modCurCore_slot h.cur _)]
    rfl
  · rw [State.slot_modCore_keeps _ _ _ rfl, ho]

theorem SgetRuns.sfrqpop_empty {r : Fin 32} (h : SgetRuns o s c k n) (hk : k < 4) (hr : (s.slot c k).sfrq.isEmpty = true)
    (hd : o.d = .reg r) (ho : (s.slot c k).owed = []) : ∃ u, exec (.sfrqpop o) s = .next u ∧ u.thread.getX r.val = 0 := by
  rw [exec_sfrqpop, execSfrqpop]
  refine h.sgetWith_zero hk ?_ rfl ?_ hd
    (s1 := s.modSlot c k (fun x => { x with regs := { x.regs with sfrqInfo := x.regs.sfrqInfo &&& 0x7FFFFFFFFFFFFFFF } }))
  · rw [bind_ok (curSlot_slot h.cur)]
    simp only [List.isEmpty_iff.mp hr]
    rw [modRegs, bind_ok (modCurSlot_slot h.cur _)]
    rfl
  · rw [State.slot_modSlot _ _ _ _ hk, ho]

theorem SgetRuns.samppop_empty {r : Fin 32} (h : SgetRuns o s c k n) (hk : k < 4) (hr : (s.core c).samp.ring.isEmpty = true)
    (hd : o.d = .reg r) (ho : (s.slot c k).owed = []) : ∃ u, exec (.samppop o) s = .next u ∧ u.thread.getX r.val = 0 := by
  rw [exec_samppop, execSamppop]
  refine h.sgetWith_zero hk ?_ rfl ?_ hd
    (s1 := s.modCore c (fun x => { x with samp := { x.samp with info := x.samp.info &&& 0x7FFFFFFFFFFFFFFF } }))
  · rw [bind_ok (curCore_slot h.cur)]
    simp only [List.isEmpty_iff.mp hr]
    rw [bind_ok (modCurCore_slot h.cur _)]
    rfl
  · rw [State.slot_modCore_keeps _ _ _ rfl, ho]

end

/-! ### The writes that do more than store -/

section
variable {o : Op} {s s1 : State} {c k n : Nat} {v : BitVec 64}

/-- A core whose MSEQ takes a word with ACTIVE = 0; the range of another sequence leaves the scoreboard (R173, R174). -/
def Core.withMseq (y : Core) (v : BitVec 64) : Core :=
  let x := if v == y.mu.mseq then y else y.dropSeqRange
  { x with mu := { x.mu with mseq := v, due := x.mu.due && mseqHeld v, seqFl := if mseqHeld v then x.mu.seqFl else 0 } }

theorem Core.withMseq_mseq (y : Core) (v : BitVec 64) : (y.withMseq v).mu.mseq = v := rfl

theorem Core.withMseq_acc (y : Core) (v : BitVec 64) : (y.withMseq v).mu.acc = y.mu.acc := by
  unfold Core.withMseq
  dsimp only
  split <;> rfl

/-- MSEQ written while no sequence runs, with ACTIVE = 0 (R173). -/
theorem SsetRuns.mseqWrite_idle (h : SsetRuns .rw o s s1 c k n v) (hm : mseqActive (s1.core c).mu.mseq = false) (hv : v.getLsbD 63 = false) :
    ∃ u, exec (.mseqWrite o) s = .next u ∧ (u.core c).mu.mseq = v &&& 0xFFFFFFE3FFFFFFFF ∧ (u.core c).mu.acc = (s1.core c).mu.acc := by
  have hv' : mseqActive (v &&& 0xFFFFFFE3FFFFFFFF) = false := by rw [mseqActive, BitVec.getLsbD_and, hv, Bool.false_and]
  rw [exec_mseqWrite, execMseqWrite]
  refine ⟨_, h.ssetWith_eq ?_ (t := s1.modCore c (·.withMseq (v &&& 0xFFFFFFE3FFFFFFFF))), ?_⟩
  · rw [bind_ok (getS_run s1)]
    simp only [h.at1, hm, hv', Bool.false_eq_true, if_false]
    exact modCurCore_slot h.cur1 _
  · rw [State.finish_mu (s := s1.modCore c _) _ h.cur1, State.core_modCore]
    exact ⟨Core.withMseq_mseq _ _, Core.withMseq_acc _ _⟩

theorem SsetRuns.mseqWrite_active (h : SsetRuns .rw o s s1 c k n v) (hm : mseqActive (s1.core c).mu.mseq = true) :
    exec (.mseqWrite o) s = .next (s.trapCur .illegal (packWord0 0xF1 o)) := by
  rw [exec_mseqWrite, execMseqWrite]
  refine h.ssetWith_trap ?_
  rw [bind_ok (getS_run s1)]
  simp [h.at1, hm]

/-- The matrix unit once MUNIT takes a word: another DOMAIN clears it (R158). -/
def MatrixUnit.withMunit (u : MatrixUnit) (v : BitVec 64) : MatrixUnit :=
  if v.setWidth 12 = u.domain then { u with en := v.getLsbD 16 } else { en := v.getLsbD 16, domain := v.setWidth 12 }

/-- MUNIT written while the unit is idle: another DOMAIN clears the unit (R158). -/
theorem SsetRuns.munitWrite_idle (h : SsetRuns .rw o s s1 c k n v) (hq : (s1.core c).mu.queue = []) (hm : mseqActive (s1.core c).mu.mseq = false) :
    ∃ u, exec (.munitWrite o) s = .next u ∧ (u.core c).mu =
      if v.setWidth 12 = (s1.core c).mu.domain then { (s1.core c).mu with en := v.getLsbD 16 }
      else { en := v.getLsbD 16, domain := v.setWidth 12 } := by
  rw [exec_munitWrite, execMunitWrite]
  have hidle : (!(s1.core c).mu.queue.isEmpty || mseqActive (s1.core c).mu.mseq) = false := by simp [hq, hm]
  refine ⟨_, h.ssetWith_eq ?_ (t := s1.modCore c (fun x => { x with mu := (s1.core c).mu.withMunit v })), ?_⟩
  · rw [bind_ok (curCore_slot h.cur1)]
    simp only [hidle, beq_iff_eq, Bool.false_eq_true, if_false]
    exact modCurCore_slot h.cur1 _
  · rw [State.finish_mu (s := s1.modCore c _) _ h.cur1, State.core_modCore]
    rfl

/-- TRAVCTL: EN going from 0 to 1 empties the ring and clears LOST (R278). -/
theorem SsetRuns.travctlWrite_sets (h : SsetRuns .rw o s s1 c k n v) : ∃ u, exec (.travctlWrite o) s = .next u ∧
    (u.core c).trav.en = v.getLsbD 0 ∧ (u.core c).trav.lmem = v.getLsbD 1 ∧ (u.core c).trav.stop = v.getLsbD 2 ∧
    (u.core c).trav.domain = (v >>> 16).setWidth 12 ∧
    (v.getLsbD 0 = true → (s1.core c).trav.en = false → (u.core c).trav.ring = [] ∧ (u.core c).trav.lost = 0) := by
  rw [exec_travctlWrite, execTravctlWrite]
  refine ⟨_, h.ssetWith_eq (modCurCore_slot h.cur1 _), ?_⟩
  rw [State.finish_trav (s := s1.modCore c _) _ h.cur1, State.core_modCore]
  dsimp only
  split
  · exact ⟨rfl, rfl, rfl, rfl, fun _ _ => ⟨rfl, rfl⟩⟩
  · next hstart =>
    refine ⟨rfl, rfl, rfl, rfl, fun h1 h0 => absurd ?_ hstart⟩
    rw [h1, h0]; rfl

theorem SsetRuns.sampctlWrite_sets (h : SsetRuns .rw o s s1 c k n v) : ∃ u, exec (.sampctlWrite o) s = .next u ∧
    (u.core c).samp.period = v.setWidth 32 ∧ (u.core c).samp.slots = (v >>> 32).setWidth 4 ∧ (u.core c).samp.trace = v.getLsbD 36 ∧
    (u.core c).samp.ring = [] ∧ (u.core c).samp.lost = 0 := by
  rw [exec_sampctlWrite, execSampctlWrite]
  refine ⟨_, h.ssetWith_eq (modCurCore_slot h.cur1 _), ?_⟩
  rw [State.finish_samp (s := s1.modCore c _) _ h.cur1, State.core_modCore]
  exact ⟨rfl, rfl, rfl, rfl, rfl⟩

/-- A slot whose AMODE takes a word (R184). -/
def Slot.withAmode (x : Slot) (v : BitVec 64) : Slot :=
  { x with act := { x.act with taske := (v >>> 8).setWidth 8, worker := v.getLsbD 4, mbox := v.setWidth 4 } }

/-- A mailbox that moves from bank `old` to bank b: headers leave the old bank, and the new one's are 0 (R184). -/
def State.moveMbox (s : State) (c old b : Nat) : State :=
  (s.modBank c old (fun x => { x with hdrs := [] })).modBank c b (fun x => { x with hdrs := x.counts.map (fun n => List.replicate n 0) })

theorem State.slot_moveMbox (s : State) (c old b d j : Nat) : (s.moveMbox c old b).slot d j = s.slot d j :=
  ((State.slot_modCore_keeps _ c _ rfl d j).trans (State.slot_modCore_keeps s c _ rfl d j))

/-- AMODE with the mailbox that the actor has, or one that it can take (R184). -/
theorem SsetRuns.amodeWrite_sets (h : SsetRuns .rw o s s1 c k n v) (hk : k < 4)
    (hb : v.toNat % 16 = (s1.slot c k).act.mbox.toNat ∨ s1.mboxOk c k (v.toNat % 16) = true) : ∃ u, exec (.amodeWrite o) s = .next u ∧
    (u.slot c k).act = { (s1.slot c k).act with taske := (v >>> 8).setWidth 8, worker := v.getLsbD 4, mbox := v.setWidth 4 } := by
  have hfree : (v.toNat % 16 != (s1.slot c k).act.mbox.toNat && !s1.mboxOk c k (v.toNat % 16)) = false := by
    rcases hb with hb | hb <;> simp [hb]
  rw [exec_amodeWrite, execAmodeWrite]
  by_cases hold : v.toNat % 16 = (s1.slot c k).act.mbox.toNat
  · refine ⟨_, h.ssetWith_eq ?_ (t := s1.modSlot c k (·.withAmode v)), ?_⟩
    · rw [bind_ok (getS_run s1)]
      simp only [h.at1, hfree, Bool.false_eq_true, if_false]
      rw [bind_ok (modCurSlot_slot h.cur1 _)]
      simp [hold, Slot.withAmode]
    · rw [State.finish_act (s := s1.modSlot c k _) _ h.cur1 hk, State.slot_modSlot _ _ _ _ hk]
      rfl
  · refine ⟨_, h.ssetWith_eq ?_ (t := (s1.modSlot c k (·.withAmode v)).moveMbox c (s1.slot c k).act.mbox.toNat (v.toNat % 16)), ?_⟩
    · rw [bind_ok (getS_run s1)]
      simp only [h.at1, hfree, Bool.false_eq_true, if_false]
      rw [bind_ok (modCurSlot_slot h.cur1 _)]
      simp [hold, State.moveMbox, Slot.withAmode]
    · rw [State.finish_act (s := (s1.modSlot c k _).moveMbox c _ _) _ h.cur1 hk, State.slot_moveMbox, State.slot_modSlot _ _ _ _ hk]
      rfl

theorem SsetRuns.amodeWrite_trap (h : SsetRuns .rw o s s1 c k n v) (hb : v.toNat % 16 ≠ (s1.slot c k).act.mbox.toNat)
    (hm : s1.mboxOk c k (v.toNat % 16) = false) : exec (.amodeWrite o) s = .next (s.trapCur .illegal (packWord0 0xF1 o)) := by
  rw [exec_amodeWrite, execAmodeWrite]
  refine h.ssetWith_trap ?_
  rw [bind_ok (getS_run s1)]
  simp [h.at1, hb, hm]

theorem Slot.setVuse_vuseN (sl : Slot) (v : BitVec 64) : (sl.setVuse v).regs.vuseN = v.setWidth 2 := by
  have hn : BitVec.ofNat 2 (v.toNat % 4) = v.setWidth 2 := by apply BitVec.eq_of_toNat_eq; simp
  unfold Slot.setVuse
  split <;> exact hn

theorem Slot.setVuse_vuseMode (sl : Slot) (v : BitVec 64) : (sl.setVuse v).regs.vuseMode = v.getLsbD 2 := by
  unfold Slot.setVuse
  split <;> rfl

/-- With MODE = 1 a group that N leaves gated loses its contents (R25). -/
theorem Slot.setVuse_v (sl : Slot) (v : BitVec 64) {i : Nat} (hi : i < 32) :
    vget 0 (sl.setVuse v).v i = if v.getLsbD 2 = true ∧ v.toNat % 4 < i / 8 then 0 else vget 0 sl.v i := by
  unfold Slot.setVuse
  by_cases hm : v.getLsbD 2 = true
  · simp only [hm, if_true, true_and]
    simp [vget, hi]
  · simp only [hm]
    rfl

theorem SsetRuns.vuseWrite_sets (h : SsetRuns .rw o s s1 c k n v) (hk : k < 4) : ∃ u, exec (.vuseWrite o) s = .next u ∧
    (u.slot c k).regs.vuseN = v.setWidth 2 ∧ (u.slot c k).regs.vuseMode = v.getLsbD 2 ∧
    ∀ i, i < 32 → vget 0 (u.slot c k).v i = if v.getLsbD 2 = true ∧ v.toNat % 4 < i / 8 then 0 else vget 0 (s1.slot c k).v i := by
  rw [exec_vuseWrite, execVuseWrite]
  refine ⟨_, h.ssetWith_eq (modCurSlot_slot h.cur1 _), ?_⟩
  rw [State.finish_regs (s := s1.modSlot c k _) _ h.cur1 hk, State.finish_v (s := s1.modSlot c k _) _ h.cur1 hk, State.slot_modSlot _ _ _ _ hk]
  exact ⟨Slot.setVuse_vuseN _ v, Slot.setVuse_vuseMode _ v, fun i hi => Slot.setVuse_v _ v hi⟩


/-- The team of a slot is the one that its handle names. -/
theorem State.team_of_teamOf {tm : Team} (ht : s.teamOf c k = some tm) : s.team tm.handle = some tm := by
  unfold State.teamOf at ht
  split at ht
  · next i _ =>
    have hh : tm.handle = i.team := by simpa using List.find?_some ht
    rwa [hh]
  · cases ht

theorem State.team_modTeam (s : State) (h : Nat) (f : Team → Team) (hf : ∀ t, (f t).handle = t.handle) :
    (s.modTeam h f).team h = (s.team h).map f := by
  unfold State.modTeam State.team
  rw [List.find?_map]
  have hp : ((fun t : Team => t.handle == h) ∘ fun t => if (t.handle == h) = true then f t else t) = fun t => t.handle == h := by
    funext t
    simp only [Function.comp]
    split <;> simp [hf]
  rw [hp]
  cases hfound : s.teams.find? (fun t => t.handle == h) with
  | none => rfl
  | some t =>
    have ht : t.handle = h := by simpa using List.find?_some hfound
    simp [ht]

theorem lget_lput_same {α : Type} (d x : α) (l : List α) {i : Nat} (h : i < l.length) : lget d (lput l i x) i = x := by
  induction l generalizing i with
  | nil => exact absurd h (Nat.not_lt_zero i)
  | cons y r ih =>
    cases i with
    | zero => rfl
    | succ i => simpa [lput, lget] using ih (Nat.lt_of_succ_lt_succ h)

theorem Team.entry_modEntry (t : Team) {e : Nat} (f : GazEntry → GazEntry) (h : e < t.gaz.length) :
    (t.modEntry e f).entry e = f (t.entry e) := lget_lput_same _ _ _ h

/-- The comparator that a write names takes what it is given. -/
theorem State.team_modComparator {tm : Team} {e i : Nat} (f : Comparator → Comparator) (ht : s.team tm.handle = some tm)
    (he : e < tm.gaz.length) (hi : i < 4) : ∃ tm', (s.modComparator tm.handle e i f).team tm.handle = some tm' ∧
      vget {} (tm'.entry e).cmps i = f (vget {} (tm.entry e).cmps i) := by
  rw [State.modComparator, State.team_modTeam _ _ (fun t => t.modEntry e _) (fun _ => rfl), ht]
  exact ⟨_, rfl, by rw [Team.entry_modEntry _ _ he, vget_vput_same _ _ _ _ hi]⟩

/-- CMPCTL of comparator i of entry e, which CMPSEL names (R344). -/
theorem SsetRuns.cmpctlWrite_sets {tm : Team} {e i : Nat} (h : SsetRuns .rw o s s1 c k n v) (ht : s1.teamOf c k = some tm)
    (he : (s1.slot c k).regs.cmpsel.toNat % 256 = e) (hi : (s1.slot c k).regs.cmpsel.toNat / 256 = i)
    (hn : e < tm.ngroup) (hl : e < tm.gaz.length) (hv : v.setWidth 32 &&& cmpReserved i = 0) :
    ∃ (u : State) (tm' : Team), exec (.cmpctlWrite o) s = .next u ∧ u.team tm.handle = some tm' ∧
      vget {} (tm'.entry e).cmps i = { vget {} (tm.entry e).cmps i with ctl := v.setWidth 32 } := by
  have hi4 : i < 4 := by omega
  obtain ⟨tm', hteam, hcmp⟩ :=
    State.team_modComparator (fun x => { x with ctl := v.setWidth 32 }) (State.team_of_teamOf ht) hl hi4
  rw [exec_cmpctlWrite, execCmpctlWrite]
  refine ⟨_, tm', h.ssetWith_eq ?_ (t := s1.modComparator tm.handle e i (fun x => { x with ctl := v.setWidth 32 })), ?_, hcmp⟩
  · rw [bind_ok (cmpSite_ok h.cur1 ht (he.symm ▸ hn)), he, hi]
    simp [hv]
  · rw [State.finish_team (s := s1.modComparator _ _ _ _) _ h.cur1, hteam]

/-- A record that no index feeds ends once NEXT has reached its COUNT (R301). -/
theorem Core.stream_settleStream (x : Core) {j : Nat} (hj : j < 4) (hi : (x.stream j).iv = false) :
    (x.settleStream j).stream j = { x.stream j with
      active := (x.stream j).active && decide ((x.stream j).next.toNat < (x.stream j).count.toNat) } := by
  have hend : x.streamEnd (x.stream j) = (x.stream j).count.toNat := by simp [Core.streamEnd, Core.streamCount, hi]
  unfold Core.settleStream
  rw [hend]
  by_cases hle : (x.stream j).count.toNat ≤ (x.stream j).next.toNat
  · simp [hle, Core.stopStream, hi, hj]
  · simp [hle, Nat.lt_of_not_le hle]

theorem SsetRuns.strecWrite_sets {j : Nat} (h : SsetRuns .rw o s s1 c k (0x180 + j) v) (hj : j < 4) (hi : ((s1.core c).stream j).iv = false) :
    ∃ u, exec (.strecWrite o) s = .next u ∧ (u.core c).stream j = { (s1.core c).stream j with
      active := v.getLsbD 63 && decide ((v.setWidth 32).toNat < ((s1.core c).stream j).count.toNat), err := v.getLsbD 62
      owner := (v >>> 60).setWidth 2, errc := (v >>> 57).setWidth 3, next := v.setWidth 32 } := by
  rw [exec_strecWrite, execStrecWrite]
  have hmod : (0x180 + j) % 4 = j := by omega
  refine ⟨_, h.ssetWith_eq (modCurCore_slot h.cur1 _), ?_⟩
  have hs : ∀ f : Core → Core, (((s1.modCore c f).finish o.len).core c).stream j = (f (s1.core c)).stream j := by
    intro f
    rw [Core.stream, State.finish_streams (s := s1.modCore c f) _ h.cur1, State.core_modCore, Core.stream]
  rw [hs]
  simp only [hmod]
  split
  · rw [Core.stream_settleStream _ hj (by rw [Core.stream_modStream _ _ hj]; exact hi), Core.stream_modStream _ _ hj]
    rfl
  · next ha =>
    have ha' : v.getLsbD 63 = false := Bool.not_eq_true _ ▸ ha
    rw [Core.stream_modStream _ _ hj]
    simp only [Stream.write, ha', Bool.false_and]

/-- A unit whose QOSBUD.j takes a word, from its next period on (R263). -/
def Channel.withBudget (u : Channel) (j : Nat) (v : BitVec 64) : Channel :=
  { u with newRate := some (vput (u.newRate.getD u.rate) j (v.setWidth 16))
           newDepth := some (vput (u.newDepth.getD u.depth) j ((v >>> 16).setWidth 16)) }

theorem Channel.budget_withBudget (u : Channel) {j : Nat} (hj : j < 4) (v : BitVec 64) :
    (u.withBudget j v).budget j = (v.setWidth 32).setWidth 64 := by
  apply BitVec.eq_of_toNat_eq
  simp [Channel.budget, Channel.withBudget, hj, Nat.shiftRight_eq_div_pow]
  omega

theorem State.modQosUnit_cur (s : State) (sel : BitVec 16) (f : Channel → Channel) : (s.modQosUnit sel f).cur = s.cur := by
  unfold State.modQosUnit
  split <;> rfl

@[simp] theorem State.qosUnit_modQosUnit (s : State) (sel : BitVec 16) (f : Channel → Channel) :
    (s.modQosUnit sel f).qosUnit sel = f (s.qosUnit sel) := by
  unfold State.modQosUnit State.qosUnit
  split <;> simp

theorem SsetRuns.qosbudWrite_sets {j : Nat} (h : SsetRuns .rw o s s1 c k (0x151 + j) v) (hj : j < 4)
    (hp : s1.unitPart (s1.slot c k).regs.qossel = s1.corePart c) (hd : (v >>> 16).setWidth 16 ≠ (0 : BitVec 16)) :
    ∃ u, exec (.qosbudWrite o) s = .next u ∧ (u.qosUnit (s1.slot c k).regs.qossel).budget j = (v.setWidth 32).setWidth 64 := by
  rw [exec_qosbudWrite, execQosbudWrite]
  have hj' : 0x151 + j - 0x151 = j := by omega
  refine ⟨_, h.ssetWith_eq ?_ (t := s1.modQosUnit (s1.slot c k).regs.qossel (·.withBudget j v)), ?_⟩
  · simp only [hj', beq_iff_eq, hd, if_false]
    rw [bind_ok (qosSite_ok h.cur1 hp)]
    rfl
  · rw [State.finish_qosUnit (s := s1.modQosUnit _ _) _ ((State.modQosUnit_cur _ _ _).trans h.cur1), State.qosUnit_modQosUnit,
      Channel.budget_withBudget _ hj]

theorem SsetRuns.qosbudWrite_trap (h : SsetRuns .rw o s s1 c k n v) (hd : (v >>> 16).setWidth 16 = (0 : BitVec 16)) :
    exec (.qosbudWrite o) s = .next (s.trapCur .illegal (packWord0 0xF1 o)) := by
  rw [exec_qosbudWrite, execQosbudWrite]
  refine h.ssetWith_trap ?_
  simp [hd]

theorem SsetRuns.darbWrite_sets (h : SsetRuns .rw o s s1 c k n v) (hb : (s1.slot c k).regs.qossel.getLsbD 15 = true)
    (hp : s1.unitPart (s1.slot c k).regs.qossel = s1.corePart c) :
    let sel := (s1.slot c k).regs.qossel
    ∃ u, exec (.darbWrite o) s = .next u ∧ (u.qosUnit sel).wn = v.setWidth 4 ∧ (u.qosUnit sel).wd = (v >>> 4).setWidth 4 ∧
      (u.qosUnit sel).dn = (s1.qosUnit sel).dn ∧ (u.qosUnit sel).dd = (s1.qosUnit sel).dd := by
  intro sel
  rw [exec_darbWrite, execDarbWrite]
  refine ⟨_, h.ssetWith_eq ?_ (t := s1.modQosUnit sel (fun u => { u with wn := v.setWidth 4, wd := (v >>> 4).setWidth 4 })), ?_⟩
  · rw [bind_ok (channelSite_ok _ h.cur1 hb hp)]
    rfl
  · rw [State.finish_qosUnit (s := s1.modQosUnit _ _) _ ((State.modQosUnit_cur _ _ _).trans h.cur1), State.qosUnit_modQosUnit]
    exact ⟨rfl, rfl, rfl, rfl⟩

end

/-- An instruction has one answer. -/
theorem next_unique {i : Instr} {s u t : State} (hu : exec i s = .next u) (ht : exec i s = .next t) : u = t :=
  Host.Outcome.next.inj (hu.symm.trans ht)

/-! ### The clauses on one SGET or SSET -/

section
variable {o : Op} {s s1 t : State} {c k n : Nat} {v : BitVec 64}

/-- A register of the list, if it is FPCTL with no flags owed, is read into D. -/
theorem SgetRuns.sget_listed (hg : (s.slot c k).guest = none) : ∀ e ∈ sysReads, SgetRuns o s c k e.1 →
    (e.1 = 0 → (s.slot c k).satOwed c s.ownDev = false) → dstX o.d (e.2 s c k) s = .ok ((), t) →
    exec (.sget o) s = .next (t.finish o.len) := by
  intro e he h ho hd
  rw [← coreGet_sysReads hg e he] at hd
  rw [exec_sget, execSget]
  rcases sysReads_plain e he with h0 | ⟨h0, hq, ha, hb⟩
  · rw [h0] at h hd
    exact h.sgetWith_eq (sysGet_fpctl _ h.cur (ho h0)) hd
  · exact h.sgetWith_eq (sysGet_plain _ h.cur h0 hq ha hb) hd

/-- The values that SSET refuses raise ILLEGAL and store nothing. -/
theorem SsetRuns.sset_refused (h : SsetRuns .rw o s s1 c k n v)
    (hv : (n = 0x000 ∧ 5 ≤ v.toNat % 8 ∧ (s1.slot c k).satOwed c s.ownDev = false) ∨ (n = 0x001 ∧ 5 ≤ v.toNat % 8) ∨
      (n = 0x132 ∧ v.toNat % 4 ≠ 0) ∨ (n = 0x1A0 ∧ v.toNat % 4 ≠ 0)) :
    exec (.sset o) s = .next (s.trapCur .illegal (packWord0 0xF1 o)) := by
  rcases hv with ⟨rfl, hv, ho⟩ | hv
  · exact h.sset_fpctl_trap ho (coreSet_none (.inl ⟨rfl, hv⟩))
  · refine h.sset_trap ?_ ?_ (coreSet_none (.inr hv)) <;> omega

theorem SsetRuns.sset_fpctl_sets (h : SsetRuns .rw o s s1 c k 0x000 v) (hk : k < 4) (ho : (s1.slot c k).satOwed c s.ownDev = false)
    (hv : v.toNat % 8 < 5) :
    ∃ u, exec (.sset o) s = .next u ∧ u.thread.rm = v.setWidth 3 ∧ u.thread.flags = (v >>> 4).setWidth 7 := by
  refine ⟨_, h.sset_fpctl_eq ho (coreSet_fpctl hv), ?_⟩
  rw [State.finish_thread (s := s1.modSlot c k _) _ h.cur1 hk, State.slot_modSlot _ _ _ _ hk]
  exact ⟨rfl, rfl⟩

theorem SsetRuns.sset_xstat_sets (h : SsetRuns .rw o s s1 c k 0x023 v) (hk : k < 4) : ∃ u, exec (.sset o) s = .next u ∧
    (u.slot c k).regs = { (s1.slot c k).regs with
      infiring := v.getLsbD 2, prevk := v.getLsbD 1, vwake := (s1.slot c k).regs.vwake && !v.getLsbD 0 } := by
  refine ⟨_, h.sset_eq (by decide) (by decide) coreSet_xstat, ?_⟩
  rw [State.finish_regs (s := s1.modSlot c k _) _ h.cur1 hk, State.slot_modSlot _ _ _ _ hk]

theorem SsetRuns.sset_acode_sets (h : SsetRuns .rw o s s1 c k 0x132 v) (hk : k < 4) (hv : v.toNat % 4 = 0) :
    ∃ u, exec (.sset o) s = .next u ∧ (u.slot c k).act.acode = v := by
  refine ⟨_, h.sset_eq (by decide) (by decide) (coreSet_acode hv), ?_⟩
  rw [State.finish_act (s := s1.modSlot c k _) _ h.cur1 hk, State.slot_modSlot _ _ _ _ hk]

theorem SsetRuns.sset_kvec_sets (h : SsetRuns .rw o s s1 c k 0x1A0 v) (hk : k < 4) (hv : v.toNat % 4 = 0) :
    ∃ u, exec (.sset o) s = .next u ∧ (u.slot c k).regs.kvec = v := by
  refine ⟨_, h.sset_eq (by decide) (by decide) (coreSet_kvec hv), ?_⟩
  rw [State.finish_regs (s := s1.modSlot c k _) _ h.cur1 hk, State.slot_modSlot _ _ _ _ hk]

theorem SsetRuns.sset_htab_sets {i : Nat} (h : SsetRuns .rw o s s1 c k (0x120 + i) v) (hk : k < 4) (hi : i < 16)
    (hv : bitsOf v.toNat 11 8 ≠ 0) :
    ∃ u, exec (.sset o) s = .next u ∧ vget 0 (u.slot c k).act.htab i = v &&& 0xFFFFFFFF000F0F07 := by
  refine ⟨_, h.sset_eq (by omega) (by omega) (coreSet_htab hi hv), ?_⟩
  rw [State.finish_act (s := s1.modSlot c k _) _ h.cur1 hk, State.slot_modSlot _ _ _ _ hk, vget_vput_same _ _ _ _ hi]

end

end Sys2Proof.Machine

open Sys2Proof.Machine

/-- Settles O47, row by row. Every clause on a stored value speaks of the one state that the SSET answers. QOSSEL and CMPSEL are
the slot's own (log entry 4), and its partition is its cluster's (log entry 6). -/
theorem systemRegisters : Obligations.SystemRegisters := by
  unfold Obligations.SystemRegisters
  constructor
  · intro o s s1 c k v hc hk hg n
    refine ⟨sgetWith_refused, ssetWith_refused, ?_, ?_, ?_, ?_⟩
    · intro e he t hr hn ha ho hd
      exact SgetRuns.sget_listed hg e he ⟨hc, hr, hn, hn ▸ ha⟩ (fun h0 => ho (hn.trans h0)) hd
    · intro hr ha hv
      have h : SsetRuns .ro o s s1 c k n v := ⟨hc, hr, rfl, ha, hv⟩
      refine ⟨fun hn => h.ssetWith_readOnly hn, fun hn hb hp => ?_, fun hn hb => ?_⟩
      · exact SsetRuns.ssetWith_throttle (hn ▸ h) (channelSite_ok _ h.cur1 hb hp)
      · exact SsetRuns.ssetWith_throttle_trap (hn ▸ h) (channelSite_slice _ h.cur1 hb)
    · intro hr ha hv
      have h : SsetRuns .rw o s s1 c k n v := ⟨hc, hr, rfl, ha, hv⟩
      obtain ⟨u, hu⟩ := ssetWith_next sysSet o s
      rw [← execSset, ← exec_sset] at hu
      have answer {P : State → Prop} (hP : ∃ t, exec (.sset o) s = .next t ∧ P t) : exec (.sset o) s = .next u ∧ P u := by
        obtain ⟨t, ht, hPt⟩ := hP
        exact ⟨hu, next_unique hu ht ▸ hPt⟩
      refine ⟨u, fun e he hn => ?_, fun hn ho hv => ?_, fun hn => ?_, fun hn hv => ?_, fun hn hv => ?_, fun i hi hn hv => ?_⟩
      · exact answer (hn ▸ SsetRuns.sset_keeps hk hg e he (hn ▸ h))
      · exact answer (SsetRuns.sset_fpctl_sets (hn ▸ h) hk ho hv)
      · exact answer (SsetRuns.sset_xstat_sets (hn ▸ h) hk)
      · exact answer (SsetRuns.sset_acode_sets (hn ▸ h) hk hv)
      · exact answer (SsetRuns.sset_kvec_sets (hn ▸ h) hk hv)
      · exact answer (SsetRuns.sset_htab_sets (hn ▸ h) hk hi hv)
    · intro hr ha hv href
      exact SsetRuns.sset_refused ⟨hc, hr, rfl, ha, hv⟩ href
  · intro o s s1 t c k v hc hk hg n x sl reads writes
    have toReads {a : Nat} (h : reads a) : SgetRuns o s c k a ∧ s1 = s := by
      obtain ⟨hr, hn, ha, hs⟩ := h
      exact ⟨⟨hc, hr, hn, hn ▸ ha⟩, hs⟩
    have toSets {a : Nat} (h : writes a) : SsetRuns .rw o s s1 c k a v := by
      obtain ⟨hr, hn, ha, hv⟩ := h
      exact ⟨hc, hr, hn, hn ▸ ha, hv⟩
    refine ⟨?_, ?_, ?_, ?_, ?_, ?_, ?_, ?_, ?_, ?_, ?_, ?_, ?_, ?_, ?_, ?_, ?_⟩
    · intro r rest h hr hd
      obtain ⟨h, rfl⟩ := toReads h
      exact h.travpop_pops hr hd
    · intro r rest h hr hd
      obtain ⟨h, rfl⟩ := toReads h
      exact h.sfrqpop_pops hr hd
    · intro r rest h hr hd
      obtain ⟨h, rfl⟩ := toReads h
      exact h.samppop_pops hr hd
    · simp only [List.forall_mem_cons, List.not_mem_nil, IsEmpty.forall_iff, implies_true, and_true]
      refine ⟨fun h he r hd ho => ?_, fun h he r hd ho => ?_, fun h he r hd ho => ?_⟩ <;> obtain ⟨h, rfl⟩ := toReads h
      · exact h.travpop_empty hk he hd ho
      · exact h.sfrqpop_empty hk he hd ho
      · exact h.samppop_empty hk he hd ho
    · exact fun h hm hv => (toSets h).mseqWrite_idle hm hv
    · exact fun h hm => (toSets h).mseqWrite_active hm
    · exact fun h hq hm => (toSets h).munitWrite_idle hq hm
    · exact fun h => (toSets h).travctlWrite_sets
    · exact fun h => (toSets h).sampctlWrite_sets
    · exact fun h hb => (toSets h).amodeWrite_sets hk hb
    · exact fun h hb hm => (toSets h).amodeWrite_trap hb hm
    · exact fun h => (toSets h).vuseWrite_sets hk
    · exact fun tm h ht hn hl hv => (toSets h).cmpctlWrite_sets ht rfl rfl hn hl hv
    · exact fun j hj h hi => (toSets h).strecWrite_sets hj hi
    · exact fun j hj h hp hd => (toSets h).qosbudWrite_sets hj hp hd
    · exact fun j _ h hd => (toSets h).qosbudWrite_trap hd
    · exact fun h hb hp => (toSets h).darbWrite_sets hb hp
end

section
/-! Guards and modes (R15, R43, R46, R332): every instruction runs through `runLanes`, the scalar ones behind their guard bit, so
the checks before a body are made once for all of them. -/

open Sys2Proof

namespace Sys2Proof.Machine

/-! ### How an instruction of either profile runs -/

/-- An instruction runs under its opcode behind its guard bit, but for the lane instructions, whose guard acts per lane (R101);
events and host commands have no opcode. -/
theorem exec_runScalar_or_runLanes {i : Instr} {code : Nat} {o : Op} (h : opOf i = some (code, o)) :
    ∃ body : M Flow, (∀ s, exec i s = runScalar code o body s) ∨
      (laneCodes.contains code = true ∧ ∀ s, exec i s = runLanes code o body s) := by
  cases i <;> cases h
  case vlds | vsts | vadd | vsub | vmul | vmulh | vand | vor | vxor | vshl | vshr | vsra | vmin | vmax | vabs | vfadd | vfsub
      | vfmul | vfma | vfmin | vfmax | vfdiv | vfsqrt | vexp2 | vlog2 | vrcp | vrsq | vcmp | vfcmp | vsel | vbcast | vext
      | vins | vperm | vslide | vredadd | vredmax | vredmin | vfred | vcvt | vamax | vquant | vdeq | vpopc | vpfx | vcompr
      | vexpnd | vgath | vscat | gather | dot16 =>
    exact ⟨_, .inr ⟨by decide, fun _ => rfl⟩⟩
  all_goals exact ⟨_, .inl fun _ => rfl⟩

/-- Outside the lane instructions the guard bit decides whether the body runs at all (R43). -/
theorem exec_runScalar {i : Instr} {code : Nat} {o : Op} (h : opOf i = some (code, o)) (hl : laneCodes.contains code = false) :
    ∃ body : M Flow, ∀ s, exec i s = runScalar code o body s := by
  obtain ⟨body, hs | ⟨hc, -⟩⟩ := exec_runScalar_or_runLanes h
  · exact ⟨body, hs⟩
  · rw [hl] at hc
    cases hc

/-- Every instruction makes the checks of `runLanes` before its body. -/
theorem exec_runLanes {i : Instr} {code : Nat} {o : Op} (h : opOf i = some (code, o)) :
    ∃ body : M Flow, ∀ s, exec i s = runLanes code o body s := by
  obtain ⟨body, hs | ⟨-, hv⟩⟩ := exec_runScalar_or_runLanes h
  · exact ⟨_, hs⟩
  · exact ⟨body, hv⟩

/-- An error in the guard register raises MACHINECHECK with its address, where the opcode may run (R332). -/
theorem runLanes_machinecheck {code : Nat} {o : Op} {body : M Flow} {s : State} {r : Row} {v : BitVec 64} (hr : rowOf code = some r)
    (ha : s.allowed r = true) (hf : s.skidFull = false) (hm : s.maskError o.p.toNat = some v) :
    runLanes code o body s = .next (s.trapCur .machinecheck v) := by
  simp [runLanes, hr, ha, hf, hm]

/-! ### Faults of the sources of an integer instruction -/

section
variable {code : Nat} {o : Op} {f : Nat → Nat → Nat → Nat} {s s1 : State} {a v : BitVec 64} {c : Cause}

theorem intOp2_trap_a (h : s.runs code o) (ha : srcX (immValue o) o.a s = .error (.trap c v)) :
    intOp2 code o f s = .next (s.trapCur c v) :=
  runScalar_trap h.1 h.2 (bind_error ha)

theorem intOp2_trap_b (h : s.runs code o) (ha : srcX (immValue o) o.a s = .ok (a, s1))
    (hb : srcX (immValue o) o.b s1 = .error (.trap c v)) : intOp2 code o f s = .next (s.trapCur c v) :=
  runScalar_trap h.1 h.2 ((bind_ok ha).trans (bind_error hb))

end

/-- The two-source integer instructions of R77 read A, then B, and combine the two values. -/
theorem exec_intTable : ∀ e ∈ intTable, ∀ o : Op, ∃ f : Nat → Nat → Nat → Nat, ∀ s, exec (e.1 o) s = intOp2 e.2.1 o f s := by
  simp only [intTable, List.forall_mem_cons, List.not_mem_nil, IsEmpty.forall_iff, implies_true, and_true]
  and_intros <;> exact fun o => ⟨_, fun _ => rfl⟩

end Sys2Proof.Machine

open Sys2Proof.Machine

/-- Settles O6: all instructions share the checks of `runLanes`, and the scalar ones the test of the guard bit. An SGET or SSET of
a refused number is no exception to a false guard, which is log entry 46 (DESIGN CHOICE). -/
theorem guardsAndModes : Obligations.GuardsAndModes := by
  unfold Obligations.GuardsAndModes
  refine ⟨?_, ?_, ?_, ?_⟩
  · intro i code o s ho hl hrun hg
    obtain ⟨body, hb⟩ := exec_runScalar ho hl
    rw [hb, runScalar_false hrun hg]
  · intro i code o r s ho hr ha
    obtain ⟨body, hb⟩ := exec_runLanes ho
    rw [hb, runLanes_illegal hr ha]
  · intro i code o r s v ho hr ha hf hm
    obtain ⟨body, hb⟩ := exec_runLanes ho
    rw [hb, runLanes_machinecheck hr ha hf hm]
  · intro e he o s s1 a v hrun
    obtain ⟨f, hf⟩ := exec_intTable e he o
    rw [hf]
    exact ⟨intOp2_trap_a hrun, intOp2_trap_b hrun⟩
end

section
/-! The decoder and the encoder are inverse (R33, R37-R46): the bytes of a number, the fields of word 0, the opcode map, and then
the whole of an instruction. -/

namespace Sys2Proof

open Machine

/-! ### The bytes of a number (R8) -/

@[simp] theorem length_natToBytes (n v : Nat) : (natToBytes n v).length = n := by
  induction n generalizing v with
  | zero => rfl
  | succ n ih => simp [natToBytes, ih]

theorem bytesToNat_lt (bs : List Byte) : bytesToNat bs < 256 ^ bs.length := by
  induction bs with
  | nil => simp [bytesToNat]
  | cons b bs ih =>
    have hb : b.toNat < 256 := b.isLt
    simp only [bytesToNat, List.length_cons, Nat.pow_succ]
    omega

/-- n bytes hold the number modulo 256^n. -/
theorem bytesToNat_natToBytes (n v : Nat) : bytesToNat (natToBytes n v) = v % 256 ^ n := by
  induction n generalizing v with
  | zero => simp [natToBytes, bytesToNat, Nat.mod_one]
  | succ n ih =>
    have hmul : v % 256 ^ (n + 1) = v % 256 + 256 * (v / 256 % 256 ^ n) := by rw [Nat.pow_succ', Nat.mod_mul]
    rw [natToBytes, bytesToNat, ih, hmul, BitVec.toNat_ofNat]

theorem natToBytes_bytesToNat (bs : List Byte) : natToBytes bs.length (bytesToNat bs) = bs := by
  induction bs with
  | nil => rfl
  | cons b bs ih =>
    have hb : b.toNat < 256 := b.isLt
    have hdiv : (b.toNat + 256 * bytesToNat bs) / 256 = bytesToNat bs := by omega
    have hhead : BitVec.ofNat 8 (b.toNat + 256 * bytesToNat bs) = b :=
      BitVec.eq_of_toNat_eq (by rw [BitVec.toNat_ofNat]; omega)
    rw [List.length_cons, natToBytes, bytesToNat, hdiv, hhead, ih]

/-- The first byte decides the low bits, however many follow. -/
theorem bytesToNat_take_mod_four (bs : List Byte) (n : Nat) : bytesToNat (bs.take (n + 1)) % 4 = bytesToNat (bs.take 1) % 4 := by
  cases bs with
  | nil => rfl
  | cons b bs =>
    simp only [List.take_succ_cons, List.take_zero, bytesToNat]
    omega

/-- A number that fits n bytes, written to them and read as a word. -/
theorem ofNat_bytesToNat_natToBytes {n : Nat} {v : BitVec 64} (h : v.toNat < 256 ^ n) :
    BitVec.ofNat 64 (bytesToNat (natToBytes n v.toNat)) = v := by
  rw [bytesToNat_natToBytes, Nat.mod_eq_of_lt h, BitVec.ofNat_toNat, BitVec.setWidth_eq]

/-- At most eight bytes, read as a word and written again. -/
theorem natToBytes_ofNat_bytesToNat {bs : List Byte} (h : bs.length ≤ 8) :
    natToBytes bs.length (BitVec.ofNat 64 (bytesToNat bs)).toNat = bs := by
  have hlt : bytesToNat bs < 2 ^ 64 :=
    calc bytesToNat bs < 256 ^ bs.length := bytesToNat_lt bs
      _ ≤ 256 ^ 8 := Nat.pow_le_pow_right (by decide) h
  rw [BitVec.toNat_ofNat, Nat.mod_eq_of_lt hlt, natToBytes_bytesToNat]

/-! ### Operand specifiers and lengths (R33, R41) -/

theorem opdOfBits_opdToBits (d : Opd) : opdOfBits (opdToBits d) = d := by
  cases d with
  | reg n => revert n; decide
  | chan c => revert c; decide
  | queue q => revert q; decide
  | rsvd k => revert k; decide
  | imm => decide

theorem opdToBits_opdOfBits : ∀ v : BitVec 6, opdToBits (opdOfBits v) = v := by decide

theorem lenOfBits_eq_some_iff {v : Nat} {len : Len} : lenOfBits v = some len ↔ v = (lenBits len).toNat := by
  constructor
  · intro h
    unfold lenOfBits at h
    split at h <;> cases h <;> rfl
  · rintro rfl
    cases len <;> rfl

/-! ### The fields of word 0 (R37) -/

theorem beq_one_toNat (b : Bool) : (b.toNat == 1) = b := by cases b <;> rfl

theorem toNat_beq_one {v : Nat} (h : v < 2) : (v == 1).toNat = v := by interval_cases v <;> rfl

theorem fieldAt_lt (w lo n : Nat) : fieldAt w lo n < 2 ^ n := Nat.mod_lt _ (by positivity)

/-- A word above a bit is the field that begins there and the word above that field. -/
theorem div_eq_fieldAt_add (w lo n : Nat) : w / 2 ^ lo = fieldAt w lo n + 2 ^ n * (w / 2 ^ (lo + n)) := by
  rw [fieldAt, Nat.pow_add, ← Nat.div_div_eq_div_mul, Nat.mod_add_div]

/-- Each field fits its place in word 0. -/
theorem field_bounds (o : Op) : (lenBits o.len).toNat < 2 ^ 2 ∧ (opdToBits o.d).toNat < 2 ^ 6 ∧ (opdToBits o.a).toNat < 2 ^ 6 ∧
    (opdToBits o.b).toNat < 2 ^ 6 ∧ (opdToBits o.c).toNat < 2 ^ 6 ∧ o.p.toNat < 2 ^ 3 ∧ o.pn.toNat < 2 ∧ o.t.toNat < 2 ^ 4 ∧
    o.m.toNat < 2 ^ 4 ∧ o.i18.toNat < 2 ^ 18 :=
  ⟨BitVec.isLt _, BitVec.isLt _, BitVec.isLt _, BitVec.isLt _, BitVec.isLt _, BitVec.isLt _, Bool.toNat_lt _, BitVec.isLt _,
    BitVec.isLt _, BitVec.isLt _⟩

/-- Word 0 is the sum of its fields, each at its place: none overflows into the next. -/
theorem packWord0_toNat {code : Nat} (hcode : code < 256) (o : Op) :
    (packWord0 code o).toNat = (lenBits o.len).toNat + 2 ^ 2 * code + 2 ^ 10 * (opdToBits o.d).toNat +
      2 ^ 16 * (opdToBits o.a).toNat + 2 ^ 22 * (opdToBits o.b).toNat + 2 ^ 28 * (opdToBits o.c).toNat +
      2 ^ 34 * o.p.toNat + 2 ^ 37 * o.pn.toNat + 2 ^ 38 * o.t.toNat + 2 ^ 42 * o.m.toNat + 2 ^ 46 * o.i18.toNat := by
  obtain ⟨hlen, hd, ha, hb, hc, hp, hpn, ht, hm, hi⟩ := field_bounds o
  rw [packWord0, BitVec.toNat_ofNat, Nat.mod_eq_of_lt hcode, Nat.mod_eq_of_lt (by omega)]

theorem packWord0_mod_four {code : Nat} (hcode : code < 256) (o : Op) : (packWord0 code o).toNat % 4 = (lenBits o.len).toNat := by
  have hlen := (lenBits o.len).isLt
  rw [packWord0_toNat hcode]
  omega

/-- Each field of a packed word is read back. -/
theorem fieldAt_packWord0 {code : Nat} (hcode : code < 256) (o : Op) :
    let w := (packWord0 code o).toNat
    fieldAt w 2 8 = code ∧ fieldAt w 10 6 = (opdToBits o.d).toNat ∧ fieldAt w 16 6 = (opdToBits o.a).toNat ∧
      fieldAt w 22 6 = (opdToBits o.b).toNat ∧ fieldAt w 28 6 = (opdToBits o.c).toNat ∧ fieldAt w 34 3 = o.p.toNat ∧
      fieldAt w 37 1 = o.pn.toNat ∧ fieldAt w 38 4 = o.t.toNat ∧ fieldAt w 42 4 = o.m.toNat ∧
      fieldAt w 46 18 = o.i18.toNat := by
  intro w
  have hw : w = _ := packWord0_toNat hcode o
  obtain ⟨hlen, hd, ha, hb, hc, hp, hpn, ht, hm, hi⟩ := field_bounds o
  simp only [fieldAt]
  refine ⟨?_, ?_, ?_, ?_, ?_, ?_, ?_, ?_, ?_, ?_⟩ <;> omega

/-- Unpacking a packed word gives the fields back. -/
theorem unpackOp_packWord0 {code : Nat} (hcode : code < 256) (o : Op) :
    unpackOp o.len (packWord0 code o).toNat o.ext = o := by
  obtain ⟨-, hd, ha, hb, hc, hp, hpn, ht, hm, hi⟩ := fieldAt_packWord0 hcode o
  simp only [unpackOp, hd, ha, hb, hc, hp, hpn, ht, hm, hi, beq_one_toNat, BitVec.ofNat_toNat, BitVec.setWidth_eq, opdOfBits_opdToBits]

/-- Packing the fields of a word gives the word back: every bit of it belongs to a field. -/
theorem packWord0_unpackOp {len : Len} {w : BitVec 64} (hlen : w.toNat % 4 = (lenBits len).toNat) (ext : BitVec 64) :
    packWord0 (fieldAt w.toNat 2 8) (unpackOp len w.toNat ext) = w := by
  apply BitVec.eq_of_toNat_eq
  have field (lo n : Nat) : (BitVec.ofNat n (fieldAt w.toNat lo n)).toNat = fieldAt w.toNat lo n := by
    rw [BitVec.toNat_ofNat, Nat.mod_eq_of_lt (fieldAt_lt _ _ _)]
  have hpn := toNat_beq_one (fieldAt_lt w.toNat 37 1)
  rw [packWord0_toNat (fieldAt_lt _ _ _)]
  simp only [unpackOp, opdToBits_opdOfBits, field, hpn, ← hlen]
  have hop := div_eq_fieldAt_add w.toNat 2 8
  have hd := div_eq_fieldAt_add w.toNat 10 6
  have ha := div_eq_fieldAt_add w.toNat 16 6
  have hb := div_eq_fieldAt_add w.toNat 22 6
  have hc := div_eq_fieldAt_add w.toNat 28 6
  have hp := div_eq_fieldAt_add w.toNat 34 3
  have hn := div_eq_fieldAt_add w.toNat 37 1
  have ht := div_eq_fieldAt_add w.toNat 38 4
  have hm := div_eq_fieldAt_add w.toNat 42 4
  have hi := div_eq_fieldAt_add w.toNat 46 18
  have htop : w.toNat / 2 ^ (46 + 18) = 0 := Nat.div_eq_of_lt w.isLt
  have hlow := Nat.mod_add_div w.toNat 4
  omega

/-! ### The opcode map (R46, R48) -/

/-- A row is found under its own opcode. -/
theorem rowOf_eq_some {code : Nat} {r : Row} (h : rowOf code = some r) : r ∈ rows ∧ r.code = code :=
  ⟨List.mem_of_find?_eq_some h, by simpa using List.find?_some h⟩

theorem rowOf_code_lt {code : Nat} {r : Row} (h : rowOf code = some r) : code < 256 := by
  have hlt : ∀ r ∈ rows, r.code < 256 := by decide +kernel
  obtain ⟨hmem, rfl⟩ := rowOf_eq_some h
  exact hlt r hmem

/-- A JOB row builds one of the five kinds of job, which keep its opcode and fields. -/
theorem opOf_mkJob (o : Op) : opOf (mkJob o) = some (0xE0, o) := by
  unfold mkJob
  split <;> rfl

theorem opOf_mkSget (o : Op) : opOf (mkSget o) = some (0xF0, o) := by
  unfold mkSget
  split <;> rfl

theorem opOf_mkSset (o : Op) : opOf (mkSset o) = some (0xF1, o) := by
  unfold mkSset
  split <;> rfl

theorem opOf_ite (c : Bool) {i j : Instr} {x : Nat × Op} (hi : opOf i = some x) (hj : opOf j = some x) :
    opOf (if c then i else j) = some x := by
  cases c <;> assumption

/-- Rows that build one constructor each. -/
theorem opOf_build_plain : ∀ r ∈ rowsScalar ++ rowsScalarFp ++ rowsMemory ++ rowsAtomic ++ rowsVector1 ++ rowsVector2 ++ rowsBank ++
    rowsActor ++ rowsMatrix ++ rowsDeep, ∀ o, opOf (r.build o) = some (r.code, o) := by
  simp only [rowsScalar, rowsScalarFp, rowsMemory, rowsAtomic, rowsVector1, rowsVector2, rowsBank, rowsActor, rowsMatrix, rowsDeep,
    List.forall_mem_append, List.forall_mem_cons, List.not_mem_nil, IsEmpty.forall_iff, implies_true, and_true]
  and_intros <;> exact fun _ => rfl

/-- J and JAL build a constructor by their length (R89). -/
theorem opOf_build_control : ∀ r ∈ rowsControl, ∀ o, opOf (r.build o) = some (r.code, o) := by
  simp only [rowsControl, List.forall_mem_cons, List.not_mem_nil, IsEmpty.forall_iff, implies_true, and_true]
  refine ⟨fun _ => rfl, fun _ => opOf_ite _ rfl rfl, fun _ => opOf_ite _ rfl rfl, ?_⟩
  and_intros <;> exact fun _ => rfl

theorem opOf_build_engine : ∀ r ∈ rowsEngine, ∀ o, opOf (r.build o) = some (r.code, o) := by
  simp only [rowsEngine, List.forall_mem_cons, List.not_mem_nil, IsEmpty.forall_iff, implies_true, and_true]
  refine ⟨opOf_mkJob, ?_⟩
  and_intros <;> exact fun _ => rfl

theorem opOf_build_system : ∀ r ∈ rowsSystem, ∀ o, opOf (r.build o) = some (r.code, o) := by
  simp only [rowsSystem, List.forall_mem_cons, List.not_mem_nil, IsEmpty.forall_iff, implies_true, and_true]
  refine ⟨opOf_mkSget, opOf_mkSset, ?_⟩
  and_intros <;> exact fun _ => rfl

/-- The instruction that a row builds has the row's opcode and the fields that it was built from. -/
theorem opOf_build (r : Row) (hr : r ∈ rows) (o : Op) : opOf (r.build o) = some (r.code, o) := by
  have h : r ∈ rowsScalar ++ rowsScalarFp ++ rowsMemory ++ rowsAtomic ++ rowsVector1 ++ rowsVector2 ++ rowsBank ++ rowsActor ++
      rowsMatrix ++ rowsDeep ∨ r ∈ rowsControl ∨ r ∈ rowsEngine ∨ r ∈ rowsSystem := by
    simp only [rows, List.mem_append] at hr ⊢
    tauto
  obtain h | h | h | h := h
  · exact opOf_build_plain r h o
  · exact opOf_build_control r h o
  · exact opOf_build_engine r h o
  · exact opOf_build_system r h o

/-- An instruction of either profile is well formed when its opcode's row is satisfied and builds it. -/
theorem Instr.wf_eq_opWf {i : Instr} {code : Nat} {o : Op} (h : opOf i = some (code, o)) (prof : Profile) :
    i.wf prof = opWf prof i code o := by
  cases i <;> cases h <;> rfl

theorem opWf_iff {prof : Profile} {i : Instr} {code : Nat} {o : Op} :
    opWf prof i code o = true ↔ ∃ r, rowOf code = some r ∧ rowOk prof r o = true ∧ r.build o = i := by
  unfold opWf
  cases rowOf code <;> simp

/-- What a word decodes to is what its opcode and fields are well formed for. -/
theorem decodeWord_eq_some_iff {prof : Profile} {len : Len} {w ext : BitVec 64} {i : Instr} :
    decodeWord prof len w ext = some i ↔ opWf prof i (fieldAt w.toNat 2 8) (unpackOp len w.toNat ext) = true := by
  rw [opWf_iff]
  unfold decodeWord
  cases rowOf (fieldAt w.toNat 2 8) <;> simp

theorem opWf_extFits {prof : Profile} {i : Instr} {code : Nat} {o : Op} (h : opWf prof i code o = true) : extFits o = true := by
  obtain ⟨r, -, hr, -⟩ := opWf_iff.mp h
  simp only [rowOk, Bool.and_eq_true] at hr
  obtain ⟨⟨-, hfits⟩, -⟩ := hr
  exact hfits

/-- The opcode and fields that an instruction is well formed for are those that the encoder takes from it. -/
theorem opOf_of_opWf {prof : Profile} {i : Instr} {code : Nat} {o : Op} (h : opWf prof i code o = true) : opOf i = some (code, o) := by
  obtain ⟨r, hr, -, rfl⟩ := opWf_iff.mp h
  obtain ⟨hmem, rfl⟩ := rowOf_eq_some hr
  exact opOf_build r hmem o

/-- The extension word fits the bytes that follow word 0 (R33). -/
theorem ext_lt_of_extFits {o : Op} (h : extFits o = true) : o.ext.toNat < 256 ^ (lenBytes o.len - 8) := by
  unfold extFits at h
  cases hlen : o.len <;> simp only [hlen] at h
  case w64 => simp [lenBytes, eq_of_beq h]
  case w96 => simpa [lenBytes] using h
  case w128 => exact o.ext.isLt

/-! ### A whole instruction (R33, R34) -/

theorem eight_le_lenBytes (len : Len) : 8 ≤ lenBytes len := by cases len <;> decide

theorem lenBytes_le_sixteen (len : Len) : lenBytes len ≤ 16 := by cases len <;> decide

/-- The bytes that spell an opcode with its fields. -/
def instrBytes (code : Nat) (o : Op) : List Byte :=
  natToBytes 8 (packWord0 code o).toNat ++ natToBytes (lenBytes o.len - 8) o.ext.toNat

theorem encode_eq {i : Instr} {code : Nat} {o : Op} (h : opOf i = some (code, o)) : encode i = some (instrBytes code o) := by
  simp only [encode, h, instrBytes]

@[simp] theorem length_instrBytes (code : Nat) (o : Op) : (instrBytes code o).length = lenBytes o.len := by
  have := eight_le_lenBytes o.len
  simp only [instrBytes, List.length_append, length_natToBytes]
  omega

theorem take_eight_instrBytes (code : Nat) (o : Op) (rest : List Byte) :
    (instrBytes code o ++ rest).take 8 = natToBytes 8 (packWord0 code o).toNat := by
  rw [instrBytes, List.append_assoc, List.take_left' (length_natToBytes 8 _)]

theorem ext_of_instrBytes (code : Nat) (o : Op) (rest : List Byte) :
    ((instrBytes code o ++ rest).take (lenBytes o.len)).drop 8 = natToBytes (lenBytes o.len - 8) o.ext.toNat := by
  rw [List.take_left' (length_instrBytes code o), instrBytes, List.drop_left' (length_natToBytes 8 _)]

/-- A block decodes to an instruction when its length bits name a length that the block holds, and word 0 decodes with the bytes
after it. -/
theorem decodeBlock_eq_ok_iff {prof : Profile} {bs : List Byte} {i : Instr} {n : Nat} :
    decodeBlock prof bs = .ok (i, n) ↔ ∃ len, bytesToNat (bs.take 8) % 4 = (lenBits len).toNat ∧ lenBytes len ≤ bs.length ∧
      decodeWord prof len (BitVec.ofNat 64 (bytesToNat (bs.take 8)))
        (BitVec.ofNat 64 (bytesToNat ((bs.take (lenBytes len)).drop 8))) = some i ∧ lenBytes len = n := by
  have hbits : bytesToNat (bs.take 4) % 4 = bytesToNat (bs.take 8) % 4 :=
    (bytesToNat_take_mod_four bs 3).trans (bytesToNat_take_mod_four bs 7).symm
  simp only [← lenOfBits_eq_some_iff]
  unfold decodeBlock
  simp only [hbits]
  cases lenOfBits (bytesToNat (bs.take 8) % 4) with
  | none => simp
  | some len =>
    by_cases hn : bs.length < lenBytes len
    · simp [hn]
    · cases hw : decodeWord prof len (BitVec.ofNat 64 (bytesToNat (bs.take 8)))
          (BitVec.ofNat 64 (bytesToNat ((bs.take (lenBytes len)).drop 8))) <;>
        simp [hn, hw, Nat.le_of_not_lt hn]

/-- The bytes of a well-formed instruction decode to it, whatever follows them. -/
theorem decodeBlock_instrBytes {prof : Profile} {i : Instr} {code : Nat} {o : Op} (h : opWf prof i code o = true)
    (rest : List Byte) : decodeBlock prof (instrBytes code o ++ rest) = .ok (i, lenBytes o.len) := by
  obtain ⟨r, hr, -, -⟩ := opWf_iff.mp h
  have hcode := rowOf_code_lt hr
  have hword : (packWord0 code o).toNat < 256 ^ 8 := (packWord0 code o).isLt
  refine decodeBlock_eq_ok_iff.mpr ⟨o.len, ?_, by simp, ?_, rfl⟩
  · rw [take_eight_instrBytes, bytesToNat_natToBytes, Nat.mod_eq_of_lt hword, packWord0_mod_four hcode]
  · rw [take_eight_instrBytes, ext_of_instrBytes, ofNat_bytesToNat_natToBytes hword,
      ofNat_bytesToNat_natToBytes (ext_lt_of_extFits (opWf_extFits h)), decodeWord_eq_some_iff, unpackOp_packWord0 hcode,
      (fieldAt_packWord0 hcode o).1]
    exact h

/-- The opcode and fields read from the bytes of one length spell those bytes. -/
theorem instrBytes_unpackOp {len : Len} {bs : List Byte} (hbits : bytesToNat (bs.take 8) % 4 = (lenBits len).toNat)
    (hlen : lenBytes len ≤ bs.length) :
    let w := BitVec.ofNat 64 (bytesToNat (bs.take 8))
    let ext := BitVec.ofNat 64 (bytesToNat ((bs.take (lenBytes len)).drop 8))
    instrBytes (fieldAt w.toNat 2 8) (unpackOp len w.toNat ext) = bs.take (lenBytes len) := by
  intro w ext
  have h8 := eight_le_lenBytes len
  have h16 := lenBytes_le_sixteen len
  have hl8 : (bs.take 8).length = 8 := by simp; omega
  have hlx : ((bs.take (lenBytes len)).drop 8).length = lenBytes len - 8 := by simp; omega
  have hw : natToBytes 8 w.toNat = bs.take 8 := by
    simpa only [hl8] using natToBytes_ofNat_bytesToNat (bs := bs.take 8) (by omega)
  have hext : natToBytes (lenBytes len - 8) ext.toNat = (bs.take (lenBytes len)).drop 8 := by
    simpa only [hlx] using natToBytes_ofNat_bytesToNat (bs := (bs.take (lenBytes len)).drop 8) (by omega)
  have hmod : w.toNat % 4 = (lenBits len).toNat := by
    rw [BitVec.toNat_ofNat, Nat.mod_mod_of_dvd _ (by decide), hbits]
  calc instrBytes (fieldAt w.toNat 2 8) (unpackOp len w.toNat ext)
      = natToBytes 8 w.toNat ++ natToBytes (lenBytes len - 8) ext.toNat := by
        rw [instrBytes, packWord0_unpackOp hmod]; rfl
    _ = (bs.take (lenBytes len)).take 8 ++ (bs.take (lenBytes len)).drop 8 := by
        rw [hw, hext, List.take_take, Nat.min_eq_left h8]
    _ = bs.take (lenBytes len) := List.take_append_drop _ _

/-! ### Words that the spec spells out -/

/-- Each worked instruction is well formed and encodes to its word. -/
theorem workedWords_encode : ∀ e ∈ workedWords,
    e.2.2.wf e.1 = true ∧ (opOf e.2.2).isSome = true ∧ encode e.2.2 = some (natToBytes 8 e.2.1) := by decide +kernel

end Sys2Proof

open Sys2Proof Sys2Proof.Machine

/-- Settles O58: a well-formed instruction is spelled by its opcode and fields, which the decoder reads back. -/
theorem encodeThenDecode : Obligations.EncodeThenDecode := by
  unfold Obligations.EncodeThenDecode
  intro prof i hwf hop
  obtain ⟨⟨code, o⟩, ho⟩ := Option.isSome_iff_exists.mp hop
  rw [Instr.wf_eq_opWf ho] at hwf
  refine ⟨instrBytes code o, encode_eq ho, fun rest => ?_⟩
  rw [decodeBlock_instrBytes hwf, length_instrBytes]

/-- Settles O59: what decodes satisfies its row, and its opcode and fields spell the bytes that they were read from. -/
theorem decodeThenEncode : Obligations.DecodeThenEncode := by
  unfold Obligations.DecodeThenEncode
  intro prof bs i n h
  obtain ⟨len, hbits, hlen, hword, rfl⟩ := decodeBlock_eq_ok_iff.mp h
  have hwf := decodeWord_eq_some_iff.mp hword
  have hop := opOf_of_opWf hwf
  exact ⟨(Instr.wf_eq_opWf hop prof).trans hwf, (encode_eq hop).trans (congrArg some (instrBytes_unpackOp hbits hlen))⟩

/-- Settles O57: each word is the encoding of its instruction, so by O58 it decodes to it. -/
theorem workedWords : Obligations.WorkedWords := by
  unfold Obligations.WorkedWords
  intro e he
  obtain ⟨hwf, hop, henc⟩ := workedWords_encode e he
  obtain ⟨bs, hbs, hdec⟩ := encodeThenDecode e.1 e.2.2 hwf hop
  obtain rfl : natToBytes 8 e.2.1 = bs := Option.some.inj (henc.symm.trans hbs)
  simpa using hdec []
end

section
/-! Control transfers (R35, R39, R89, R90): offsets and targets in the words of the spec, then each transfer to an aligned target
and to any other. -/

open Sys2Proof

namespace Sys2Proof.Machine

/-! ### Offsets and targets (R39, R40) -/

theorem toSigned_eq_toInt {n : Nat} (hn : 0 < n) (v : Nat) : toSigned n v = (BitVec.ofNat n v).toInt := by
  obtain ⟨k, rfl⟩ := Nat.exists_eq_add_of_lt hn
  rw [toSigned, BitVec.toInt_eq_toNat_cond, BitVec.toNat_ofNat]
  simp only [Nat.zero_add, Nat.add_sub_cancel, Nat.pow_succ]
  split <;> split <;> omega

/-- SignExtend of R40 is the sign extension of the low n bits. -/
theorem signExtend64_eq {n : Nat} (hn : 0 < n) (v : Nat) : signExtend64 n v = (BitVec.ofNat n v).signExtend 64 := by
  rw [signExtend64, toSigned_eq_toInt hn, BitVec.signExtend]

theorem byteOffset_eq (o : Op) : byteOffset o = o.i18.signExtend 64 := by
  rw [byteOffset, signExtend64_eq (by decide), BitVec.ofNat_toNat, BitVec.setWidth_eq]

theorem relTarget_eq (o : Op) (pc : BitVec 64) : relTarget o pc = pc + (o.ext.setWidth 32).signExtend 64 * 4 := by
  rw [relTarget, wordTarget, signExtend64_eq (by decide), BitVec.ofNat_toNat]

/-! ### Steps that the transfers share -/

theorem homeOnly_run {s : State} (h : s.isGuest = false) : homeOnly s = .ok ((), s) := by
  simp [homeOnly, h]

/-- A transfer to an aligned target that writes a link or a counter, and then decides whether it is taken. -/
theorem jumpTo_wrX_ok {a v : BitVec 64} {n : Nat} {taken : Flow → Flow} {s t : State} (ha : a.toNat % 4 = 0)
    (hw : wrX n v s = .ok ((), t)) :
    (jumpTo a >>= fun f => wrX n v >>= fun _ => pure (taken f) : M Flow) s = .ok (taken (.jump a), t) := by
  rw [bind_ok (jumpTo_ok ha s), bind_ok hw, pure_run]

/-- A link or a counter is not written before the target is checked (R35). -/
theorem jumpTo_wrX_trap {a v : BitVec 64} {n : Nat} {taken : Flow → Flow} {s : State} (ha : a.toNat % 4 ≠ 0) :
    (jumpTo a >>= fun f => wrX n v >>= fun _ => pure (taken f) : M Flow) s = .error (.trap .align a) :=
  bind_error (jumpTo_trap ha s)

/-- The shared body of the two forms of JAL (R89). -/
theorem linkJump_run (o : Op) (target : BitVec 64 → BitVec 64) (s : State) : linkJump o target s =
    (jumpTo (target s.thread.pc) >>= fun f => wrX (regNum o.d) (linkOf o s.thread.pc) >>= fun _ => pure f : M Flow) s :=
  bind_ok (curThread_run s)

/-- A counted branch is taken or falls through (R89). -/
theorem State.advance_ite (t : State) (len : Len) (a : BitVec 64) (c : Prop) [Decidable c] :
    t.noteIssue.advance len (if c then .jump a else .next) = if c then t.goto a else t.finish len := by
  split <;> rfl

/-- A counter against the low 32 bits of a latch (R90). -/
theorem ult_setWidth_iff (a v : BitVec 64) : a.ult ((v.setWidth 32).setWidth 64) = true ↔ a.toNat < v.toNat % 2 ^ 32 := by
  have hlt : v.toNat % 2 ^ 32 < 2 ^ 64 := by omega
  rw [BitVec.ult, decide_eq_true_iff, BitVec.toNat_setWidth, BitVec.toNat_setWidth, Nat.mod_eq_of_lt hlt]

end Sys2Proof.Machine

open Sys2Proof.Machine

/-- Settles O5: every transfer reads its registers, checks its target, and only then writes its link or its counter. -/
theorem transfers : Obligations.Transfers := by
  unfold Obligations.Transfers
  simp only [← byteOffset_eq, ← relTarget_eq]
  constructor
  · intro o s t a hg
    refine ⟨?br, ?j, ?jAbsolute, ?jal, ?jalAbsolute, ?jr, ?jalr, ?loop, ?loopc⟩
    case br | j => exact fun h ha => runScalar_goto h hg ((bind_ok (curThread_run s)).trans (jumpTo_ok ha s))
    case jAbsolute => exact fun h ha => runScalar_goto h hg (jumpTo_ok ha s)
    case jal | jalAbsolute => exact fun h ha hw => runScalar_goto h hg ((linkJump_run o _ s).trans (jumpTo_wrX_ok ha hw))
    case jr => exact fun h hr ha => runScalar_goto h hg ((bind_ok hr).trans (jumpTo_ok ha s))
    case jalr =>
      intro h hr ha hw
      exact runScalar_goto h hg ((bind_ok (curThread_run s)).trans ((bind_ok hr).trans (jumpTo_wrX_ok ha hw)))
    case loop =>
      intro h hr ha hw
      rw [exec_loop, execLoop, runScalar_ok h hg ((bind_ok (curThread_run s)).trans ((bind_ok hr).trans (jumpTo_wrX_ok ha hw))),
        State.advance_ite]
      simp only [bne_iff_ne, ite_not]
    case loopc =>
      intro h hh hr ha hw
      rw [exec_loopc, execLoopc, runScalar_ok h hg ((bind_ok (homeOnly_run hh)).trans ((bind_ok (curThread_run s)).trans
        ((bind_ok hr).trans ((bind_ok (curSlot_run s)).trans (jumpTo_wrX_ok ha hw))))), State.advance_ite]
      simp only [ult_setWidth_iff]
  · intro o s a hg
    refine ⟨?br, ?j, ?jAbsolute, ?jal, ?jalAbsolute, ?jr, ?jalr, ?loop, ?loopc⟩
    case br | j => exact fun h ha => runScalar_trap h hg ((bind_ok (curThread_run s)).trans (jumpTo_trap ha s))
    case jAbsolute => exact fun h ha => runScalar_trap h hg (jumpTo_trap ha s)
    case jal | jalAbsolute => exact fun h ha => runScalar_trap h hg ((linkJump_run o _ s).trans (jumpTo_wrX_trap ha))
    case jr => exact fun h hr ha => runScalar_trap h hg ((bind_ok hr).trans (jumpTo_trap ha s))
    case jalr | loop =>
      exact fun h hr ha => runScalar_trap h hg ((bind_ok (curThread_run s)).trans ((bind_ok hr).trans (jumpTo_wrX_trap ha)))
    case loopc =>
      exact fun h hh hr ha => runScalar_trap h hg ((bind_ok (homeOnly_run hh)).trans ((bind_ok (curThread_run s)).trans
        ((bind_ok hr).trans ((bind_ok (curSlot_run s)).trans (jumpTo_wrX_trap ha)))))
end

section
/-! What the number helpers compute (R50-R71), over the rationals: the rounding of one value to a grid, the codes of a format in the order
of their magnitudes, and then each helper by its place among them; exact sums and greatest magnitudes by their folds. -/

open Sys2Proof
namespace Sys2Proof.Machine

/-! ### Binades and powers of two (R63) -/

theorem two_zpow_floorLog_le {m : Nat} (hm : m ≠ 0) (e : Int) : (2 : ℚ) ^ floorLog m e ≤ m * 2 ^ e := by
  have h : ((2 ^ Nat.log 2 m : Nat) : ℚ) ≤ m := Nat.cast_le.mpr (Nat.pow_log_le_self 2 hm)
  rw [floorLog, Nat.log2_eq_log_two, zpow_add₀ two_ne_zero, zpow_natCast]
  exact mul_le_mul_of_nonneg_right (by exact_mod_cast h) (by positivity)

theorem lt_two_zpow_floorLog_add_one (m : Nat) (e : Int) : (m : ℚ) * 2 ^ e < 2 ^ (floorLog m e + 1) := by
  have h : (m : ℚ) < ((2 ^ (Nat.log 2 m + 1) : Nat) : ℚ) := Nat.cast_lt.mpr (Nat.lt_pow_succ_log_self one_lt_two m)
  rw [floorLog, Nat.log2_eq_log_two, add_right_comm, zpow_add₀ two_ne_zero]
  exact mul_lt_mul_of_pos_right (by exact_mod_cast h) (by positivity)

/-- A difference of exponents that is not negative, as a power of naturals. -/
theorem two_zpow_div_two_zpow {a b : Int} (h : b ≤ a) : (2 : ℚ) ^ a / 2 ^ b = ((2 ^ (a - b).toNat : Nat) : ℚ) := by
  rw [← zpow_sub₀ two_ne_zero, Nat.cast_pow, Nat.cast_ofNat, ← zpow_natCast, Int.toNat_of_nonneg (by omega)]

/-! ### Rounding to an integer (R63) -/

section
variable {rm : Nat} {neg : Bool} {n : ℚ} {k : Nat}

/-- In every mode the rounded integer is less than one from the number. -/
theorem abs_sub_lt_one_of_roundsTo (h : roundsTo rm neg n k) : |(k : ℚ) - n| < 1 := by
  have floor (hk : (k : ℤ) = ⌊n⌋) : |(k : ℚ) - n| < 1 := by
    obtain ⟨h1, h2⟩ := Int.floor_eq_iff.mp hk.symm
    push_cast at h1 h2
    rw [abs_lt]; constructor <;> linarith
  have ceil (hk : (k : ℤ) = ⌈n⌉) : |(k : ℚ) - n| < 1 := by
    obtain ⟨h1, h2⟩ := Int.ceil_eq_iff.mp hk.symm
    push_cast at h1 h2
    rw [abs_lt]; constructor <;> linarith
  unfold roundsTo at h
  split at h
  · exact floor h
  · split at h
    · exact ceil h
    · exact floor h
  · split at h
    · exact floor h
    · exact ceil h
  · linarith [h.1]
  · linarith [h.1]

theorem le_of_roundsTo {b : Nat} (h : roundsTo rm neg n k) (hb : n ≤ b) : k ≤ b := by
  have := (abs_lt.mp (abs_sub_lt_one_of_roundsTo h)).2
  have : (k : ℚ) < (b + 1 : Nat) := by push_cast; linarith
  exact Nat.lt_succ_iff.mp (Nat.cast_lt.mp this)

theorem le_roundsTo {a : Nat} (h : roundsTo rm neg n k) (ha : (a : ℚ) ≤ n) : a ≤ k := by
  have := (abs_lt.mp (abs_sub_lt_one_of_roundsTo h)).1
  have : (a : ℚ) < (k + 1 : Nat) := by push_cast; linarith
  exact Nat.lt_succ_iff.mp (Nat.cast_lt.mp this)

/-- A natural number is its own rounding in every mode. -/
theorem roundsTo_natCast (rm : Nat) (neg : Bool) (k : Nat) : roundsTo rm neg (k : ℚ) k := by
  unfold roundsTo
  split <;> simp

/-- Different naturals at most a half from n are the neighbours that n is midway between. -/
theorem midway_of_lt {j : Nat} (hkj : k < j) (hk : |(k : ℚ) - n| ≤ 1 / 2) (hj : |(j : ℚ) - n| ≤ 1 / 2) :
    j = k + 1 ∧ n = k + 1 / 2 := by
  have hc : (k : ℚ) + 1 ≤ j := by exact_mod_cast hkj
  rw [abs_le] at hk hj
  have hjk : (j : ℚ) = (k + 1 : Nat) := by push_cast; linarith
  exact ⟨Nat.cast_injective hjk, by linarith⟩

theorem not_lt_of_roundsTo {j : Nat} (hk : roundsTo rm neg n k) (hj : roundsTo rm neg n j) : ¬ k < j := by
  intro hkj
  have half : |(k : ℚ) - (k + 1 / 2)| = 1 / 2 ∧ |((k + 1 : Nat) : ℚ) - (k + 1 / 2)| = 1 / 2 := by
    push_cast; constructor <;> ring_nf <;> norm_num
  unfold roundsTo at hk hj
  split at hk <;> simp only at hj
  · omega
  · omega
  · omega
  · obtain ⟨-, rfl⟩ := midway_of_lt hkj hk.1 hj.1
    exact absurd (hk.2 half.1) (by linarith)
  · obtain ⟨rfl, rfl⟩ := midway_of_lt hkj hk.1 hj.1
    have := hk.2 half.1
    have := hj.2 half.2
    omega

theorem roundsTo_unique {j : Nat} (hk : roundsTo rm neg n k) (hj : roundsTo rm neg n j) : k = j :=
  Nat.le_antisymm (not_lt.mp (not_lt_of_roundsTo hj hk)) (not_lt.mp (not_lt_of_roundsTo hk hj))

end

/-! ### What RoundAt computes -/

/-- On a grid no coarser than the value's own, nothing is rounded. -/
theorem roundAt_of_le {q e : Int} (h : q ≤ e) (rm : Nat) (neg : Bool) (m : Nat) :
    roundAt rm neg m e false q = (m * 2 ^ (e - q).toNat, true) := by simp [roundAt, h]

/-- Mode rm takes the quotient k of a division by 2 × half that leaves r to k + 1. -/
def roundsUp (rm : Nat) (neg : Bool) (half k r : Nat) : Bool :=
  match rm with
  | 1 => false
  | 2 => neg && r != 0
  | 3 => !neg && r != 0
  | 4 => decide (half < r) || r == half
  | _ => decide (half < r) || r == half && k % 2 == 1

theorem roundAt_of_lt {q e : Int} (h : e < q) (rm : Nat) (neg : Bool) (m : Nat) :
    let d := 2 ^ (q - e).toNat
    let up := roundsUp rm neg (2 ^ ((q - e).toNat - 1)) (m / d) (m % d)
    roundAt rm neg m e false q = (if up then m / d + 1 else m / d, m % d == 0) := by
  simp only [roundAt, if_neg h.not_ge, roundsUp, Bool.not_false, Bool.and_true, Bool.and_false, Bool.or_false, bne]
  congr 3

theorem roundsTo_roundsUp (rm : Nat) (neg : Bool) {half r : Nat} (k : Nat) (hr : r < 2 * half) :
    roundsTo rm neg (k + (r : ℚ) / (2 * half)) (if roundsUp rm neg half k r then k + 1 else k) := by
  have hpos : (0 : ℚ) < 2 * half := by exact_mod_cast (by omega : 0 < 2 * half)
  obtain ⟨t, ht⟩ : ∃ t, (r : ℚ) / (2 * half) = t := ⟨_, rfl⟩
  have ht0 : 0 ≤ t := ht ▸ by positivity
  have ht1 : t < 1 := ht ▸ (div_lt_one hpos).mpr (by exact_mod_cast hr)
  have hzero : r = 0 ↔ t = 0 := by rw [← ht, div_eq_zero_iff, or_iff_left hpos.ne', Nat.cast_eq_zero]
  have hhalf : half < r ↔ 1 / 2 < t := by
    rw [← ht, lt_div_iff₀ hpos, show (1 / 2 * (2 * half) : ℚ) = half by ring, Nat.cast_lt]
  have htie : r = half ↔ t = 1 / 2 := by
    rw [← ht, div_eq_iff hpos.ne', show (1 / 2 * (2 * half) : ℚ) = half by ring, Nat.cast_inj]
  have floor : ⌊(k + t : ℚ)⌋ = k := by
    rw [Int.floor_eq_iff]; push_cast; constructor <;> linarith
  have ceil (h : t ≠ 0) : ⌈(k + t : ℚ)⌉ = k + 1 := by
    have := lt_of_le_of_ne ht0 h.symm
    rw [Int.ceil_eq_iff]; push_cast; constructor <;> linarith
  have dist : |(k : ℚ) - (k + t)| = t := by rw [sub_add_cancel_left, abs_neg, abs_of_nonneg ht0]
  have dist_succ : |((k + 1 : Nat) : ℚ) - (k + t)| = 1 - t := by
    rw [Nat.cast_succ, add_sub_add_left_eq_sub, abs_of_nonneg (by linarith)]
  rw [ht]
  unfold roundsTo roundsUp
  split
  · simp [floor]
  · by_cases h : t = 0 <;> cases neg <;> simp [hzero, h, floor, ceil]
  · by_cases h : t = 0 <;> cases neg <;> simp [hzero, h, floor, ceil]
  · simp only [Bool.or_eq_true, decide_eq_true_eq, beq_iff_eq, hhalf, htie]
    split
    · rw [dist_succ]; exact ⟨by grind, fun h => by push_cast; linarith⟩
    · rw [dist]; grind
  · simp only [Bool.or_eq_true, Bool.and_eq_true, decide_eq_true_eq, beq_iff_eq, hhalf, htie]
    split
    · rw [dist_succ]; grind
    · rw [dist]; grind

/-- A coarser grid: the quotient by a power of two, half of it a natural number. -/
theorem roundAt_spec_of_lt {q e : Int} (h : e < q) (rm : Nat) (neg : Bool) (m : Nat) :
    roundsTo rm neg (m * 2 ^ e / 2 ^ q) (roundAt rm neg m e false q).1 ∧
    ((roundAt rm neg m e false q).2 = true ↔ ((roundAt rm neg m e false q).1 : ℚ) = m * 2 ^ e / 2 ^ q) := by
  obtain ⟨d, hd⟩ : ∃ d, d = 2 ^ (q - e).toNat := ⟨_, rfl⟩
  obtain ⟨half, hhalf⟩ : ∃ half, half = 2 ^ ((q - e).toNat - 1) := ⟨_, rfl⟩
  have hdh : d = 2 * half := by rw [hd, hhalf, mul_pow_sub_one (by omega)]
  have hdpos : 0 < d := hd ▸ by positivity
  have hx : (m : ℚ) * 2 ^ e / 2 ^ q = m / d := by
    rw [mul_div_assoc, ← inv_div, two_zpow_div_two_zpow h.le, ← hd, div_eq_mul_inv]
  have hsplit : (m : ℚ) / d = (m / d : Nat) + ((m % d : Nat) : ℚ) / (2 * half) := by
    have : (m : ℚ) = d * (m / d : Nat) + (m % d : Nat) := by exact_mod_cast (Nat.div_add_mod m d).symm
    rw [show (2 * half : ℚ) = d by rw [hdh]; push_cast; rfl]
    field_simp
    linarith
  have hto := roundsTo_roundsUp rm neg (m / d) (hdh ▸ Nat.mod_lt m hdpos : m % d < 2 * half)
  rw [roundAt_of_lt h, hx, ← hd, ← hhalf]
  rw [← hsplit] at hto
  refine ⟨hto, ?_⟩
  simp only [beq_iff_eq]
  generalize (if roundsUp rm neg half (m / d) (m % d) then m / d + 1 else m / d) = k at hto ⊢
  constructor
  · intro hr
    have hnat : (m : ℚ) / d = (m / d : Nat) := (Nat.cast_div (Nat.dvd_of_mod_eq_zero hr) (by positivity)).symm
    rw [hnat] at hto ⊢
    rw [roundsTo_unique hto (roundsTo_natCast rm neg _)]
  · intro hk
    rw [eq_div_iff (by positivity)] at hk
    exact Nat.mod_eq_zero_of_dvd (Dvd.intro_left k (by exact_mod_cast hk))

/-- RoundAt rounds m × 2^e on the grid of spacing 2^q, and says whether that was exact. -/
theorem roundAt_spec (rm : Nat) (neg : Bool) (m : Nat) (e q : Int) :
    roundsTo rm neg (m * 2 ^ e / 2 ^ q) (roundAt rm neg m e false q).1 ∧
    ((roundAt rm neg m e false q).2 = true ↔ ((roundAt rm neg m e false q).1 : ℚ) = m * 2 ^ e / 2 ^ q) := by
  obtain h | h := le_or_gt q e
  · have hx : (m : ℚ) * 2 ^ e / 2 ^ q = ((m * 2 ^ (e - q).toNat : Nat) : ℚ) := by
      rw [mul_div_assoc, two_zpow_div_two_zpow h, Nat.cast_mul]
    rw [roundAt_of_le h, hx]
    exact ⟨roundsTo_natCast rm neg _, iff_of_true rfl rfl⟩
  · exact roundAt_spec_of_lt h rm neg m

/-! ### What RoundToGrid computes (R63, R64) -/

section
variable {rm m p k : Nat} {neg exact tiny : Bool} {e emin ee : Int}

theorem roundGrid_eq (rm : Nat) (neg : Bool) (m : Nat) (e : Int) (p : Nat) (emin : Int) :
    let l := floorLog m e
    let r := roundAt rm neg m e false (max l emin - p + 1)
    roundGrid rm neg m e false p emin = (max l emin, r.1, r.2,
      decide (l < emin) && !((roundAt rm neg m e false (l - p + 1)).1 == 2 ^ p && l + 1 == emin)) := by
  simp only [roundGrid, Prod.mk.injEq, true_and]
  split <;> simp [*]

theorem two_pow_mul_two_zpow (n : Nat) (a : Int) : ((2 ^ n : Nat) : ℚ) * 2 ^ a = 2 ^ (n + a) := by
  rw [zpow_add₀ two_ne_zero, zpow_natCast]; push_cast; rfl

/-- The value lies in the binade of its exponent: on a grid of precision p it is between 2^(p-1) and 2^p. -/
theorem binade_bounds (hm : m ≠ 0) (hp : 1 ≤ p) (e : Int) :
    let l := floorLog m e
    ((2 ^ (p - 1) : Nat) : ℚ) ≤ m * 2 ^ e / 2 ^ (l - p + 1) ∧ (m : ℚ) * 2 ^ e / 2 ^ (l - p + 1) < (2 ^ p : Nat) := by
  intro l
  rw [le_div_iff₀ (by positivity), div_lt_iff₀ (by positivity), two_pow_mul_two_zpow, two_pow_mul_two_zpow,
    show ((p - 1 : Nat) : Int) + (l - p + 1) = l by omega, show (p : Int) + (l - p + 1) = l + 1 by omega]
  exact ⟨two_zpow_floorLog_le hm e, lt_two_zpow_floorLog_add_one m e⟩

/-- Tininess is judged on the value rounded with no least exponent. -/
theorem tiny_iff (hm : m ≠ 0) (hp : 1 ≤ p) (hg : roundGrid rm neg m e false p emin = (ee, k, exact, tiny)) {j : Nat}
    (hj : roundsTo rm neg (m * 2 ^ e / 2 ^ (floorLog m e - p + 1)) j) :
    tiny = true ↔ (j : ℚ) * 2 ^ (floorLog m e - p + 1) < 2 ^ emin := by
  obtain ⟨hlo, hhi⟩ := binade_bounds hm hp e
  have hj1 : 2 ^ (p - 1) ≤ j := le_roundsTo hj hlo
  have hj2 : j ≤ 2 ^ p := le_of_roundsTo hj hhi.le
  rw [roundGrid_eq, roundsTo_unique (roundAt_spec rm neg m e _).1 hj] at hg
  simp only [Prod.mk.injEq] at hg
  obtain ⟨-, -, -, rfl⟩ := hg
  generalize floorLog m e = l
  have hpow (i : Nat) : ((2 ^ i : Nat) : ℚ) * 2 ^ (l - p + 1) = 2 ^ (l + 1 + i - p) := by
    rw [two_pow_mul_two_zpow]; congr 1; ring
  obtain hl | hl := le_or_gt emin l
  · refine iff_of_false (by simp [hl]) (not_lt.mpr ?_)
    calc (2 : ℚ) ^ emin ≤ 2 ^ l := zpow_le_zpow_right₀ one_le_two hl
      _ = ((2 ^ (p - 1) : Nat) : ℚ) * 2 ^ (l - p + 1) := by rw [hpow]; congr 1; omega
      _ ≤ j * 2 ^ (l - p + 1) := mul_le_mul_of_nonneg_right (Nat.cast_le.mpr hj1) (by positivity)
  obtain rfl | hj := hj2.eq_or_lt
  · rw [hpow, zpow_lt_zpow_iff_right₀ one_lt_two]
    simp only [hl, decide_true, beq_self_eq_true, Bool.true_and, Bool.not_eq_true', beq_eq_false_iff_ne]
    omega
  · refine iff_of_true (by simp [hl, hj.ne]) ?_
    calc (j : ℚ) * 2 ^ (l - p + 1) < (2 ^ p : Nat) * 2 ^ (l - p + 1) :=
          mul_lt_mul_of_pos_right (Nat.cast_lt.mpr hj) (by positivity)
      _ = 2 ^ (l + 1) := by rw [hpow]; congr 1; omega
      _ ≤ 2 ^ emin := zpow_le_zpow_right₀ one_le_two hl

theorem roundGrid_spec (hg : roundGrid rm neg m e false p emin = (ee, k, exact, tiny)) :
    ee = max (floorLog m e) emin ∧ roundsTo rm neg (m * 2 ^ e / 2 ^ (ee - p + 1)) k ∧
    (exact = true ↔ (k : ℚ) = m * 2 ^ e / 2 ^ (ee - p + 1)) := by
  rw [roundGrid_eq] at hg
  simp only [Prod.mk.injEq] at hg
  obtain ⟨rfl, rfl, rfl, -⟩ := hg
  exact ⟨rfl, roundAt_spec rm neg m e _⟩

/-- The rounded integer has at most p bits, or is 2^p, and at least p bits above the least exponent. -/
theorem roundGrid_bounds (hm : m ≠ 0) (hp : 1 ≤ p) (hg : roundGrid rm neg m e false p emin = (ee, k, exact, tiny)) :
    emin ≤ ee ∧ k ≤ 2 ^ p ∧ (ee = emin ∨ 2 ^ (p - 1) ≤ k) := by
  obtain ⟨rfl, hto, -⟩ := roundGrid_spec hg
  obtain ⟨hlo, hhi⟩ := binade_bounds hm hp e
  refine ⟨le_max_right _ _, le_of_roundsTo hto (le_trans ?_ hhi.le), ?_⟩
  · have : (2 : ℚ) ^ (floorLog m e - p + 1) ≤ 2 ^ (max (floorLog m e) emin - p + 1) := zpow_le_zpow_right₀ one_le_two (by omega)
    exact div_le_div_of_nonneg_left (by positivity) (by positivity) this
  · obtain h | h := le_total (floorLog m e) emin
    · exact .inl (max_eq_right h)
    · rw [max_eq_left h] at hto ⊢
      exact .inr (le_roundsTo hto hlo)

end

/-! ### The codes of a format in order (R51, R55)

Below its special codes a format numbers its magnitudes in order: code j × 2^(p-1) + k has the significand k in binade j. -/

/-- The magnitude of a code with p bits of precision and least exponent emin. The codes of the least binade and the
subnormal codes below them share its spacing. -/
def codeMag (p : Nat) (emin : Int) (c : Nat) : ℚ :=
  let j := c / 2 ^ (p - 1) - 1
  ((c - j * 2 ^ (p - 1) : Nat) : ℚ) * 2 ^ (emin + j - p + 1)

section
variable {p : Nat} {emin : Int}

theorem codeMag_add (hp : 1 ≤ p) (emin : Int) {j k : Nat} (hk : k ≤ 2 ^ p) (hjk : j = 0 ∨ 2 ^ (p - 1) ≤ k) :
    codeMag p emin (j * 2 ^ (p - 1) + k) = k * 2 ^ (emin + j - p + 1) := by
  have hpos : 0 < 2 ^ (p - 1) := by positivity
  rw [← mul_pow_sub_one (by omega : p ≠ 0)] at hk
  unfold codeMag
  generalize 2 ^ (p - 1) = h at *
  have hdiv : (j * h + k) / h = j + k / h := by rw [mul_comm, Nat.mul_add_div hpos]
  obtain hlt | rfl := hk.lt_or_eq
  · have hj : (j * h + k) / h - 1 = j := by
      rw [hdiv]
      obtain rfl | hjk := hjk
      · have : k / h < 2 := Nat.div_lt_of_lt_mul (by omega)
        omega
      · rw [Nat.div_eq_of_lt_le (k := 1) (by omega) (by omega)]; rfl
    simp only [hj, Nat.add_sub_cancel_left]
  · have hj : (j * h + 2 * h) / h - 1 = j + 1 := by rw [hdiv, Nat.mul_div_cancel _ hpos]; rfl
    have hsub : j * h + 2 * h - (j + 1) * h = h := by
      rw [Nat.add_mul]; omega
    simp only [hj, hsub]
    rw [show emin + (j + 1 : Nat) - p + 1 = emin + j - p + 1 + 1 by push_cast; ring, zpow_add_one₀ two_ne_zero]
    push_cast; ring

/-- Every code is of the form that `codeMag_add` speaks of, with one code of its binade above it. -/
theorem exists_binade_of_code (hp : 1 ≤ p) (c : Nat) :
    ∃ j k, c = j * 2 ^ (p - 1) + k ∧ k < 2 ^ p ∧ (j = 0 ∨ 2 ^ (p - 1) ≤ k) := by
  rw [← mul_pow_sub_one (by omega : p ≠ 0)]
  have hpos : 0 < 2 ^ (p - 1) := by positivity
  generalize 2 ^ (p - 1) = h at *
  have hmod := Nat.mod_lt c hpos
  have hc := Nat.div_add_mod c h
  by_cases h0 : c / h = 0
  · rw [h0] at hc
    exact ⟨0, c, by omega, by omega, .inl rfl⟩
  · obtain ⟨j, hj⟩ := Nat.exists_eq_add_one_of_ne_zero h0
    rw [hj, Nat.mul_add_one, mul_comm] at hc
    exact ⟨j, h + c % h, by omega, by omega, .inr (by omega)⟩

theorem codeMag_strictMono (hp : 1 ≤ p) (emin : Int) : StrictMono (codeMag p emin) := by
  refine strictMono_nat_of_lt_succ fun c => ?_
  obtain ⟨j, k, rfl, hk, hjk⟩ := exists_binade_of_code hp c
  rw [add_assoc, codeMag_add hp emin hk.le hjk, codeMag_add hp emin hk (by omega)]
  exact mul_lt_mul_of_pos_right (by push_cast; linarith) (by positivity)

theorem codeMag_of_roundGrid {rm m k : Nat} {neg exact tiny : Bool} {e ee : Int} (hm : m ≠ 0) (hp : 1 ≤ p)
    (hg : roundGrid rm neg m e false p emin = (ee, k, exact, tiny)) :
    codeMag p emin ((ee - emin).toNat * 2 ^ (p - 1) + k) = k * 2 ^ (ee - p + 1) := by
  obtain ⟨hee, hk, hlo⟩ := roundGrid_bounds hm hp hg
  rw [codeMag_add hp emin hk (by omega), Int.toNat_of_nonneg (by omega), add_sub_cancel]

end

/-- The value that the fields of a code spell, in an IEEE and in a binary8 format. -/
def FVal.ofCode (p : Nat) (emin : Int) (neg : Bool) (c : Nat) : FVal :=
  if c / 2 ^ (p - 1) = 0 then .fin neg (c % 2 ^ (p - 1)) (emin - p + 1)
  else .fin neg (2 ^ (p - 1) + c % 2 ^ (p - 1)) (emin + (c / 2 ^ (p - 1) : Nat) - p)

theorem FVal.ofCode_fin (p : Nat) (emin : Int) (neg : Bool) (c : Nat) : ∃ m e, FVal.ofCode p emin neg c = .fin neg m e := by
  unfold FVal.ofCode; split <;> exact ⟨_, _, rfl⟩

theorem FVal.ofCode_toRat (p : Nat) (emin : Int) (neg : Bool) (c : Nat) :
    (FVal.ofCode p emin neg c).toRat = if neg then -codeMag p emin c else codeMag p emin c := by
  have hmag : (FVal.ofCode p emin neg c).toRat = (if neg then -1 else 1) * codeMag p emin c := by
    unfold FVal.ofCode codeMag
    have hc := Nat.div_add_mod c (2 ^ (p - 1))
    generalize 2 ^ (p - 1) = h at *
    split
    · rw [‹c / h = 0›, mul_zero, zero_add] at hc
      simp [FVal.toRat, *]
    · obtain ⟨j, hj⟩ := Nat.exists_eq_add_one_of_ne_zero ‹c / h ≠ 0›
      have hsub : c - j * h = h + c % h := by
        rw [hj, mul_add_one, mul_comm] at hc; omega
      simp only [FVal.toRat, hj, Nat.add_sub_cancel, hsub]
      rw [show emin + (j + 1 : Nat) - p = emin + j - p + 1 by push_cast; ring]
  rw [hmag]; cases neg <;> simp

/-! ### The codes of the IEEE formats (R51, R65) -/

section
variable {f : Fmt} {neg : Bool} {c : Nat}

theorem Fmt.bits_bounds (hf : f ∈ [f16, f32, f64]) :
    1 ≤ f.p ∧ 2 ^ f.width = 2 * f.signBit ∧ f.infBits < f.signBit ∧ f.infBits ≠ 0 := by
  simp only [List.mem_cons, List.not_mem_nil, or_false] at hf
  obtain rfl | rfl | rfl := hf <;> decide

theorem Fmt.decode_signed (hf : f ∈ [f16, f32, f64]) (neg : Bool) (hc : c < f.signBit) :
    f.decode (f.signed neg c) =
      if c / 2 ^ (f.p - 1) = 2 ^ f.ebits - 1 then
        if c % 2 ^ (f.p - 1) = 0 then .inf neg else .nan (c % 2 ^ (f.p - 1) < 2 ^ (f.p - 2))
      else FVal.ofCode f.p f.emin neg c := by
  obtain ⟨-, hw, -⟩ := Fmt.bits_bounds hf
  have hlt : f.signed neg c < 2 ^ f.width := by unfold Fmt.signed; split <;> omega
  have hneg : decide (f.signBit ≤ f.signed neg c) = neg := by cases neg <;> simp [Fmt.signed, hc]
  have hmag : f.signed neg c % f.signBit = c := by cases neg <;> simp [Fmt.signed, Nat.mod_eq_of_lt hc]
  simp only [Fmt.decode, Nat.mod_eq_of_lt hlt, hneg, hmag, beq_iff_eq, FVal.ofCode, Fmt.emin]
  congr 3
  ring

theorem Fmt.decode_finite (hf : f ∈ [f16, f32, f64]) (neg : Bool) (hc : c ≤ f.maxBits) :
    f.decode (f.signed neg c) = FVal.ofCode f.p f.emin neg c := by
  obtain ⟨-, -, hi, h0⟩ := Fmt.bits_bounds hf
  have hlt : c < f.infBits := by unfold Fmt.maxBits at hc; omega
  rw [Fmt.decode_signed hf neg (by omega), if_neg]
  exact (Nat.div_lt_of_lt_mul (by rw [mul_comm]; exact hlt)).ne

theorem Fmt.decode_inf (hf : f ∈ [f16, f32, f64]) (neg : Bool) : f.decode (f.signed neg f.infBits) = .inf neg := by
  obtain ⟨-, -, hi, h0⟩ := Fmt.bits_bounds hf
  have hpos : 0 < 2 ^ (f.p - 1) := by positivity
  rw [Fmt.decode_signed hf neg hi, Fmt.infBits, if_pos (Nat.mul_div_cancel _ hpos), if_pos (Nat.mul_mod_left _ _)]

theorem Fmt.decode_finite_toRat (hf : f ∈ [f16, f32, f64]) (neg : Bool) (hc : c ≤ f.maxBits) :
    (f.decode (f.signed neg c)).toRat = if neg then -codeMag f.p f.emin c else codeMag f.p f.emin c := by
  rw [Fmt.decode_finite hf neg hc, FVal.ofCode_toRat]

theorem Fmt.decode_maxBits (hf : f ∈ [f16, f32, f64]) : (f.decode f.maxBits).toRat = codeMag f.p f.emin f.maxBits :=
  Fmt.decode_finite_toRat hf false le_rfl

end

/-! ### The codes of the binary8 formats (R53-R56) -/

section
variable {f c : Nat} {neg : Bool}

theorem one_le_b8P (hf : isB8 f = true) : 1 ≤ b8P f := by
  simp only [isB8, Bool.and_eq_true, bne_iff_ne] at hf
  exact Nat.one_le_iff_ne_zero.mpr hf.1.2

theorem b8Max_lt (f : Nat) : b8Max f < if b8Unsigned f then 0xFF else 0x80 := by
  unfold b8Max; split <;> simp [*]

theorem b8Max_lt_b8Inf (hx : b8Ext f = true) : b8Max f < b8Inf f := by
  cases hu : b8Unsigned f <;> simp [b8Max, b8Inf, hu, hx]

/-- A finite code is not special, and gives back its sign and its magnitude. It has a sign only in a signed format, and
not where −0 would be, for that is the NaN. -/
theorem b8Signed_fields (hc : c ≤ b8Max f) (hneg : neg = true → b8Unsigned f = false ∧ c ≠ 0) :
    let x := b8Signed neg c
    x ≠ b8Nan f ∧ (b8Ext f = true → x ≠ b8Inf f) ∧ (b8Ext f = true → b8Unsigned f = false → x ≠ 0xFF) ∧
    (!b8Unsigned f && decide (0x80 ≤ x)) = neg ∧ (if b8Unsigned f then x else x % 0x80) = c := by
  have hlt := hc.trans_lt (b8Max_lt f)
  have hinf (hx : b8Ext f = true) : c < b8Inf f := hc.trans_lt (b8Max_lt_b8Inf hx)
  cases neg with
  | false => cases hu : b8Unsigned f <;> simp [b8Signed, b8Nan, b8Inf, hu] at hlt hinf ⊢ <;> grind
  | true =>
    obtain ⟨hu, h0⟩ := hneg rfl
    simp [b8Signed, b8Nan, b8Inf, hu] at hlt hinf ⊢
    grind

theorem decodeB8_finite (hc : c ≤ b8Max f) (hneg : neg = true → b8Unsigned f = false ∧ c ≠ 0) :
    decodeB8 (b8Signed neg c) f = FVal.ofCode (b8P f) (1 - (b8Bias f : Int)) neg c := by
  obtain ⟨hnan, hinf, hninf, hsign, hmag⟩ := b8Signed_fields hc hneg
  rw [decodeB8, if_neg (by simpa using hnan), if_neg (by simpa using hinf), if_neg (by simpa using hninf)]
  simp only [hsign, hmag, beq_iff_eq, FVal.ofCode]
  congr 2 <;> ring

theorem decodeB8_inf (hx : b8Ext f = true) (hneg : neg = true → b8Unsigned f = false) :
    decodeB8 (b8Signed neg (b8Inf f)) f = .inf neg := by
  cases hu : b8Unsigned f <;> cases neg <;> simp_all [decodeB8, b8Signed, b8Inf, b8Nan]

end

/-! ### RoundIeee and RoundB8 of a finite value (R64-R66) -/

theorem overflowToInf_iff {rm : Nat} {neg : Bool} :
    overflowToInf rm neg = true ↔ ¬ (rm = 1 ∨ (rm = 2 ∧ neg = false) ∨ (rm = 3 ∧ neg = true)) := by
  unfold overflowToInf
  split
  case h_4 h1 h2 h3 => exact iff_of_true rfl (by rintro (h | ⟨h, -⟩ | ⟨h, -⟩); exacts [h1 h, h2 h, h3 h])
  all_goals simp

theorem roundedFlags_eq (exact tiny : Bool) : (flagIf (!exact) flNX ||| flagIf (!exact && tiny) flUF) =
    if exact then 0 else if tiny then flNX ||| flUF else flNX := by
  cases exact <;> cases tiny <;> rfl

section
variable {f : Fmt} {rm m k : Nat} {neg exact tiny : Bool} {e ee : Int}

theorem roundIeee_zero (f : Fmt) (rm : Nat) (neg : Bool) (e : Int) : roundIeee f rm (.fin neg 0 e) = (f.signed neg 0, 0) := rfl

/-- What R65 delivers for an overflow. -/
theorem Fmt.decode_overflow (hf : f ∈ [f16, f32, f64]) (rm : Nat) (neg : Bool) :
    let x := f.decode (f.signed neg (if overflowToInf rm neg then f.infBits else f.maxBits))
    let top := (f.decode f.maxBits).toRat
    ((rm = 1 ∨ (rm = 2 ∧ neg = false) ∨ (rm = 3 ∧ neg = true)) → x.toRat = if neg then -top else top) ∧
    (¬ (rm = 1 ∨ (rm = 2 ∧ neg = false) ∨ (rm = 3 ∧ neg = true)) → x = .inf neg) := by
  refine ⟨fun h => ?_, fun h => ?_⟩
  · rw [if_neg (mt overflowToInf_iff.mp (not_not.mpr h)), Fmt.decode_finite_toRat hf neg le_rfl, Fmt.decode_maxBits hf]
  · rw [if_pos (overflowToInf_iff.mpr h), Fmt.decode_inf hf]

theorem roundIeee_within (hf : f ∈ [f16, f32, f64]) (hm : m ≠ 0) (hg : roundGrid rm neg m e false f.p f.emin = (ee, k, exact, tiny))
    (hr : (k : ℚ) * 2 ^ (ee - f.p + 1) ≤ (f.decode f.maxBits).toRat) :
    ∃ x, (∃ m' e', f.decode x = .fin neg m' e') ∧
      (f.decode x).toRat = (if neg then -((k : ℚ) * 2 ^ (ee - f.p + 1)) else (k : ℚ) * 2 ^ (ee - f.p + 1)) ∧
      roundIeee f rm (.fin neg m e) = (x, if exact then 0 else if tiny then flNX ||| flUF else flNX) := by
  obtain ⟨hp, -⟩ := Fmt.bits_bounds hf
  have hc := codeMag_of_roundGrid hm hp hg
  rw [Fmt.decode_maxBits hf, ← hc, (codeMag_strictMono hp _).le_iff_le] at hr
  refine ⟨_, ?_, by rw [Fmt.decode_finite_toRat hf neg hr, hc], by simp [roundIeee, hm, hg, hr.not_gt, roundedFlags_eq]⟩
  rw [Fmt.decode_finite hf neg hr]
  exact FVal.ofCode_fin _ _ _ _

theorem roundIeee_overflow (hf : f ∈ [f16, f32, f64]) (hm : m ≠ 0) (hg : roundGrid rm neg m e false f.p f.emin = (ee, k, exact, tiny))
    (hr : (f.decode f.maxBits).toRat < (k : ℚ) * 2 ^ (ee - f.p + 1)) : roundIeee f rm (.fin neg m e) =
      (f.signed neg (if overflowToInf rm neg then f.infBits else f.maxBits), flOF ||| flNX) := by
  obtain ⟨hp, -⟩ := Fmt.bits_bounds hf
  rw [Fmt.decode_maxBits hf, ← codeMag_of_roundGrid hm hp hg, (codeMag_strictMono hp _).lt_iff_lt] at hr
  simp [roundIeee, hm, hg, hr]

end

section
variable {f rm m k : Nat} {neg exact tiny : Bool} {e ee : Int}

theorem b8Max_toRat (f : Nat) : (decodeB8 (b8Max f) f).toRat = codeMag (b8P f) (1 - (b8Bias f : Int)) (b8Max f) := by
  have := congrArg FVal.toRat (decodeB8_finite (neg := false) (le_refl (b8Max f)) nofun)
  rwa [FVal.ofCode_toRat] at this

/-- The largest finite code, with a sign where the format has one. -/
theorem decodeB8_max_toRat (hneg : neg = true → b8Unsigned f = false) :
    (decodeB8 (b8Signed neg (b8Max f)) f).toRat = if neg then -(decodeB8 (b8Max f) f).toRat else (decodeB8 (b8Max f) f).toRat := by
  have h0 : b8Max f ≠ 0 := by unfold b8Max; split <;> decide
  rw [decodeB8_finite le_rfl fun hn => ⟨hneg hn, h0⟩, FVal.ofCode_toRat, b8Max_toRat]

/-- What R66 delivers for an overflow of an extended format. -/
theorem decodeB8_overflow (hx : b8Ext f = true) (hneg : neg = true → b8Unsigned f = false) (rm : Nat) :
    let x := decodeB8 (b8Signed neg (if overflowToInf rm neg then b8Inf f else b8Max f)) f
    let top := (decodeB8 (b8Max f) f).toRat
    ((rm = 1 ∨ (rm = 2 ∧ neg = false) ∨ (rm = 3 ∧ neg = true)) → x.toRat = if neg then -top else top) ∧
    (¬ (rm = 1 ∨ (rm = 2 ∧ neg = false) ∨ (rm = 3 ∧ neg = true)) → x = .inf neg) := by
  refine ⟨fun h => ?_, fun h => ?_⟩
  · rw [if_neg (mt overflowToInf_iff.mp (not_not.mpr h)), decodeB8_max_toRat hneg]
  · rw [if_pos (overflowToInf_iff.mpr h), decodeB8_inf hx hneg]

section
variable (hf : isB8 f = true) (hm : m ≠ 0) (hg : roundGrid rm neg m e false (b8P f) (1 - (b8Bias f : Int)) = (ee, k, exact, tiny))
include hf hm hg

/-- RoundB8 finds the code of the rounded magnitude, and answers by its place among the codes of the format. -/
theorem roundB8_fin :
    ∃ c, codeMag (b8P f) (1 - (b8Bias f : Int)) c = k * 2 ^ (ee - b8P f + 1) ∧ (k = 0 ↔ c = 0) ∧
      ∀ sat, roundB8 f rm sat (.fin neg m e) =
        if b8Unsigned f = true ∧ neg = true ∧ k ≠ 0 then if sat then (0, flSATF ||| flNX) else (b8Nan f, flNV)
        else if b8Max f < c then
          if sat then (b8Signed neg (b8Max f), flSATF ||| flNX)
          else if b8Ext f = false then (b8Nan f, flOF ||| flNX)
          else (b8Signed neg (if overflowToInf rm neg then b8Inf f else b8Max f), flOF ||| flNX)
        else (if c = 0 then 0 else b8Signed (neg && !b8Unsigned f) c,
          if exact then 0 else if tiny then flNX ||| flUF else flNX) := by
  have hp := one_le_b8P hf
  obtain ⟨hee, -, hlo⟩ := roundGrid_bounds hm hp hg
  have hpos : 0 < 2 ^ (b8P f - 1) := by positivity
  refine ⟨_, codeMag_of_roundGrid hm hp hg, ⟨fun h => ?_, fun h => (Nat.add_eq_zero_iff.mp h).2⟩, fun sat => ?_⟩
  · simp [show ee = 1 - (b8Bias f : Int) by omega, h]
  · simp [roundB8, hm, hg, roundedFlags_eq, and_assoc]

/-- A negative value that does not round to zero, for an unsigned format. -/
theorem roundB8_negative (hw : b8Unsigned f = true ∧ neg = true ∧ k ≠ 0) (sat : Bool) :
    roundB8 f rm sat (.fin neg m e) = if sat then (0, flSATF ||| flNX) else (b8Nan f, flNV) := by
  obtain ⟨c, -, -, heq⟩ := roundB8_fin hf hm hg
  rw [heq, if_pos hw]

variable (hw : ¬ (b8Unsigned f = true ∧ neg = true ∧ k ≠ 0))
include hw

theorem roundB8_within (hr : (k : ℚ) * 2 ^ (ee - b8P f + 1) ≤ (decodeB8 (b8Max f) f).toRat) (sat : Bool) :
    ∃ x, (decodeB8 x f).toRat = (if neg then -((k : ℚ) * 2 ^ (ee - b8P f + 1)) else (k : ℚ) * 2 ^ (ee - b8P f + 1)) ∧
      (∃ n m' e', decodeB8 x f = .fin n m' e') ∧ (k = 0 → x = 0) ∧
      roundB8 f rm sat (.fin neg m e) = (x, if exact then 0 else if tiny then flNX ||| flUF else flNX) := by
  obtain ⟨c, hc, hk, heq⟩ := roundB8_fin hf hm hg
  rw [b8Max_toRat, ← hc, (codeMag_strictMono (one_le_b8P hf) _).le_iff_le] at hr
  rw [heq, if_neg hw, if_neg hr.not_gt, ← hc]
  by_cases h0 : c = 0
  · have hdec : decodeB8 0 f = _ := decodeB8_finite (neg := false) (Nat.zero_le _) nofun
    rw [if_pos h0]
    refine ⟨0, ?_, ⟨_, hdec ▸ FVal.ofCode_fin _ _ _ _⟩, fun _ => rfl, rfl⟩
    rw [hdec, FVal.ofCode_toRat, ← h0, hc, hk.mpr h0]
    simp
  · have hneg : neg = true → b8Unsigned f = false := by
      intro hn; by_contra hu; exact hw ⟨by simpa using hu, hn, mt hk.mp h0⟩
    have hsign : (neg && !b8Unsigned f) = neg := by cases neg <;> simp [hneg]
    have hdec := decodeB8_finite hr fun hn => ⟨hneg hn, h0⟩
    rw [if_neg h0, hsign]
    exact ⟨_, by rw [hdec, FVal.ofCode_toRat], ⟨_, hdec ▸ FVal.ofCode_fin _ _ _ _⟩, fun h => absurd (hk.mp h) h0, rfl⟩

theorem roundB8_overflow (hr : (decodeB8 (b8Max f) f).toRat < (k : ℚ) * 2 ^ (ee - b8P f + 1)) :
    (neg = true → b8Unsigned f = false) ∧ ∀ sat, roundB8 f rm sat (.fin neg m e) =
      if sat then (b8Signed neg (b8Max f), flSATF ||| flNX) else if b8Ext f = false then (b8Nan f, flOF ||| flNX)
      else (b8Signed neg (if overflowToInf rm neg then b8Inf f else b8Max f), flOF ||| flNX) := by
  obtain ⟨c, hc, hk, heq⟩ := roundB8_fin hf hm hg
  rw [b8Max_toRat, ← hc, (codeMag_strictMono (one_le_b8P hf) _).lt_iff_lt] at hr
  refine ⟨fun hn => ?_, fun sat => by rw [heq, if_neg hw, if_pos hr]⟩
  by_contra hu
  exact hw ⟨by simpa using hu, hn, mt hk.mp (by omega)⟩

end

end

/-! ### RoundInt (R67) -/

theorem ofInt_eq (n : Nat) (i : Int) : ofInt n i = (i % 2 ^ n).toNat := by simp [ofInt]

theorem roundInt_fin {n rm m : Nat} {signed neg : Bool} {e : Int} (hm : m ≠ 0) :
    let lo : Int := if signed then -2 ^ (n - 1) else 0
    let hi : Int := if signed then 2 ^ (n - 1) - 1 else 2 ^ n - 1
    let r := roundAt rm neg m e false 0
    let i : Int := if neg then -r.1 else r.1
    roundInt n signed rm (.fin neg m e) = if i < lo then (ofInt n lo, flNV) else if hi < i then (ofInt n hi, flNV)
      else (ofInt n i, flagIf (!r.2) flNX) := by
  simp [roundInt, hm]

/-- An integer clamped to a range, with the flags of its three places. -/
theorem clamp_eq {lo hi i : Int} (h : lo ≤ hi) (n : Nat) (fl : Flags) :
    (if i < lo then (ofInt n lo, flNV) else if hi < i then (ofInt n hi, flNV) else (ofInt n i, fl)) =
      ((max lo (min hi i) % 2 ^ n).toNat, if i < lo ∨ hi < i then flNV else fl) := by
  simp only [ofInt_eq]
  by_cases h1 : i < lo
  · rw [if_pos h1, if_pos (.inl h1), min_eq_right (by omega), max_eq_left h1.le]
  by_cases h2 : hi < i
  · rw [if_neg h1, if_pos h2, if_pos (.inr h2), min_eq_left h2.le, max_eq_right h]
  · rw [if_neg h1, if_neg h2, if_neg (by omega), min_eq_right (by omega), max_eq_right (by omega)]

theorem roundInt_spec {n m : Nat} (signed : Bool) (rm : Nat) (neg : Bool) (e : Int) (hm : m ≠ 0) :
    let x : ℚ := (m : ℚ) * 2 ^ e
    let lo : Int := if signed then -2 ^ (n - 1) else 0
    let hi : Int := if signed then 2 ^ (n - 1) - 1 else 2 ^ n - 1
    ∃ k : Nat, roundsTo rm neg x k ∧
      let i : Int := if neg then -k else k
      roundInt n signed rm (.fin neg m e) = ((max lo (min hi i) % 2 ^ n).toNat,
        if i < lo ∨ hi < i then flNV else if (k : ℚ) = x then 0 else flNX) := by
  intro x lo hi
  obtain ⟨hto, hexact⟩ := roundAt_spec rm neg m e 0
  rw [zpow_zero, div_one] at hto hexact
  have hle : lo ≤ hi := by
    have := pow_pos (two_pos (α := Int)) (n - 1)
    have := pow_pos (two_pos (α := Int)) n
    dsimp only [lo, hi]; split <;> omega
  refine ⟨_, hto, ?_⟩
  rw [roundInt_fin hm, clamp_eq hle, ← if_congr hexact rfl rfl]
  cases (roundAt rm neg m e false 0).2 <;> rfl

/-! ### Exact sums (R71, R94) -/

/-- The finite values. -/
def FVal.IsFin (v : FVal) : Prop := ∃ n m e, v = .fin n m e

theorem finAt_toRat {lo e : Int} (h : lo ≤ e) (neg : Bool) (m : Nat) :
    (finAt neg m e lo : ℚ) * 2 ^ lo = (FVal.fin neg m e).toRat := by
  have hpow : (2 : ℚ) ^ (e - lo).toNat * 2 ^ lo = 2 ^ e := by
    rw [← zpow_natCast, ← zpow_add₀ two_ne_zero, Int.toNat_of_nonneg (by omega), sub_add_cancel]
  cases neg <;> simp [finAt, FVal.toRat, mul_assoc, hpow]

/-- An integer with its sign apart. -/
theorem toRat_natAbs (s lo : Int) : (FVal.fin (s < 0) s.natAbs lo).toRat = s * 2 ^ lo := by
  have : ((s.natAbs : Nat) : ℚ) = |(s : ℚ)| := by rw [← Int.cast_abs, Int.abs_eq_natAbs]; rfl
  simp only [FVal.toRat, this, decide_eq_true_eq]
  split
  · rw [abs_of_neg (by exact_mod_cast ‹s < 0›)]; ring
  · rw [abs_of_nonneg (by exact_mod_cast not_lt.mp ‹¬ s < 0›)]; ring

theorem toRat_fin_eq_zero_iff {neg : Bool} {m : Nat} {e : Int} : (FVal.fin neg m e).toRat = 0 ↔ m = 0 := by
  have h2 : (2 : ℚ) ^ e ≠ 0 := by positivity
  cases neg <;> simp [FVal.toRat, h2]

theorem finAdd_toRat (n1 : Bool) (m1 : Nat) (e1 : Int) (n2 : Bool) (m2 : Nat) (e2 : Int) :
    ((finAdd n1 m1 e1 n2 m2 e2).1 : ℚ) * 2 ^ (finAdd n1 m1 e1 n2 m2 e2).2 =
      (FVal.fin n1 m1 e1).toRat + (FVal.fin n2 m2 e2).toRat := by
  rw [← finAt_toRat (min_le_left e1 e2), ← finAt_toRat (min_le_right e1 e2)]
  simp only [finAdd]
  push_cast; ring

section
variable {f : Fmt} {rm a b m1 m2 : Nat} {n1 n2 : Bool} {e1 e2 : Int}

theorem fpAdd_fin (ha : f.decode a = .fin n1 m1 e1) (hb : f.decode b = .fin n2 m2 e2) :
    let s := finAdd n1 m1 e1 n2 m2 e2
    fpAdd f rm a b = if m1 = 0 ∧ m2 = 0 ∧ n1 = n2 then roundIeee f rm (.fin n1 0 0)
      else if s.1 = 0 then roundIeee f rm (.fin (rm == 2) 0 0) else roundIeee f rm (.fin (s.1 < 0) s.1.natAbs s.2) := by
  simp [fpAdd, ha, hb, nanOf, FVal.isNan, addTerms, roundIeee_zero, and_assoc]

theorem fpAdd_of_sum_ne_zero (ha : f.decode a = .fin n1 m1 e1) (hb : f.decode b = .fin n2 m2 e2)
    (hs : (f.decode a).toRat + (f.decode b).toRat ≠ 0) :
    ∃ n m e, (FVal.fin n m e).toRat = (f.decode a).toRat + (f.decode b).toRat ∧ fpAdd f rm a b = roundIeee f rm (.fin n m e) := by
  rw [fpAdd_fin ha hb]
  rw [ha, hb] at hs ⊢
  have hne : (finAdd n1 m1 e1 n2 m2 e2).1 ≠ 0 := by
    intro h0; rw [← finAdd_toRat, h0, Int.cast_zero, zero_mul] at hs; exact hs rfl
  have hm : ¬ (m1 = 0 ∧ m2 = 0 ∧ n1 = n2) := by
    rintro ⟨h1, h2, -⟩
    rw [toRat_fin_eq_zero_iff.mpr h1, toRat_fin_eq_zero_iff.mpr h2, add_zero] at hs; exact hs rfl
  rw [if_neg hm, if_neg hne]
  exact ⟨_, _, _, (toRat_natAbs _ _).trans (finAdd_toRat n1 m1 e1 n2 m2 e2), rfl⟩

theorem fpAdd_of_sum_eq_zero (ha : f.decode a = .fin n1 m1 e1) (hb : f.decode b = .fin n2 m2 e2)
    (hs : (f.decode a).toRat + (f.decode b).toRat = 0) :
    fpAdd f rm a b = roundIeee f rm (.fin (if m1 = 0 ∧ n1 = n2 then n1 else rm == 2) 0 0) := by
  rw [fpAdd_fin ha hb]
  rw [ha, hb] at hs
  have h0 : (finAdd n1 m1 e1 n2 m2 e2).1 = 0 := by
    rw [← finAdd_toRat] at hs
    exact_mod_cast (mul_eq_zero_iff_right (by positivity)).mp hs
  have hm : m1 = 0 → m2 = 0 := fun h1 => by
    rwa [toRat_fin_eq_zero_iff.mpr h1, zero_add, toRat_fin_eq_zero_iff] at hs
  by_cases h : m1 = 0 ∧ n1 = n2
  · rw [if_pos ⟨h.1, hm h.1, h.2⟩, if_pos h]
  · rw [if_neg fun hz => h ⟨hz.1, hz.2.2⟩, if_pos h0, if_neg h]

end

/-! ### The folds of an exact sum -/

section
variable {vs : List FVal}

theorem foldl_min_le {g : Int → FVal → Int} (hg : ∀ s n m e, g s (.fin n m e) = min s e) (h : ∀ v ∈ vs, v.IsFin) (s : Int) :
    vs.foldl g s ≤ s ∧ ∀ n m e, FVal.fin n m e ∈ vs → vs.foldl g s ≤ e := by
  induction vs generalizing s with
  | nil => exact ⟨le_rfl, nofun⟩
  | cons v vs ih =>
    obtain ⟨n, m, e, rfl⟩ := h v (by simp)
    obtain ⟨hs, hvs⟩ := ih (fun v hv => h v (by simp [hv])) (min s e)
    rw [List.foldl_cons, hg]
    refine ⟨hs.trans (min_le_left s e), fun n' m' e' hv => ?_⟩
    obtain hv | hv := List.mem_cons.mp hv
    · cases hv; exact hs.trans (min_le_right s e)
    · exact hvs n' m' e' hv

theorem foldl_finAt_toRat {g : Int → FVal → Int} {lo : Int} (hg : ∀ s n m e, g s (.fin n m e) = s + finAt n m e lo)
    (h : ∀ v ∈ vs, v.IsFin) (hlo : ∀ n m e, FVal.fin n m e ∈ vs → lo ≤ e) (s : Int) :
    ((vs.foldl g s : Int) : ℚ) * 2 ^ lo = s * 2 ^ lo + (vs.map FVal.toRat).sum := by
  induction vs generalizing s with
  | nil => simp
  | cons v vs ih =>
    obtain ⟨n, m, e, rfl⟩ := h v (by simp)
    rw [List.foldl_cons, hg, ih (fun v hv => h v (by simp [hv])) (fun n m e hv => hlo n m e (by simp [hv])), List.map_cons,
      List.sum_cons, ← finAt_toRat (hlo n m e (by simp))]
    push_cast; ring

theorem exactSum_toRat (h : ∀ v ∈ vs, v.IsFin) : ((exactSum vs).1 : ℚ) * 2 ^ (exactSum vs).2 = (vs.map FVal.toRat).sum := by
  have hlo : ∀ n m e, FVal.fin n m e ∈ vs → (exactSum vs).2 ≤ e := (foldl_min_le (fun _ _ _ _ => rfl) h 0).2
  refine (foldl_finAt_toRat (fun _ _ _ _ => rfl) h hlo 0).trans ?_
  rw [Int.cast_zero, zero_mul, zero_add]

end

/-! ### ExactGroupSum (R71) -/

theorem isNan_iff {v : FVal} : v.isNan = true ↔ ∃ s, v = .nan s := by
  cases v <;> simp [FVal.isNan]

theorem isInf_iff {v : FVal} : v.isInf = true ↔ ∃ n, v = .inf n := by
  cases v <;> simp [FVal.isInf]

theorem isZero_iff {v : FVal} : v.isZero = true ↔ ∃ n e, v = .fin n 0 e := by
  cases v <;> simp [FVal.isZero]

section
variable {v w : FVal}

theorem groupProd_fin (hv : v.IsFin) (hw : w.IsFin) : (groupProd v w).1.IsFin ∧ (groupProd v w).2 = 0 ∧
    (groupProd v w).1.toRat = v.toRat * w.toRat ∧ ((groupProd v w).1.isZero = true ↔ v.isZero = true ∨ w.isZero = true) := by
  obtain ⟨n, m, e, rfl⟩ := hv
  obtain ⟨k, l, g, rfl⟩ := hw
  refine ⟨⟨_, _, _, rfl⟩, rfl, ?_, by simp [groupProd, FVal.isZero]⟩
  have hsign : (if (n != k) = true then -1 else 1 : ℚ) = (if n = true then -1 else 1) * (if k = true then -1 else 1) := by
    cases n <;> cases k <;> simp
  simp only [groupProd, FVal.toRat, zpow_add₀ (two_ne_zero' ℚ), hsign]
  push_cast; ring

/-- A product that R71 makes a NaN: of a NaN, or of an infinity and a zero. -/
theorem groupProd_isNan (h : v.isNan = true ∨ w.isNan = true ∨ (v.isInf = true ∧ w.isZero = true) ∨
    (v.isZero = true ∧ w.isInf = true)) : (groupProd v w).1.isNan = true := by
  obtain h | h | ⟨hv, hw⟩ | ⟨hv, hw⟩ := h
  · obtain ⟨s, rfl⟩ := isNan_iff.mp h; rfl
  · obtain ⟨s, rfl⟩ := isNan_iff.mp h; cases v <;> rfl
  · obtain ⟨n, rfl⟩ := isInf_iff.mp hv; obtain ⟨k, e, rfl⟩ := isZero_iff.mp hw; rfl
  · obtain ⟨n, e, rfl⟩ := isZero_iff.mp hv; obtain ⟨k, rfl⟩ := isInf_iff.mp hw; rfl

end

/-- The products of a group, and the flags they raise. -/
def groupProds (a b : List FVal) : List FVal := ((a.zip b).map fun x => groupProd x.1 x.2).map Prod.fst
def groupFlags (a b : List FVal) : Flags := ((a.zip b).map fun x => groupProd x.1 x.2).foldl (fun f p => f ||| p.2) 0

section
variable {acc rm : Nat} {a b : List FVal}

theorem mem_groupProds {v : FVal} : v ∈ groupProds a b ↔ ∃ x ∈ a.zip b, (groupProd x.1 x.2).1 = v := by
  simp only [groupProds, List.map_map, List.mem_map, Function.comp]

section
variable (ha : ∀ v ∈ a, v.IsFin) (hb : ∀ v ∈ b, v.IsFin)
include ha hb

theorem groupProd_fin_of_mem_zip {x : FVal × FVal} (hx : x ∈ a.zip b) :
    (groupProd x.1 x.2).1.IsFin ∧ (groupProd x.1 x.2).2 = 0 ∧ (groupProd x.1 x.2).1.toRat = x.1.toRat * x.2.toRat ∧
    ((groupProd x.1 x.2).1.isZero = true ↔ x.1.isZero = true ∨ x.2.isZero = true) :=
  groupProd_fin (ha _ (List.of_mem_zip hx).1) (hb _ (List.of_mem_zip hx).2)

theorem groupProds_isFin : ∀ v ∈ groupProds a b, v.IsFin := by
  intro v hv
  obtain ⟨x, hx, rfl⟩ := mem_groupProds.mp hv
  exact (groupProd_fin_of_mem_zip ha hb hx).1

theorem groupProds_toRat : (groupProds a b).map FVal.toRat = (a.zip b).map (fun x => x.1.toRat * x.2.toRat) := by
  simp only [groupProds, List.map_map]
  exact List.map_congr_left fun x hx => (groupProd_fin_of_mem_zip ha hb hx).2.2.1

theorem groupFlags_eq_zero : groupFlags a b = 0 := by
  unfold groupFlags
  refine List.foldlRecOn (motive := (· = 0)) _ _ rfl fun fl hfl p hp => ?_
  obtain ⟨x, hx, rfl⟩ := List.mem_map.mp hp
  rw [hfl, (groupProd_fin_of_mem_zip ha hb hx).2.1]; rfl

theorem groupProds_all_isZero : (groupProds a b).all FVal.isZero = true ↔ ∀ x ∈ a.zip b, x.1.isZero = true ∨ x.2.isZero = true := by
  rw [List.all_eq_true]
  constructor
  · intro h x hx
    exact (groupProd_fin_of_mem_zip ha hb hx).2.2.2.mp (h _ (mem_groupProds.mpr ⟨x, hx, rfl⟩))
  · intro h v hv
    obtain ⟨x, hx, rfl⟩ := mem_groupProds.mp hv
    exact (groupProd_fin_of_mem_zip ha hb hx).2.2.2.mpr (h x hx)

theorem exactGroupSum_of_zeros (h : ∀ x ∈ a.zip b, x.1.isZero = true ∨ x.2.isZero = true) : exactGroupSum acc a b rm = (acc, 0) := by
  rw [← groupFlags_eq_zero ha hb]
  exact if_pos ((groupProds_all_isZero ha hb).mpr h)

end

theorem any_eq_false_of_isFin {vs : List FVal} {q : FVal → Bool} (h : ∀ v ∈ vs, v.IsFin) (hq : ∀ n m e, q (.fin n m e) = false) :
    ¬ vs.any q = true := by
  simp only [List.any_eq_true, not_exists, not_and]
  intro v hv
  obtain ⟨n, m, e, rfl⟩ := h v hv
  simp [hq]

/-- A group of finite products that are not all zero: the exact sum decides. -/
theorem exactGroupSum_eq_of_fin (h0 : ¬ (groupProds a b).all FVal.isZero = true)
    (hfin : ∀ v ∈ f32.decode acc :: groupProds a b, v.IsFin) :
    let s := exactSum (f32.decode acc :: groupProds a b)
    exactGroupSum acc a b rm = if s.1 = 0 then (if rm = 2 then 0x80000000 else 0, groupFlags a b)
      else ((roundIeee f32 rm (.fin (s.1 < 0) s.1.natAbs s.2)).1, groupFlags a b ||| (roundIeee f32 rm (.fin (s.1 < 0) s.1.natAbs s.2)).2) := by
  have hnan := any_eq_false_of_isFin (q := FVal.isNan) hfin fun _ _ _ => rfl
  have hpos := any_eq_false_of_isFin (q := fun v => v.isInf && !v.sign) hfin fun _ _ _ => rfl
  have hneg := any_eq_false_of_isFin (q := fun v => v.isInf && v.sign) hfin fun _ _ _ => rfl
  refine (if_neg h0).trans <| (if_neg hnan).trans <| (if_neg (by rw [Bool.and_eq_true]; exact mt And.left hpos)).trans <|
    (if_neg hpos).trans <| (if_neg hneg).trans ?_
  simp only [beq_iff_eq]
  rfl

theorem exactGroupSum_of_fin (ha : ∀ v ∈ a, v.IsFin) (hb : ∀ v ∈ b, v.IsFin) (hacc : (f32.decode acc).IsFin)
    (hne : ∃ x ∈ a.zip b, ¬ x.1.isZero = true ∧ ¬ x.2.isZero = true) :
    let sum := (f32.decode acc).toRat + ((a.zip b).map (fun x => x.1.toRat * x.2.toRat)).sum
    (sum ≠ 0 → ∃ n m e, (FVal.fin n m e).toRat = sum ∧ exactGroupSum acc a b rm = roundIeee f32 rm (.fin n m e)) ∧
    (sum = 0 → exactGroupSum acc a b rm = (if rm = 2 then 0x80000000 else 0, 0)) := by
  intro sum
  have hfin : ∀ v ∈ f32.decode acc :: groupProds a b, v.IsFin := List.forall_mem_cons.mpr ⟨hacc, groupProds_isFin ha hb⟩
  have hsum : _ = sum := (exactSum_toRat hfin).trans (by rw [List.map_cons, List.sum_cons, groupProds_toRat ha hb])
  have h0 : ¬ (groupProds a b).all FVal.isZero = true := by
    obtain ⟨x, hx, h1, h2⟩ := hne
    rw [groupProds_all_isZero ha hb]
    exact fun h => (h x hx).elim h1 h2
  rw [exactGroupSum_eq_of_fin h0 hfin, groupFlags_eq_zero ha hb]
  generalize exactSum (f32.decode acc :: groupProds a b) = s at hsum ⊢
  constructor
  · intro hs
    rw [if_neg (by intro h; rw [h] at hsum; simp [← hsum] at hs)]
    exact ⟨_, _, _, (toRat_natAbs _ _).trans hsum, by simp⟩
  · intro hs
    rw [hs] at hsum
    rw [if_pos (by exact_mod_cast (mul_eq_zero_iff_right (by positivity)).mp hsum)]

theorem exactGroupSum_of_nan {x : FVal × FVal} (hx : x ∈ a.zip b) (h : x.1.isNan = true ∨ x.2.isNan = true ∨
    (x.1.isInf = true ∧ x.2.isZero = true) ∨ (x.1.isZero = true ∧ x.2.isInf = true)) :
    (exactGroupSum acc a b rm).1 = 0x7FC00000 ∧ (exactGroupSum acc a b rm).2 &&& flNV = flNV := by
  have hmem : (groupProd x.1 x.2).1 ∈ groupProds a b := mem_groupProds.mpr ⟨x, hx, rfl⟩
  have hnan := groupProd_isNan h
  have h0 : ¬ (groupProds a b).all FVal.isZero = true := by
    rw [List.all_eq_true]
    intro hz
    obtain ⟨n, e, hfin⟩ := isZero_iff.mp (hz _ hmem)
    rw [hfin] at hnan; cases hnan
  have hany : (f32.decode acc :: groupProds a b).any FVal.isNan = true :=
    List.any_eq_true.mpr ⟨_, List.mem_cons_of_mem _ hmem, hnan⟩
  have heq : exactGroupSum acc a b rm = (f32.nanBits, groupFlags a b ||| flNV) := (if_neg h0).trans (if_pos hany)
  rw [heq]
  exact ⟨rfl, by ext; simp +contextual⟩

end

/-! ### ChooseScale (R69) -/

theorem abs_toRat_fin (neg : Bool) (m : Nat) (e : Int) : |(FVal.fin neg m e).toRat| = m * 2 ^ e := by
  have : (0 : ℚ) ≤ m * 2 ^ e := by positivity
  cases neg <;> simp [FVal.toRat, abs_of_nonneg this]

theorem cmp_fin_eq_lt_iff {n1 n2 : Bool} {m1 m2 : Nat} {e1 e2 : Int} :
    (FVal.cmp (.fin n1 m1 e1) (.fin n2 m2 e2) == .lt) = true ↔ (FVal.fin n1 m1 e1).toRat < (FVal.fin n2 m2 e2).toRat := by
  rw [← finAt_toRat (min_le_left e1 e2), ← finAt_toRat (min_le_right e1 e2), mul_lt_mul_iff_of_pos_right (by positivity), Int.cast_lt]
  simp only [FVal.cmp, beq_iff_eq, compare_lt_iff_lt]

theorem toRat_fin_false (m : Nat) (e : Int) : (FVal.fin false m e).toRat = m * 2 ^ e := by simp [FVal.toRat]

/-- One step of the search for the greatest magnitude. -/
theorem amax_step (m1 m2 : Nat) (e1 e2 : Int) :
    ∃ m e, (if FVal.cmp (.fin false m1 e1) (.fin false m2 e2) == .lt then FVal.fin false m2 e2 else .fin false m1 e1) = .fin false m e ∧
      (m : ℚ) * 2 ^ e = max ((m1 : ℚ) * 2 ^ e1) (m2 * 2 ^ e2) := by
  by_cases h : (m1 : ℚ) * 2 ^ e1 < m2 * 2 ^ e2
  · refine ⟨m2, e2, if_pos ?_, (max_eq_right h.le).symm⟩
    rwa [cmp_fin_eq_lt_iff, toRat_fin_false, toRat_fin_false]
  · refine ⟨m1, e1, if_neg ?_, (max_eq_left (not_lt.mp h)).symm⟩
    rwa [cmp_fin_eq_lt_iff, toRat_fin_false, toRat_fin_false]

/-- A search for the greatest magnitude ends in a value no less than its start and all it saw, and that is one of these. -/
theorem foldl_amax {g : FVal → FVal → FVal}
    (hg : ∀ a n m e, g a (.fin n m e) = if FVal.cmp a (.fin false m e) == .lt then .fin false m e else a)
    {vs : List FVal} (h : ∀ v ∈ vs, v.IsFin) (m0 : Nat) (e0 : Int) :
    ∃ m e, vs.foldl g (.fin false m0 e0) = .fin false m e ∧ (m0 : ℚ) * 2 ^ e0 ≤ m * 2 ^ e ∧
      (∀ v ∈ vs, |v.toRat| ≤ m * 2 ^ e) ∧ ((m : ℚ) * 2 ^ e = m0 * 2 ^ e0 ∨ ∃ v ∈ vs, |v.toRat| = m * 2 ^ e) := by
  induction vs generalizing m0 e0 with
  | nil => exact ⟨m0, e0, rfl, le_rfl, nofun, .inl rfl⟩
  | cons v vs ih =>
    obtain ⟨n, m1, e1, rfl⟩ := h v (by simp)
    obtain ⟨m', e', hstep, hmax⟩ := amax_step m0 m1 e0 e1
    rw [← abs_toRat_fin n m1 e1] at hmax
    obtain ⟨m, e, heq, hle, hall, hex⟩ := ih (fun v hv => h v (by simp [hv])) m' e'
    rw [List.foldl_cons, hg, hstep]
    rw [hmax] at hle hex
    refine ⟨m, e, heq, (le_max_left _ _).trans hle, List.forall_mem_cons.mpr ⟨(le_max_right _ _).trans hle, hall⟩, ?_⟩
    obtain hex | ⟨v, hv, hex⟩ := hex
    · obtain hm | hm := max_choice ((m0 : ℚ) * 2 ^ e0) |(FVal.fin n m1 e1).toRat|
      · exact .inl (hex.trans hm)
      · exact .inr ⟨_, List.mem_cons_self, (hex.trans hm).symm⟩
    · exact .inr ⟨v, List.mem_cons_of_mem _ hv, hex⟩

section
variable {vals : List FVal}

theorem amaxFin_spec (h : ∀ v ∈ vals, v.IsFin) : ∃ m e, amaxFin vals = .fin false m e ∧
    (∀ v ∈ vals, |v.toRat| ≤ m * 2 ^ e) ∧ (m = 0 ∨ ∃ v ∈ vals, |v.toRat| = m * 2 ^ e) := by
  have hfold : ∃ m e, amaxFin vals = .fin false m e ∧ _ := foldl_amax (fun _ _ _ _ => rfl) h 0 0
  obtain ⟨m, e, heq, -, hall, hex⟩ := hfold
  refine ⟨m, e, heq, hall, hex.imp_left fun hm => ?_⟩
  rw [Nat.cast_zero, zero_mul, mul_eq_zero_iff_right (by positivity)] at hm
  exact_mod_cast hm

theorem chooseScale_fin (h : ∀ v ∈ vals, v.IsFin) {m : Nat} {e : Int} (hmax : amaxFin vals = .fin false m e) (f : Nat) :
    let s := floorLog m e - emaxOf f
    chooseScale vals f = if m = 0 then (0x81, 0) else if s < -127 then (0x81, flSCLU) else if 127 < s then (0x7F, flOF)
      else (ofInt 8 s, 0) := by
  have hnan := any_eq_false_of_isFin (q := FVal.isNan) h fun _ _ _ => rfl
  have hinf := any_eq_false_of_isFin (q := FVal.isInf) h fun _ _ _ => rfl
  rw [chooseScale, if_neg hnan, if_neg hinf, hmax]
  simp only [beq_iff_eq]

theorem toInt_ofInt_eight {s : Int} (h1 : -128 ≤ s) (h2 : s ≤ 127) : (BitVec.ofNat 8 (ofInt 8 s)).toInt = s := by
  rw [ofInt_eq, BitVec.toInt_eq_toNat_bmod, BitVec.toNat_ofNat, Int.bmod_def]
  omega

/-- A scale that is not clamped puts the greatest magnitude into the top binade of the format; a clamped one does not. -/
theorem chooseScale_spec (h : ∀ v ∈ vals, v.IsFin) (f : Nat) (hne : ∃ v ∈ vals, v.toRat ≠ 0) :
    let r := chooseScale vals f
    let s : Int := (BitVec.ofNat 8 r.1).toInt
    (r.2 = 0 → (∀ v ∈ vals, |v.toRat| < 2 ^ (s + emaxOf f + 1)) ∧ ∃ v ∈ vals, (2 : ℚ) ^ (s + emaxOf f) ≤ |v.toRat|) ∧
    (r.2 ≠ 0 → (r = (0x81, flSCLU) ∧ ∀ v ∈ vals, |v.toRat| < 2 ^ (emaxOf f - 127)) ∨
      (r = (0x7F, flOF) ∧ ∃ v ∈ vals, (2 : ℚ) ^ (emaxOf f + 128) ≤ |v.toRat|)) := by
  obtain ⟨m, e, hmax, hall, hex⟩ := amaxFin_spec h
  have hm : m ≠ 0 := by
    rintro rfl
    obtain ⟨v, hv, hv0⟩ := hne
    have := hall v hv
    rw [Nat.cast_zero, zero_mul] at this
    exact hv0 (abs_nonpos_iff.mp this)
  have above {a : Int} (ha : floorLog m e + 1 ≤ a) : ∀ v ∈ vals, |v.toRat| < 2 ^ a := fun v hv =>
    ((hall v hv).trans_lt (lt_two_zpow_floorLog_add_one m e)).trans_le (zpow_le_zpow_right₀ one_le_two ha)
  have below {a : Int} (ha : a ≤ floorLog m e) : ∃ v ∈ vals, (2 : ℚ) ^ a ≤ |v.toRat| := by
    obtain ⟨v, hv, heq⟩ := hex.resolve_left hm
    exact ⟨v, hv, heq ▸ (zpow_le_zpow_right₀ one_le_two ha).trans (two_zpow_floorLog_le hm e)⟩
  intro r s
  have hr : r = _ := chooseScale_fin h hmax f
  rw [if_neg hm] at hr
  split at hr
  · exact ⟨fun h0 => absurd h0 (by rw [hr]; decide), fun _ => .inl ⟨hr, above (by omega)⟩⟩
  split at hr
  · exact ⟨fun h0 => absurd h0 (by rw [hr]; decide), fun _ => .inr ⟨hr, below (by omega)⟩⟩
  · have hs : s = floorLog m e - emaxOf f := by
      simp only [s, hr]
      exact toInt_ofInt_eight (by omega) (by omega)
    exact ⟨fun _ => ⟨above (by omega), below (by omega)⟩, fun h0 => absurd (by rw [hr]) h0⟩

theorem chooseScale_zeros (h : ∀ v ∈ vals, v.IsFin) (f : Nat) (hz : ∀ v ∈ vals, v.toRat = 0) : chooseScale vals f = (0x81, 0) := by
  obtain ⟨m, e, hmax, -, hex⟩ := amaxFin_spec h
  have hm : m = 0 := hex.elim id fun ⟨v, hv, heq⟩ => by
    rw [hz v hv, abs_zero, eq_comm, mul_eq_zero_iff_right (by positivity)] at heq
    exact_mod_cast heq
  rw [chooseScale_fin h hmax, if_pos hm]

end

end Sys2Proof.Machine

open Sys2Proof.Machine

/-- Settles O60: every helper rounds one exact value on one grid, whose codes are in the order of their magnitudes. -/
theorem numberHelpers : Obligations.NumberHelpers := by
  unfold Obligations.NumberHelpers
  intro NX ulp
  refine ⟨?grid, ?ieee, ?ieeeSpecial, ?b8, ?int, ?add, ?group, ?scale⟩
  case grid =>
    intro rm m p k neg exact tiny e emin ee hm hp hg
    obtain ⟨hee, hto, hexact⟩ := roundGrid_spec hg
    exact ⟨floorLog m e, two_zpow_floorLog_le hm e, lt_two_zpow_floorLog_add_one m e, hee, hto, hexact,
      fun j hj => tiny_iff hm hp hg hj⟩
  case ieee =>
    intro f hf rm m k neg exact tiny e ee hm hg
    refine ⟨fun hr => ?_, fun hr => ?_⟩
    · obtain ⟨x, hfin, hrat, heq⟩ := roundIeee_within hf hm hg hr
      rw [heq]
      exact ⟨hfin, hrat, rfl⟩
    · rw [roundIeee_overflow hf hm hg hr]
      exact ⟨rfl, Fmt.decode_overflow hf rm neg⟩
  case ieeeSpecial =>
    intro f hf rm neg e
    refine ⟨fun s => by cases s <;> rfl, ?_, rfl, Fmt.decode_inf hf neg, rfl, ?_⟩
    · simp only [List.mem_cons, List.not_mem_nil, or_false] at hf
      obtain rfl | rfl | rfl := hf <;> decide
    · rw [roundIeee_zero, Fmt.decode_finite hf neg (Nat.zero_le _)]
      exact ⟨f.emin - f.p + 1, by simp [FVal.ofCode]⟩
  case b8 =>
    intro f rm m k sat neg exact tiny e ee hf hm hg
    refine ⟨fun hw => roundB8_negative hf hm hg hw sat, fun hw hr => ?_, fun hw hr hs => ?_, fun hw hr hs hx => ?_,
      fun hw hr hs hx => ?_⟩
    · obtain ⟨x, hrat, ⟨n, m', e', hfin⟩, h0, heq⟩ := roundB8_within hf hm hg hw hr sat
      rw [heq]
      refine ⟨hrat, by rw [hfin]; rfl, by rw [hfin]; rfl, fun hr0 => h0 ?_, rfl⟩
      exact_mod_cast (mul_eq_zero_iff_right (by positivity)).mp hr0
    all_goals obtain ⟨hneg, heq⟩ := roundB8_overflow hf hm hg hw hr; rw [heq]
    · rw [if_pos hs]
      exact ⟨rfl, decodeB8_max_toRat hneg⟩
    · rw [if_neg (by simp [hs]), if_pos hx]
    · rw [if_neg (by simp [hs]), if_neg (by simp [hx])]
      exact ⟨rfl, decodeB8_overflow hx hneg rm⟩
  case int => exact fun n rm m signed neg e _ hm => roundInt_spec signed rm neg e hm
  case add =>
    intro f _ rm a b m1 m2 n1 n2 e1 e2 ha hb
    exact ⟨fpAdd_of_sum_ne_zero ha hb, fpAdd_of_sum_eq_zero ha hb⟩
  case group =>
    intro acc rm a b _
    refine ⟨fun ha hb h => ?_, fun ha hb hacc ⟨x, hx, h1, h2⟩ => ?_, fun ⟨x, hx, hbad⟩ => ?_⟩
    · exact exactGroupSum_of_zeros ha hb fun x hx => (h x hx).imp isZero_iff.mpr isZero_iff.mpr
    · exact exactGroupSum_of_fin ha hb (hacc _ (by simp)) ⟨x, hx, mt isZero_iff.mp h1, mt isZero_iff.mp h2⟩
    · exact exactGroupSum_of_nan hx (by simpa only [isZero_iff] using hbad)
  case scale => exact fun vals f hfin _ => ⟨chooseScale_zeros hfin f, chooseScale_spec hfin f⟩
end

section
/-! Scalar instructions that read their sources in order and then write D (R20, R42, R74, R85-R99): how such a body runs, the constants
and addresses of R85 to R88, and the floating-point instructions. -/

open Sys2Proof

namespace Sys2Proof.Machine

/-! ### Bodies that end with their destination -/

section
variable {code : Nat} {o : Op} {body : M Flow} {s s1 s2 t : State}

/-- A scalar instruction whose guard holds and whose body goes on to the following instruction. -/
theorem runScalar_finish (h : s.mayRun code = true) (hg : s.thread.guardBit o = true) (hb : body s = .ok (.next, t)) :
    runScalar code o body s = .next (t.finish o.len) :=
  (runScalar_ok h hg hb).trans rfl

theorem dstX_next {d : Opd} {v : BitVec 64} (h : dstX d v s = .ok ((), t)) :
    (dstX d v >>= fun _ => pure .next : M Flow) s = .ok (.next, t) := by
  rw [bind_ok h, pure_run]

theorem dstP_next {d : Opd} {v : BitVec 32} (h : dstP d v s = .ok ((), t)) :
    (dstP d v >>= fun _ => pure .next : M Flow) s = .ok (.next, t) := by
  rw [bind_ok h, pure_run]

/-- Flags are set before D is written (R76). -/
theorem setFlags_dstX_next {d : Opd} {v : BitVec 64} {f : Flags} (h : dstX d v (s.modThread (·.orFlags f)) = .ok ((), t)) :
    (setFlags f >>= fun _ => dstX d v >>= fun _ => pure .next : M Flow) s = .ok (.next, t) := by
  rw [bind_ok (setFlags_run f s), dstX_next h]

/-! ### Floating point (R93-R99) -/

theorem fpOp1_ok {f : Nat → Nat → Nat × Flags} {a : BitVec 64} (h : s.mayRun code = true) (hg : s.thread.guardBit o = true)
    (ha : srcX (immRaw o) o.a s = .ok (a, s1))
    (hd : dstX o.d (BitVec.ofNat 64 (f s.thread.rm.toNat a.toNat).1)
      (s1.modThread (·.orFlags (f s.thread.rm.toNat a.toNat).2)) = .ok ((), t)) :
    fpOp1 code o f s = .next (t.finish o.len) :=
  runScalar_finish h hg ((bind_ok (roundMode_run s)).trans ((bind_ok ha).trans (setFlags_dstX_next hd)))

theorem fpOp2_ok {f : Fmt → Nat → Nat → Nat → Nat × Flags} {a b : BitVec 64} (h : s.mayRun code = true)
    (hg : s.thread.guardBit o = true) (ha : srcX (immRaw o) o.a s = .ok (a, s1)) (hb : srcX (immRaw o) o.b s1 = .ok (b, s2))
    (hd : dstX o.d (BitVec.ofNat 64 (f (fmtOf o.t.toNat) s.thread.rm.toNat a.toNat b.toNat).1)
      (s2.modThread (·.orFlags (f (fmtOf o.t.toNat) s.thread.rm.toNat a.toNat b.toNat).2)) = .ok ((), t)) :
    fpOp2 code o f s = .next (t.finish o.len) :=
  runScalar_finish h hg
    ((bind_ok (roundMode_run s)).trans ((bind_ok ha).trans ((bind_ok hb).trans (setFlags_dstX_next hd))))
end

/-- Each one-source instruction computes the function that the table gives it. -/
theorem exec_fpTable1 : ∀ e ∈ fpTable1, ∀ o s, exec (e.1 o) s = fpOp1 e.2.1 o (e.2.2 o) s := by
  simp only [fpTable1, List.forall_mem_cons, List.not_mem_nil, IsEmpty.forall_iff, implies_true, and_true]
  and_intros <;> exact fun _ _ => rfl

/-- FCMP's answer as a number. -/
theorem exec_fcmp_eq (o : Op) (s : State) : exec (.fcmp o) s = fpOp2 0x58 o
    (fun f _ a b => ((fpCond f o.m.toNat a b).1.toNat, (fpCond f o.m.toNat a b).2)) s := by
  simp only [Bool.toNat, Bool.cond_eq_ite]
  rfl

/-- Each two-source instruction computes the function that the table gives it at the format of T. -/
theorem exec_fpTable2 : ∀ e ∈ fpTable2, ∀ o s, exec (e.1 o) s = fpOp2 e.2.1 o (fun _ => e.2.2 o) s := by
  simp only [fpTable2, List.forall_mem_cons, List.not_mem_nil, IsEmpty.forall_iff, implies_true, and_true]
  refine ⟨?fadd, ?fsub, ?fmul, ?fdiv, ?fmin, ?fmax, ?fcmp, ?fsgn⟩
  case fcmp => exact fun o s => (exec_fcmp_eq o s).trans rfl
  all_goals exact fun _ _ => rfl

/-! ### Addresses built from fields (R86-R88) -/

/-- LEA scales by a power of two (R86). -/
theorem shiftLeft_eq_mul (b : BitVec 64) (m : Nat) : b <<< m = b * 2 ^ m := by
  apply BitVec.eq_of_toNat_eq
  simp [Nat.shiftLeft_eq]

/-- MKADDR, window by window (R87). -/
theorem ofNat_mkaddr (win : Nat) (a b c : BitVec 64) :
    BitVec.ofNat 64 (mkaddr win a.toNat b.toNat c.toNat) = specMkaddr win a b c := by
  apply BitVec.eq_of_toNat_eq
  match win with
  | 0 | 1 | n + 2 =>
    simp only [mkaddr, specMkaddr, toNat_append_add, BitVec.toNat_ofNat, BitVec.toNat_setWidth]
    omega

/-- MKACT, field by field (R88). -/
theorem ofNat_mkact (o : Op) (a b : BitVec 64) :
    BitVec.ofNat 64 (mkact (i18f o 7 7) (i18f o 6 6) (i18f o 5 4) (i18f o 3 0) a.toNat b.toNat) = specMkact o a b := by
  apply BitVec.eq_of_toNat_eq
  simp only [mkact, specMkact, i18f, toNat_append_add, BitVec.toNat_ofNat, BitVec.toNat_setWidth, BitVec.extractLsb'_toNat,
    Nat.shiftRight_eq_div_pow]
  omega

end Sys2Proof.Machine

open Sys2Proof.Machine

/-- Settles O3: each reads its sources in order and writes the value that its fields spell. -/
theorem constantResults : Obligations.ConstantResults := by
  unfold Obligations.ConstantResults
  intro o s s1 s2 s3 t a b c hg
  refine ⟨?li, ?lea, ?mkaddr, ?mkact, ?nop⟩
  case li => exact fun h ha hd => runScalar_finish h hg ((bind_ok ha).trans (dstX_next hd))
  case lea =>
    intro h ha hb hd
    rw [← shiftLeft_eq_mul] at hd
    exact runScalar_finish h hg ((bind_ok ha).trans ((bind_ok hb).trans (dstX_next hd)))
  case mkaddr =>
    intro h ha hb hc hd
    rw [← ofNat_mkaddr] at hd
    exact runScalar_finish h hg ((bind_ok ha).trans ((bind_ok hb).trans ((bind_ok hc).trans (dstX_next hd))))
  case mkact =>
    intro h ha hb hd
    rw [← ofNat_mkact] at hd
    exact runScalar_finish h hg ((bind_ok ha).trans ((bind_ok hb).trans (dstX_next hd)))
  case nop => exact fun h => runScalar_finish h hg (pure_run Flow.next s)

/-- Settles O4: each takes its rounding mode and its operands, sets the flags of its result and writes the result. -/
theorem floatResults : Obligations.FloatResults := by
  unfold Obligations.FloatResults
  intro o s s1 s2 s3 t a b c hg ha
  refine ⟨fun e he h hd => ?one, fun hb => ⟨fun e he h hd => ?two, fun h hc hd => ?ffma⟩⟩
  case one => rw [exec_fpTable1 e he]; exact fpOp1_ok h hg ha hd
  case two => rw [exec_fpTable2 e he]; exact fpOp2_ok h hg ha hb hd
  case ffma =>
    exact runScalar_finish h hg ((bind_ok (roundMode_run s)).trans
      ((bind_ok ha).trans ((bind_ok hb).trans ((bind_ok hc).trans (setFlags_dstX_next hd)))))
end

section
/-! BRK, TRAP and KRET (R92, R334, R335). -/

open Sys2Proof

namespace Sys2Proof.Machine

/-- The code of BRK and TRAP is I18. -/
theorem ofNat_i18n (o : Op) : BitVec.ofNat 64 (i18n o) = o.i18.setWidth 64 := BitVec.ofNat_toNat 64 o.i18

section
variable {o : Op} {s : State} {c k : Nat}

/-- What KRET's checks find, in the order of R335: no handled trap, a misaligned counter, or a return. -/
theorem exec_kret_eq (hc : s.cur = .slot c k) (h : s.mayRun 0xF3 = true) (hg : s.thread.guardBit o = true) :
    exec (.kret o) s = .next (
      if ((s.slot c k).regs.prevk || (s.slot c k).regs.infiring) = false then s.trapCur .illegal (packWord0 0xF3 o)
      else if (s.slot c k).regs.xpc.toNat % 4 ≠ 0 then s.trapCur .align (s.slot c k).regs.xpc
      else s.noteIssue.modSlot c k (·.kret (o.m.getLsbD 0))) := by
  have hm : o.m.getLsbD 0 = (o.m.toNat % 2 == 1) := by
    rw [beq_eq_decide, ← Nat.testBit_zero, BitVec.getLsbD]
  rw [exec_kret, execKret, runScalar_run h hg, bind_ok (curSlot_slot hc), bind_ok (getS_run s), hm]
  simp only [← Bool.not_or, Bool.not_eq_true', bne_iff_ne, State.at_, hc]
  split
  · rfl
  · split <;> rfl

/-- A return keeps everything of its slot but the mode, the counter and the exemption from comparators (R335). -/
theorem kret_slot (hc : s.cur = .slot c k) (hk : k < 4) (nb : Bool) :
    let sl := (s.noteIssue.modSlot c k (·.kret nb)).slot c k
    sl.km = (s.slot c k).regs.prevk ∧ sl.thr = { (s.slot c k).thr with pc := (s.slot c k).regs.xpc } ∧
      sl.regs = (s.slot c k).regs ∧ sl.v = (s.slot c k).v ∧ sl.noMatch = nb := by
  simp [hk, State.noteIssue_slot s hc hk, Slot.kret]
end

end Sys2Proof.Machine

open Sys2Proof.Machine

/-- Settles O10: BRK and TRAP only raise their faults, and KRET either faults or returns. -/
theorem trapInstructions : Obligations.TrapInstructions := by
  unfold Obligations.TrapInstructions
  intro o s c k hc hk hg
  refine ⟨fun h => ?brk, fun h => ?trap, fun h hp hx => ?ret, fun h hp => ?illegal, fun h hp hx => ?align⟩
  case brk | trap => rw [← ofNat_i18n]; exact runScalar_trap h hg (raise_run _ _ s)
  case ret => exact ⟨_, by rw [exec_kret_eq hc h hg, if_neg (by simp [hp]), if_neg (by simp [hx])], kret_slot hc hk _⟩
  case illegal => rw [exec_kret_eq hc h hg, if_pos hp]
  case align => rw [exec_kret_eq hc h hg, if_neg (by simp [hp]), if_pos hx]
end

section
/-! SET, PSET, SEL and the predicate instructions (R80, R83, R84): the conditions of R45 over words, and the guard register's error
across the reads of sources. -/

open Sys2Proof

namespace Sys2Proof.Machine

/-! ### Words of an integer width (R50, R74) -/

theorem intWidth_pos (t : Nat) : 0 < intWidth t := by
  unfold intWidth
  split <;> decide

/-- The result of an n-bit computation is its low n bits, zero-extended (R74). -/
theorem narrow_eq (n v : Nat) : narrow n v = (BitVec.ofNat n v).setWidth 64 := by
  apply BitVec.eq_of_toNat_eq
  simp [narrow]

theorem ofNat_mod_two_pow (n v : Nat) : BitVec.ofNat n (v % 2 ^ n) = BitVec.ofNat n v := by
  apply BitVec.eq_of_toNat_eq
  simp

/-- The conditions of R45 are those of the low n bits of both sources. -/
theorem intCond_eq {n : Nat} (hn : 0 < n) (m a b : Nat) :
    intCond n m a b = specCond m n (BitVec.ofNat n a) (BitVec.ofNat n b) := by
  simp only [intCond, toSigned_eq_toInt hn, ← BitVec.toNat_ofNat]
  match m with
  | 0 | 1 => simp only [specCond, beq_eq_decide, bne, BitVec.toNat_inj]
  | 2 | 5 => simp only [specCond, BitVec.slt_eq_decide]
  | 3 | 4 => simp only [specCond, BitVec.sle_eq_decide]
  | 6 | _ + 9 => simp only [specCond, BitVec.ult_eq_decide]
  | 7 | 8 => simp only [specCond, BitVec.ule_eq_decide]

/-! ### Errors in p registers across the reads of sources (R332) -/

theorem srcX_poison {imm : BitVec 64} {d : Opd} {s t : State} {a : BitVec 64} (h : srcX imm d s = .ok (a, t)) :
    t.poison = s.poison := by
  rcases srcX_cases h with ⟨n, -, rfl, -⟩ | ⟨q, e, r, -, -, -, -, rfl⟩ | ⟨ch, e, -, hp, -⟩ | ⟨-, -, -, rfl, -⟩
  · rfl
  · rfl
  · obtain ⟨-, -, -, rfl⟩ := popChannel_cases hp
    rfl
  · rfl

/-- Reading an x source leaves the error that a p register holds. -/
theorem srcX_maskError {imm : BitVec 64} {d : Opd} {s t : State} {a : BitVec 64} (h : srcX imm d s = .ok (a, t)) (n : Nat) :
    t.maskError n = s.maskError n := by
  obtain ⟨near, hslot⟩ := srcX_near h
  simp only [State.maskError, near.cur, srcX_poison h, hslot]

theorem regNum_lt (d : Opd) : regNum d < 32 := by
  unfold regNum
  split <;> omega

/-! ### How these instructions complete -/

section
variable {code : Nat} {o : Op} {s s1 s2 t : State}

theorem intOp2_ok {f : Nat → Nat → Nat → Nat} {a b : BitVec 64} (h : s.mayRun code = true) (hg : s.thread.guardBit o = true)
    (ha : srcX (immValue o) o.a s = .ok (a, s1)) (hb : srcX (immValue o) o.b s1 = .ok (b, s2))
    (hd : let n := intWidth o.t.toNat; dstX o.d (narrow n (f n (a.toNat % 2 ^ n) (b.toNat % 2 ^ n))) s2 = .ok ((), t)) :
    intOp2 code o f s = .next (t.finish o.len) :=
  runScalar_finish h hg ((bind_ok ha).trans ((bind_ok hb).trans (dstX_next hd)))

theorem predOp2_ok {f : BitVec 32 → BitVec 32 → BitVec 32} {a b : BitVec 32} (h : s.mayRun code = true)
    (hg : s.thread.guardBit o = true) (ha : srcP (immValue o) o.a s = .ok (a, s1)) (hb : srcP (immValue o) o.b s1 = .ok (b, s2))
    (hd : dstP o.d (f a b) s2 = .ok ((), t)) : predOp2 code o f s = .next (t.finish o.len) :=
  runScalar_finish h hg ((bind_ok ha).trans ((bind_ok hb).trans (dstP_next hd)))
end

/-- SET's result is one or zero at every width. -/
theorem narrow_setCond (o : Op) (a b : BitVec 64) :
    let n := intWidth o.t.toNat
    narrow n (if intCond n o.m.toNat (a.toNat % 2 ^ n) (b.toNat % 2 ^ n) then 1 else 0) =
      if specCond o.m.toNat n (a.setWidth n) (b.setWidth n) then 1 else 0 := by
  intro n
  have hn : 1 < 2 ^ n := Nat.one_lt_two_pow (intWidth_pos _).ne'
  rw [intCond_eq (intWidth_pos _), ofNat_mod_two_pow, ofNat_mod_two_pow, BitVec.ofNat_toNat, BitVec.ofNat_toNat]
  split <;> simp [narrow, Nat.mod_eq_of_lt hn]

/-- SEL's result is the chosen source at its width (R80). -/
theorem narrow_sel (n : Nat) (c : Bool) (a b : BitVec 64) :
    narrow n (if c then a.toNat else b.toNat) = ((if c then a else b).setWidth n).setWidth 64 := by
  rw [narrow_eq, ← apply_ite BitVec.toNat, BitVec.ofNat_toNat]

end Sys2Proof.Machine

open Sys2Proof.Machine

/-- Settles O2: each reads its sources in order and writes the truth of the condition, the chosen source, or the bits combined. -/
theorem conditionResults : Obligations.ConditionResults := by
  unfold Obligations.ConditionResults
  refine ⟨fun o s s1 s2 t a b _ hg ha hb => ⟨fun h hd => ?set, fun h hd => ?pset, fun h hd => ?sel⟩,
    fun o s s1 s2 t a b hg ha => ⟨fun hb => ?pred, fun h hd => ?pnot⟩⟩
  case set =>
    rw [← narrow_setCond] at hd
    rw [exec_setCond, execSetCond]
    exact intOp2_ok h hg ha hb hd
  case pset =>
    rw [← BitVec.ofNat_toNat, ← BitVec.ofNat_toNat, ← intCond_eq (intWidth_pos _)] at hd
    exact runScalar_finish h hg ((bind_ok ha).trans ((bind_ok hb).trans (dstP_next hd)))
  case sel =>
    have hp : s2.maskError (regNum o.c) = none := by
      rw [srcX_maskError hb, srcX_maskError ha, mayRun_mask h _ (regNum_lt _)]
    rw [← narrow_sel] at hd
    exact runScalar_finish h hg ((bind_ok ha).trans ((bind_ok hb).trans ((bind_ok (rdP_ok hp)).trans (dstX_next hd))))
  case pred =>
    simp only [List.forall_mem_cons, List.not_mem_nil, IsEmpty.forall_iff, implies_true, and_true]
    exact ⟨fun h => predOp2_ok h hg ha hb, fun h => predOp2_ok h hg ha hb, fun h => predOp2_ok h hg ha hb⟩
  case pnot => exact runScalar_finish h hg ((bind_ok ha).trans (dstP_next hd))
end

section
/-! Integer results (R74, R77-R79, R81, R82): each operation on numbers gives the number of its operation on n-bit words, at every
width n; then the instructions that share a body. -/

open Sys2Proof

namespace Sys2Proof.Machine

/-! ### Numbers of words -/

section
variable {n : Nat} (hn : 0 < n) (x y : BitVec n)

include hn in
theorem toSigned_toNat : toSigned n x.toNat = x.toInt := by
  rw [toSigned_eq_toInt hn, BitVec.ofNat_toNat, BitVec.setWidth_eq]

theorem ofInt_eq_toNat (n : Nat) (i : Int) : ofInt n i = (BitVec.ofInt n i).toNat := (BitVec.toNat_ofInt i).symm

/-! ### Sums, products and bitwise operations (R77) -/

theorem aluAdd_eq : aluAdd n x.toNat y.toNat % 2 ^ n = (x + y).toNat := (BitVec.toNat_add x y).symm

theorem aluSub_eq : aluSub n x.toNat y.toNat % 2 ^ n = (x - y).toNat := by
  rw [aluSub, BitVec.toNat_sub, Nat.add_comm]

theorem aluMul_eq : aluMul n x.toNat y.toNat % 2 ^ n = (x * y).toNat := (BitVec.toNat_mul x y).symm

include hn in
theorem aluMulh_eq : aluMulh n x.toNat y.toNat % 2 ^ n = (specMulh n x y).toNat := by
  rw [aluMulh, specMulh, toSigned_toNat hn, toSigned_toNat hn, ofInt_eq_toNat, BitVec.ofInt_mul, BitVec.toNat_setWidth,
    BitVec.toNat_ushiftRight, Nat.shiftRight_eq_div_pow]
  rfl

theorem aluMulhn_eq : aluMulhn n x.toNat y.toNat % 2 ^ n = (specMulhn n x y).toNat := by
  have hx : x.toNat < 2 ^ (2 * n) := Nat.lt_of_lt_of_le x.isLt (Nat.pow_le_pow_right (by decide) (by omega))
  have hy : y.toNat < 2 ^ (2 * n) := Nat.lt_of_lt_of_le y.isLt (Nat.pow_le_pow_right (by decide) (by omega))
  have hxy : x.toNat * y.toNat < 2 ^ (2 * n) := by
    rw [two_mul, pow_add]
    exact Nat.mul_lt_mul'' x.isLt y.isLt
  rw [aluMulhn, specMulhn, BitVec.toNat_setWidth, BitVec.toNat_ushiftRight, BitVec.toNat_mul, BitVec.toNat_setWidth,
    BitVec.toNat_setWidth, Nat.mod_eq_of_lt hx, Nat.mod_eq_of_lt hy, Nat.mod_eq_of_lt hxy, Nat.shiftRight_eq_div_pow]

theorem aluAnd_eq : aluAnd n x.toNat y.toNat % 2 ^ n = (x &&& y).toNat := by
  rw [aluAnd, ← BitVec.toNat_and, BitVec.toNat_mod_cancel]

theorem aluOr_eq : aluOr n x.toNat y.toNat % 2 ^ n = (x ||| y).toNat := by
  rw [aluOr, ← BitVec.toNat_or, BitVec.toNat_mod_cancel]

theorem aluXor_eq : aluXor n x.toNat y.toNat % 2 ^ n = (x ^^^ y).toNat := by
  rw [aluXor, ← BitVec.toNat_xor, BitVec.toNat_mod_cancel]

theorem aluAndn_eq : aluAndn n x.toNat y.toNat % 2 ^ n = (x &&& ~~~y).toNat := by
  rw [aluAndn, ← BitVec.toNat_not, ← BitVec.toNat_and, BitVec.toNat_mod_cancel]

theorem aluOrn_eq : aluOrn n x.toNat y.toNat % 2 ^ n = (x ||| ~~~y).toNat := by
  rw [aluOrn, ← BitVec.toNat_not, ← BitVec.toNat_or, BitVec.toNat_mod_cancel]

/-! ### Shifts and rotations (R77) -/

theorem aluShl_eq : aluShl n x.toNat y.toNat % 2 ^ n = (x <<< (y.toNat % n)).toNat := by
  rw [aluShl, BitVec.toNat_shiftLeft, Nat.shiftLeft_eq]

theorem aluShr_eq : aluShr n x.toNat y.toNat % 2 ^ n = (x >>> (y.toNat % n)).toNat := by
  rw [aluShr, ← Nat.shiftRight_eq_div_pow, ← BitVec.toNat_ushiftRight, BitVec.toNat_mod_cancel]

include hn in
theorem aluSra_eq : aluSra n x.toNat y.toNat % 2 ^ n = (x.sshiftRight (y.toNat % n)).toNat := by
  rw [aluSra, toSigned_toNat hn, ofInt_eq_toNat, ← Int.shiftRight_eq_div_pow, BitVec.toNat_mod_cancel, BitVec.sshiftRight]

/-- The two parts of a rotation do not overlap: bits that move up by j, and bits that come down by the rest of n. -/
theorem rotate_parts {n j k v : Nat} (hjk : j + k = n) (hv : v < 2 ^ n) :
    (v * 2 ^ j + v / 2 ^ k) % 2 ^ n = v <<< j % 2 ^ n ||| v >>> k := by
  subst hjk
  have hlow : v / 2 ^ k < 2 ^ j := by rwa [Nat.div_lt_iff_lt_mul (by positivity), ← pow_add]
  have hsplit : v * 2 ^ j = 2 ^ (j + k) * (v / 2 ^ k) + (v % 2 ^ k) * 2 ^ j := by
    rw [pow_add, mul_assoc, ← mul_comm (2 ^ j), ← mul_comm (2 ^ j), ← mul_add, Nat.div_add_mod]
  have hhigh : v % 2 ^ k * 2 ^ j + v / 2 ^ k < 2 ^ (j + k) := by
    have h := Nat.mul_le_mul_right (2 ^ j) (Nat.succ_le_of_lt (Nat.mod_lt v (Nat.two_pow_pos k)))
    rw [← pow_add, Nat.add_comm k, Nat.succ_mul] at h
    omega
  rw [Nat.shiftLeft_eq, hsplit, Nat.add_assoc, Nat.mul_add_mod, Nat.mul_add_mod, Nat.mod_eq_of_lt hhigh,
    Nat.mod_eq_of_lt (Nat.lt_of_le_of_lt (Nat.le_add_right _ _) hhigh), Nat.shiftRight_eq_div_pow, ← Nat.shiftLeft_eq,
    Nat.shiftLeft_add_eq_or_of_lt hlow]

include hn in
theorem aluRol_eq : aluRol n x.toNat y.toNat % 2 ^ n = (x.rotateLeft (y.toNat % n)).toNat := by
  have hk := Nat.mod_lt y.toNat hn
  rw [aluRol, BitVec.toNat_rotateLeft, Nat.mod_mod, rotate_parts (by omega) x.isLt]

include hn in
theorem aluRor_eq : aluRor n x.toNat y.toNat % 2 ^ n = (x.rotateRight (y.toNat % n)).toNat := by
  have hk := Nat.mod_lt y.toNat hn
  rw [aluRor, BitVec.toNat_rotateRight, Nat.mod_mod, Nat.add_comm, rotate_parts (by omega) x.isLt, Nat.or_comm]

/-! ### Minimum and maximum (R77) -/

include hn in
theorem aluMin_eq : aluMin n x.toNat y.toNat % 2 ^ n = (if y.slt x then y else x).toNat := by
  simp only [aluMin, toSigned_toNat hn, ← BitVec.slt_iff_toInt_lt, ← apply_ite BitVec.toNat, BitVec.toNat_mod_cancel]

include hn in
theorem aluMax_eq : aluMax n x.toNat y.toNat % 2 ^ n = (if x.slt y then y else x).toNat := by
  simp only [aluMax, toSigned_toNat hn, ← BitVec.slt_iff_toInt_lt, ← apply_ite BitVec.toNat, BitVec.toNat_mod_cancel]

theorem aluMinn_eq : aluMinn n x.toNat y.toNat % 2 ^ n = (if y.ult x then y else x).toNat := by
  simp only [aluMinn, ← BitVec.ult_iff_lt, ← BitVec.lt_def, ← apply_ite BitVec.toNat, BitVec.toNat_mod_cancel]

theorem aluMaxn_eq : aluMaxn n x.toNat y.toNat % 2 ^ n = (if x.ult y then y else x).toNat := by
  simp only [aluMaxn, ← BitVec.ult_iff_lt, ← BitVec.lt_def, ← apply_ite BitVec.toNat, BitVec.toNat_mod_cancel]

/-! ### Divisions (R78) -/

/-- The signed quotient of words, whose one overflow wraps (R78). -/
theorem sdiv_eq_ofInt : x.sdiv y = BitVec.ofInt n (x.toInt.tdiv y.toInt) := by
  apply BitVec.eq_of_toInt_eq
  rw [BitVec.toInt_sdiv, BitVec.toInt_ofInt]

theorem srem_eq_ofInt : x.srem y = BitVec.ofInt n (x.toInt.tmod y.toInt) := by
  rw [← BitVec.toInt_srem, BitVec.ofInt_toInt]

theorem toNat_eq_zero_iff : y.toNat = 0 ↔ y = 0 := by rw [← BitVec.toNat_inj]; simp

include hn in
/-- The quotient that does not fit, and its remainder: the least value over -1 (R78). -/
theorem sdiv_srem_overflow (hx : x.toInt = -((2 ^ (n - 1) : Nat) : Int)) (hy : y.toInt = -1) : x.sdiv y = x ∧ x.srem y = 0 := by
  have hmin : x = BitVec.intMin n := by
    apply BitVec.eq_of_toInt_eq
    rw [hx, BitVec.toInt_intMin, Nat.mod_eq_of_lt (Nat.two_pow_pred_lt_two_pow hn)]
  rw [sdiv_eq_ofInt, srem_eq_ofInt, hy, Int.tdiv_neg, Int.tdiv_one, Int.tmod_neg, Int.tmod_one, BitVec.ofInt_neg,
    BitVec.ofInt_toInt]
  exact ⟨by rw [hmin, BitVec.neg_intMin], rfl⟩

include hn in
/-- Division by zero answers the greatest value of the dividend's sign (R78). -/
theorem toNat_div_zero : (if x.msb then BitVec.intMin n else BitVec.intMax n).toNat =
    if 0 ≤ x.toInt then 2 ^ (n - 1) - 1 else 2 ^ (n - 1) := by
  rw [BitVec.msb_eq_toInt, apply_ite BitVec.toNat, BitVec.toNat_intMin, BitVec.toNat_intMax,
    Nat.mod_eq_of_lt (Nat.two_pow_pred_lt_two_pow hn)]
  simp only [decide_eq_true_eq, ← Int.not_le, ite_not]

include hn in
theorem aluDiv_eq : aluDiv n x.toNat y.toNat =
    ((if y = 0 then (if x.msb then BitVec.intMin n else BitVec.intMax n) else x.sdiv y).toNat, if y = 0 then flDZ else 0) := by
  simp only [aluDiv, toSigned_toNat hn, beq_iff_eq, toNat_eq_zero_iff, Bool.and_eq_true]
  by_cases hy : y = 0
  · simp only [hy, if_true, toNat_div_zero hn]
  · simp only [hy, if_false]
    split
    · next h => rw [(sdiv_srem_overflow hn x y h.1 h.2).1]
    · rw [ofInt_eq_toNat, sdiv_eq_ofInt]

theorem aluDivn_eq : aluDivn n x.toNat y.toNat =
    ((if y = 0 then BitVec.allOnes n else x / y).toNat, if y = 0 then flDZ else 0) := by
  simp only [aluDivn, beq_iff_eq, toNat_eq_zero_iff]
  split <;> simp

include hn in
theorem aluRem_eq : aluRem n x.toNat y.toNat = ((if y = 0 then x else x.srem y).toNat, if y = 0 then flDZ else 0) := by
  simp only [aluRem, toSigned_toNat hn, beq_iff_eq, toNat_eq_zero_iff, Bool.and_eq_true]
  by_cases hy : y = 0
  · simp only [hy, if_true]
  · simp only [hy, if_false]
    split
    · next h => rw [(sdiv_srem_overflow hn x y h.1 h.2).2]; rfl
    · rw [ofInt_eq_toNat, srem_eq_ofInt, Int.tmod_def]

theorem aluRemn_eq : aluRemn n x.toNat y.toNat = ((if y = 0 then x else x % y).toNat, if y = 0 then flDZ else 0) := by
  simp only [aluRemn, beq_iff_eq, toNat_eq_zero_iff]
  split
  · rfl
  · rw [BitVec.toNat_umod, Nat.mod_eq_sub_mul_div]
end

/-! ### Counts of bits (R79) -/

/-- How many of the numbers below n come before the first that fails a test. -/
theorem length_takeWhile_range {p : Nat → Bool} {n k : Nat} (hk : k ≤ n) (hbefore : ∀ i < k, p i = true)
    (hat : k < n → p k = false) : ((List.range n).takeWhile p).length = k := by
  obtain ⟨m, rfl⟩ := Nat.exists_eq_add_of_le hk
  rw [List.range_add, List.takeWhile_append_of_pos (by simpa using hbefore)]
  cases m with
  | zero => simp
  | succ m => simp [List.range_succ_eq_map, hat]

theorem aluClz_eq {n : Nat} (x : BitVec n) :
    aluClz n x.toNat = ((List.range n).takeWhile (fun i => !x.getLsbD (n - 1 - i))).length := by
  symm
  simp only [aluClz, beq_iff_eq]
  split
  · next h => exact length_takeWhile_range le_rfl (by simp [BitVec.getLsbD, h]) (by simp)
  · next h =>
    have hlog : Nat.log2 x.toNat < n := (Nat.log2_lt h).mpr x.isLt
    refine length_takeWhile_range (by omega) (fun i hi => ?_) (fun _ => ?_)
    · have hhigh : x.toNat < 2 ^ (n - 1 - i) := (Nat.log2_lt h).mp (by omega)
      simp [BitVec.getLsbD, Nat.testBit_lt_two_pow hhigh]
    · have hbit : n - 1 - (n - 1 - Nat.log2 x.toNat) = Nat.log2 x.toNat := by omega
      simp [BitVec.getLsbD, hbit, Nat.testBit_log2 h]

theorem trailing_eq (a f : Nat) : trailing a f = ((List.range f).takeWhile (fun i => !a.testBit i)).length := by
  induction f generalizing a with
  | zero => rfl
  | succ f ih =>
    rw [trailing, List.range_succ_eq_map, List.takeWhile_cons, List.takeWhile_map, Nat.testBit_zero]
    by_cases h : a % 2 = 1
    · simp [h]
    · simp [h, ih, Function.comp_def, Nat.testBit_succ, Nat.add_comm]

theorem popCount_eq (a f : Nat) : popCount a f = ((List.range f).filter (fun i => a.testBit i)).length := by
  induction f generalizing a with
  | zero => rfl
  | succ f ih =>
    rw [popCount, List.range_succ_eq_map, List.filter_cons, List.filter_map, Nat.testBit_zero]
    rcases Nat.mod_two_eq_zero_or_one a with h | h <;> simp [h, ih, Function.comp_def, Nat.testBit_succ, Nat.add_comm]

/-! ### Reversals (R79) -/

theorem bitReverse_lt (a f : Nat) : bitReverse a f < 2 ^ f := by
  induction f generalizing a with
  | zero => exact Nat.one_pos
  | succ f ih =>
    have h := ih (a / 2)
    rw [bitReverse, pow_succ]
    rcases Nat.mod_two_eq_zero_or_one a with h2 | h2 <;> rw [h2] <;> omega

theorem testBit_bitReverse {a f i : Nat} (hi : i < f) : (bitReverse a f).testBit i = a.testBit (f - 1 - i) := by
  induction f generalizing a with
  | zero => omega
  | succ f ih =>
    rw [bitReverse, Nat.mul_comm, Nat.testBit_two_pow_mul_add _ (bitReverse_lt _ _)]
    split
    · next h => rw [ih h, ← Nat.testBit_succ, show f + 1 - 1 - i = (f - 1 - i).succ by omega]
    · next h => rw [show i = f by omega]; simp [Nat.testBit_zero]

theorem aluBrev_eq {n : Nat} (x : BitVec n) : aluBrev n x.toNat = x.reverse.toNat := by
  apply Nat.eq_of_testBit_eq
  intro i
  by_cases hi : i < n
  · rw [aluBrev, testBit_bitReverse hi, ← BitVec.getLsbD, ← BitVec.getLsbD, BitVec.getLsbD_reverse, BitVec.getMsbD_eq_getLsbD]
    simp [hi]
  · have hpow : 2 ^ n ≤ 2 ^ i := Nat.pow_le_pow_right (by decide) (Nat.le_of_not_lt hi)
    rw [aluBrev, Nat.testBit_lt_two_pow (Nat.lt_of_lt_of_le (bitReverse_lt _ _) hpow),
      Nat.testBit_lt_two_pow (Nat.lt_of_lt_of_le x.reverse.isLt hpow)]

theorem bytesToNat_append (bs cs : List Byte) : bytesToNat (bs ++ cs) = bytesToNat bs + 256 ^ bs.length * bytesToNat cs := by
  induction bs with
  | nil => simp [bytesToNat]
  | cons b bs ih =>
    rw [List.cons_append, bytesToNat, ih, bytesToNat, List.length_cons, pow_succ]
    ring

theorem byteReverse_eq (a f : Nat) : byteReverse a f = bytesToNat (natToBytes f a).reverse := by
  induction f generalizing a with
  | zero => rfl
  | succ f ih =>
    rw [byteReverse, natToBytes, List.reverse_cons, bytesToNat_append, ← ih]
    simp [bytesToNat, pow_mul]
    ring

/-! ### Fields (R81, R82) -/

/-- The low bits of an integer are those of any wider word of it. -/
theorem ofInt_mod_two_pow {m n : Nat} (h : n ≤ m) (i : Int) : ofInt m i % 2 ^ n = ofInt n i := by
  have hdvd : ((2 ^ n : Nat) : Int) ∣ ((2 ^ m : Nat) : Int) := Int.natCast_dvd_natCast.mpr (pow_dvd_pow 2 h)
  have hnonneg : ∀ k : Nat, 0 ≤ i % ((2 ^ k : Nat) : Int) := fun k => Int.emod_nonneg i (by positivity)
  zify
  simp only [ofInt, Int.toNat_of_nonneg (hnonneg _)]
  rw [← Int.emod_emod_of_dvd i hdvd]
  norm_cast

/-- A field of len bits from pos, extended to a width n of no more than m bits. -/
theorem extractField_eq {m n len : Nat} (hn : n ≤ m) (hlen : 0 < len) (x : BitVec n) (pos : Nat) (sign : Bool) :
    extractField m x.toNat pos len sign % 2 ^ n =
      (let f := x.extractLsb' pos len; if sign then f.signExtend n else f.setWidth n).toNat := by
  have hf : x.toNat / 2 ^ pos % 2 ^ len = (x.extractLsb' pos len).toNat := by
    rw [BitVec.extractLsb'_toNat, Nat.shiftRight_eq_div_pow]
  simp only [extractField, hf]
  cases sign with
  | false => simp
  | true =>
    rw [if_pos rfl, if_pos rfl, toSigned_toNat hlen, ofInt_mod_two_pow hn, ofInt_eq_toNat, BitVec.signExtend]

theorem extractLsb'_zero_eq {n : Nat} (x : BitVec n) (len : Nat) : x.extractLsb' 0 len = x.setWidth len := by
  apply BitVec.eq_of_toNat_eq
  simp

/-- BINS as three fields, one above the other. -/
theorem testBit_insertField (a b pos len i : Nat) : (insertField a b pos len).testBit i =
    if pos ≤ i ∧ i < pos + len then a.testBit (i - pos) else b.testBit i := by
  have hstack : insertField a b pos len = 2 ^ pos * (2 ^ len * (b / 2 ^ (pos + len)) + a % 2 ^ len) + b % 2 ^ pos := by
    rw [insertField, pow_add]
    ring
  rw [hstack, Nat.testBit_two_pow_mul_add _ (Nat.mod_lt _ (Nat.two_pow_pos _)),
    Nat.testBit_two_pow_mul_add _ (Nat.mod_lt _ (Nat.two_pow_pos _)), Nat.testBit_mod_two_pow, Nat.testBit_mod_two_pow,
    Nat.testBit_div_two_pow]
  by_cases hlow : i < pos
  · simp [hlow]
  · by_cases hmid : i < pos + len
    · have h : i - pos < len := by omega
      simp [hlow, hmid, h]
    · have h : ¬ i - pos < len := by omega
      have hi : i - pos - len + (pos + len) = i := by omega
      simp [hlow, hmid, h, hi]

/-- The mask of the low len bits. -/
theorem getLsbD_lowMask (n len i : Nat) : ((1#n <<< len) - 1#n).getLsbD i = (decide (i < n) && decide (i < len)) := by
  have hmask : (1#n <<< len) - 1#n = BitVec.ofNat n (2 ^ len - 1) := by
    rw [BitVec.sub_eq_iff_eq_add, ← BitVec.ofNat_add, Nat.sub_add_cancel Nat.one_le_two_pow]
    apply BitVec.eq_of_toNat_eq
    rw [BitVec.toNat_shiftLeft, BitVec.toNat_ofNat, BitVec.toNat_ofNat, Nat.shiftLeft_eq, Nat.mod_mul_mod, one_mul]
  rw [hmask, BitVec.getLsbD_ofNat, Nat.testBit_two_pow_sub_one]

theorem insertField_eq {n : Nat} (x y : BitVec n) (pos len : Nat) :
    insertField x.toNat y.toNat pos len % 2 ^ n = (specBins n pos len x y).toNat := by
  apply Nat.eq_of_testBit_eq
  intro i
  rw [Nat.testBit_mod_two_pow, testBit_insertField, ← BitVec.getLsbD, ← BitVec.getLsbD, ← BitVec.getLsbD, specBins]
  simp only [BitVec.getLsbD_or, BitVec.getLsbD_and, BitVec.getLsbD_not, BitVec.getLsbD_shiftLeft, getLsbD_lowMask]
  by_cases hn : i < n
  · by_cases hlow : i < pos
    · simp [hn, hlow]
    · have hhigh : i < pos + len ↔ i - pos < len := by omega
      have hin : i - pos < n := by omega
      by_cases hmid : i - pos < len <;> simp [hn, hlow, hhigh, hin, hmid]
  · simp [hn]

/-! ### The tables of R77 to R82 -/

/-- An operation on numbers gives, at every width, the number of an operation on words. -/
def Computes2 (f : Nat → Nat → Nat → Nat) (g : Op2) : Prop :=
  ∀ n, 0 < n → ∀ x y : BitVec n, f n x.toNat y.toNat % 2 ^ n = (g n x y).toNat

/-- As `Computes2`, for a division, which sets DZ exactly when the divisor is zero (R78). -/
def ComputesDiv (f : Nat → Nat → Nat → Nat × Flags) (g : Op2) : Prop :=
  ∀ n, 0 < n → ∀ x y : BitVec n, f n x.toNat y.toNat = ((g n x y).toNat, if y = 0 then flDZ else 0)

/-- As `Computes2`, for one source of at most 64 bits. -/
def Computes1 (f : Nat → Nat → Nat) (g : (n : Nat) → BitVec n → BitVec n) : Prop :=
  ∀ n, n ≤ 64 → ∀ x : BitVec n, f n x.toNat % 2 ^ n = (g n x).toNat

theorem intTable_computes : ∀ e ∈ intTable, ∃ f, Computes2 f e.2.2 ∧ ∀ o s, exec (e.1 o) s = intOp2 e.2.1 o f s := by
  simp only [intTable, List.forall_mem_cons, List.not_mem_nil, IsEmpty.forall_iff, implies_true, and_true]
  exact ⟨⟨aluAdd, fun _ _ => aluAdd_eq, fun _ _ => rfl⟩, ⟨aluSub, fun _ _ => aluSub_eq, fun _ _ => rfl⟩,
    ⟨aluMul, fun _ _ => aluMul_eq, fun _ _ => rfl⟩, ⟨aluMulh, fun _ => aluMulh_eq, fun _ _ => rfl⟩,
    ⟨aluMulhn, fun _ _ => aluMulhn_eq, fun _ _ => rfl⟩, ⟨aluAnd, fun _ _ => aluAnd_eq, fun _ _ => rfl⟩,
    ⟨aluOr, fun _ _ => aluOr_eq, fun _ _ => rfl⟩, ⟨aluXor, fun _ _ => aluXor_eq, fun _ _ => rfl⟩,
    ⟨aluAndn, fun _ _ => aluAndn_eq, fun _ _ => rfl⟩, ⟨aluOrn, fun _ _ => aluOrn_eq, fun _ _ => rfl⟩,
    ⟨aluShl, fun _ _ => aluShl_eq, fun _ _ => rfl⟩, ⟨aluShr, fun _ _ => aluShr_eq, fun _ _ => rfl⟩,
    ⟨aluSra, fun _ => aluSra_eq, fun _ _ => rfl⟩, ⟨aluRol, fun _ => aluRol_eq, fun _ _ => rfl⟩,
    ⟨aluRor, fun _ => aluRor_eq, fun _ _ => rfl⟩, ⟨aluMin, fun _ => aluMin_eq, fun _ _ => rfl⟩,
    ⟨aluMax, fun _ => aluMax_eq, fun _ _ => rfl⟩, ⟨aluMinn, fun _ _ => aluMinn_eq, fun _ _ => rfl⟩,
    ⟨aluMaxn, fun _ _ => aluMaxn_eq, fun _ _ => rfl⟩⟩

theorem divTable_computes : ∀ e ∈ divTable, ∃ f, ComputesDiv f e.2.2 ∧ ∀ o s, exec (e.1 o) s = intDiv e.2.1 o f s := by
  simp only [divTable, List.forall_mem_cons, List.not_mem_nil, IsEmpty.forall_iff, implies_true, and_true]
  exact ⟨⟨aluDiv, fun _ => aluDiv_eq, fun _ _ => rfl⟩, ⟨aluDivn, fun _ _ => aluDivn_eq, fun _ _ => rfl⟩,
    ⟨aluRem, fun _ => aluRem_eq, fun _ _ => rfl⟩, ⟨aluRemn, fun _ _ => aluRemn_eq, fun _ _ => rfl⟩⟩

theorem intTable1_computes : ∀ e ∈ intTable1, ∀ o, ∃ f, Computes1 f (e.2.2 o) ∧ ∀ s, exec (e.1 o) s = intOp1 e.2.1 o f s := by
  simp only [intTable1, List.forall_mem_cons, List.not_mem_nil, IsEmpty.forall_iff, implies_true, and_true]
  refine ⟨fun o => ⟨aluClz, fun n _ x => ?clz, fun _ => rfl⟩, fun o => ⟨aluCtz, fun n _ x => ?ctz, fun _ => rfl⟩,
    fun o => ⟨aluPopc, fun n _ x => ?popc, fun _ => rfl⟩, fun o => ⟨aluBrev, fun n _ x => ?brev, fun _ => rfl⟩,
    fun o => ⟨aluBswap, fun n _ x => ?bswap, fun _ => rfl⟩,
    fun o => ⟨fun n a => extractField n a (i18f o 5 0) (i18f o 11 6 + 1) (i18f o 12 12 == 1), fun n _ x => ?bext, fun _ => rfl⟩,
    fun o => ⟨fun _ a => extractField 64 a 0 (i18f o 5 0 + 1) (i18f o 6 6 == 1), fun n hn x => ?ext, fun _ => rfl⟩⟩
  case clz => rw [aluClz_eq, BitVec.toNat_ofNat]
  case ctz => rw [aluCtz, trailing_eq, BitVec.toNat_ofNat]; rfl
  case popc => rw [aluPopc, popCount_eq, BitVec.toNat_ofNat]; rfl
  case brev => rw [aluBrev_eq, BitVec.toNat_mod_cancel]
  case bswap => rw [aluBswap, byteReverse_eq, BitVec.toNat_ofNat]
  case bext => rw [extractField_eq le_rfl (Nat.succ_pos _)]; simp only [beq_iff_eq]
  case ext => rw [extractField_eq hn (Nat.succ_pos _)]; simp only [beq_iff_eq, extractLsb'_zero_eq]

/-! ### How these instructions complete -/

theorem intWidth_le (t : Nat) : intWidth t ≤ 64 := by
  unfold intWidth
  split <;> decide

theorem Computes2.narrow_eq {f : Nat → Nat → Nat → Nat} {g : Op2} (h : Computes2 f g) {n : Nat} (hn : 0 < n) (a b : BitVec 64) :
    narrow n (f n (a.toNat % 2 ^ n) (b.toNat % 2 ^ n)) = atWidth g n a b := by
  rw [narrow, ← BitVec.toNat_setWidth, ← BitVec.toNat_setWidth, h n hn, BitVec.ofNat_toNat]
  rfl

theorem Computes1.narrow_eq {f : Nat → Nat → Nat} {g : (n : Nat) → BitVec n → BitVec n} (h : Computes1 f g) {n : Nat} (hn : n ≤ 64)
    (a : BitVec 64) : narrow n (f n (a.toNat % 2 ^ n)) = (g n (a.setWidth n)).setWidth 64 := by
  rw [narrow, ← BitVec.toNat_setWidth, h n hn, BitVec.ofNat_toNat]

section
variable {code : Nat} {o : Op} {s s1 s2 t : State} {a b : BitVec 64}

theorem intOp2_computes {f : Nat → Nat → Nat → Nat} {g : Op2} (h : Computes2 f g) (hr : s.runs code o)
    (ha : srcX (immValue o) o.a s = .ok (a, s1)) (hb : srcX (immValue o) o.b s1 = .ok (b, s2))
    (hd : dstX o.d (atWidth g (intWidth o.t.toNat) a b) s2 = .ok ((), t)) : intOp2 code o f s = .next (t.finish o.len) := by
  rw [← h.narrow_eq (intWidth_pos _)] at hd
  exact intOp2_ok hr.1 hr.2 ha hb hd

theorem intDiv_computes {f : Nat → Nat → Nat → Nat × Flags} {g : Op2} (h : ComputesDiv f g) (hr : s.runs code o)
    (ha : srcX (immValue o) o.a s = .ok (a, s1)) (hb : srcX (immValue o) o.b s1 = .ok (b, s2))
    (hd : dstX o.d (atWidth g (intWidth o.t.toNat) a b)
      (s2.modThread (·.orFlags (if b.setWidth (intWidth o.t.toNat) = 0 then flDZ else 0))) = .ok ((), t)) :
    intDiv code o f s = .next (t.finish o.len) := by
  refine runScalar_finish hr.1 hr.2 ((bind_ok ha).trans ((bind_ok hb).trans (setFlags_dstX_next ?_)))
  rw [← BitVec.toNat_setWidth, ← BitVec.toNat_setWidth, h _ (intWidth_pos _), narrow, BitVec.toNat_mod_cancel,
    BitVec.ofNat_toNat]
  exact hd

theorem intOp1_computes {f : Nat → Nat → Nat} {g : (n : Nat) → BitVec n → BitVec n} (h : Computes1 f g) (hr : s.runs code o)
    (ha : srcX (immValue o) o.a s = .ok (a, s1))
    (hd : dstX o.d ((g (intWidth o.t.toNat) (a.setWidth _)).setWidth 64) s1 = .ok ((), t)) :
    intOp1 code o f s = .next (t.finish o.len) := by
  rw [← h.narrow_eq (intWidth_le _)] at hd
  exact runScalar_finish hr.1 hr.2 ((bind_ok ha).trans (dstX_next hd))
end

end Sys2Proof.Machine

open Sys2Proof.Machine

/-- Settles O1: at every width each instruction's number is that of its operation on words, and D takes it. -/
theorem integerResults : Obligations.IntegerResults := by
  unfold Obligations.IntegerResults
  refine ⟨⟨fun e he o s s1 s2 t a b hr ha hb hd => ?two, fun o s s1 s2 t a b hr ha hb hd => ?bins⟩,
    fun e he o s s1 s2 t a b hr ha hb hd => ?div, fun e he o s s1 t a hr ha hd => ?one⟩
  case two =>
    obtain ⟨f, hf, hexec⟩ := intTable_computes e he
    rw [hexec]
    exact intOp2_computes hf hr ha hb hd
  case bins =>
    rw [exec_bins, execBins]
    exact intOp2_computes (fun _ _ x y => insertField_eq x y _ _) hr ha hb hd
  case div =>
    obtain ⟨f, hf, hexec⟩ := divTable_computes e he
    rw [hexec]
    exact intDiv_computes hf hr ha hb hd
  case one =>
    obtain ⟨f, hf, hexec⟩ := intTable1_computes e he o
    rw [hexec]
    exact intOp1_computes hf hr ha hd
end

section
/-! CYC, FGET, FCLR, IBAR and PLBINV (R76, R350, R360-R362): what a retirement keeps of the agent's thread, the flags that an earlier
store may yet set, and what a PLBINV removes. -/

open Sys2Proof

namespace Sys2Proof.Machine

/-! ### The agent's thread across updates -/

/-- A number that no slot of a core bears names an empty slot. -/
theorem State.slot_of_not_lt (s : State) (c : Nat) {k : Nat} (hk : ¬ k < 4) : s.slot c k = {} := by
  simp [State.slot, Core.slot, vget, hk]

section
variable {α : Type}

/-- What an update of a slot keeps of that slot, it keeps of every slot. -/
theorem State.slot_modSlot_keeps (π : Slot → α) {f : Slot → Slot} (h : ∀ x, π (f x) = π x) (s : State) (c k d j : Nat) :
    π ((s.modSlot c k f).slot d j) = π (s.slot d j) := by
  by_cases hd : d = c
  · subst hd
    by_cases hj : j = k
    · subst hj
      by_cases hk : j < 4
      · rw [s.slot_modSlot _ _ _ hk, h]
      · rw [State.slot_of_not_lt _ _ hk, State.slot_of_not_lt _ _ hk]
    · rw [s.slot_modSlot_ne _ _ hj]
  · rw [s.slot_modSlot_core _ _ _ hd]

/-- What an update of the thread keeps of every thread, it keeps of the agent's. -/
theorem State.thread_modThread_keeps (π : Thread → α) {f : Thread → Thread} (h : ∀ t, π (f t) = π t) (s : State) :
    π (s.modThread f).thread = π s.thread := by
  unfold State.modThread
  split
  · next c k hc =>
    simp only [State.thread, State.modSlot_cur, hc]
    exact State.slot_modSlot_keeps (fun x => π x.thr) (fun x => h x.thr) s c k c k
  · next n hc => simp [State.thread, hc, h]

theorem State.noteIssue_thread (s : State) : s.noteIssue.thread = s.thread := by
  unfold State.noteIssue
  split
  · next c k hc =>
    simp only [State.thread, State.modSlot_cur, State.modCore_cur, hc]
    exact (State.slot_modSlot_keeps Slot.thr (fun _ => by rfl) _ c k c k).trans
      (congrArg Slot.thr (State.slot_modCore_keeps _ _ _ rfl _ _))
  · next n hc => simp [State.thread, hc]

/-- A retirement changes of the agent's thread only the counter. -/
theorem State.finish_thread_keeps (π : Thread → α) (h : ∀ (t : Thread) pc, π { t with pc := pc } = π t) (s : State) (len : Len) :
    π (s.finish len).thread = π s.thread := by
  rw [State.finish, State.advance, State.setPc, State.thread_modThread_keeps π (fun t => h t _), State.noteIssue_thread]
end

/-- A write of D leaves the rounding mode. -/
theorem dstX_rm {d : Opd} {v : BitVec 64} {s t : State} (h : dstX d v s = .ok ((), t)) : t.thread.rm = s.thread.rm := by
  rcases dstX_cases h with ⟨n, -, hw⟩ | ⟨q, -, -, -, -, rfl⟩ | ⟨-, -, rfl⟩
  · rcases wrX_cases hw with ⟨c, k, hc, rfl⟩ | ⟨i, hc, rfl⟩
    · simp only [State.thread, State.modSlot_cur, hc]
      exact State.slot_modSlot_keeps (fun x => x.thr.rm) (fun x => Thread.setX_rm _ _ _) s c k c k
    · rw [State.thread_modThread_keeps Thread.rm (fun t => Thread.setX_rm t _ _), State.cleanReg]
      split <;> rfl
  · simp only [State.thread, State.modCore_cur, State.svc_modCore]
    split
    · rw [State.slot_modCore_keeps _ _ _ rfl]
    · rfl
  · rfl

/-- Flags are cleared in the agent's thread; a number that no slot bears has none to clear. -/
theorem State.flags_modThread_and (s : State) (m : Flags) :
    (s.modThread (fun t => { t with flags := t.flags &&& m })).thread.flags = s.thread.flags &&& m := by
  unfold State.modThread
  split
  · next c k hc =>
    simp only [State.thread, State.modSlot_cur, hc]
    by_cases hk : k < 4
    · rw [s.slot_modSlot _ _ _ hk]
    · simp [State.slot_of_not_lt _ _ hk]
  · next n hc => simp [State.thread, hc]

/-! ### CYC, FGET and FCLR (R76, R350) -/

section
variable {o : Op} {s s1 t : State} {a : BitVec 64}

/-- No store of the issuing slot may yet tell of a saturation (R76, R139). -/
def State.flagsTold (s : State) : Prop := ∀ c k, s.cur = .slot c k → (s.slot c k).satOwed c s.ownDev = false

theorem flagsIn_told (h : s.flagsTold) : flagsIn s = .ok ((), s) := by
  cases hc : s.cur with
  | slot c k => exact flagsIn_ok hc (h c k hc)
  | svc n => simp only [flagsIn, hc]

/-- One that may is asked for, with what the combining buffer holds for other cores' banks (R76). -/
theorem flagsIn_owed {c k : Nat} (hc : s.cur = .slot c k) (h : (s.slot c k).satOwed c s.ownDev = true) :
    flagsIn s = .error (.ask (fun s => (s.flushComb c k (fun e => e.tgt.isLocal)).stallCur .remoteReply)) := by
  simp [flagsIn, hc, h]

theorem execFget_ok (h : s.mayRun 0xF7 = true) (hg : s.thread.guardBit o = true) (hf : s.flagsTold)
    (hd : dstX o.d s.thread.fpctl s = .ok ((), t)) : execFget o s = .next (t.finish o.len) :=
  runScalar_finish h hg ((bind_ok (flagsIn_told hf)).trans ((bind_ok (curThread_run s)).trans (dstX_next hd)))

theorem execFget_owed {c k : Nat} (hc : s.cur = .slot c k) (hg : s.thread.guardBit o = true) (h : s.mayRun 0xF7 = true)
    (hs : (s.slot c k).satOwed c s.ownDev = true) :
    execFget o s = .next ((s.flushComb c k (fun e => e.tgt.isLocal)).stallCur .remoteReply) := by
  rw [execFget, runScalar_run h hg, bind_error (flagsIn_owed hc hs)]
  rfl

theorem execFclr_ok (h : s.mayRun 0xF8 = true) (hg : s.thread.guardBit o = true) (hf : s.flagsTold)
    (ha : rdReg o.a s = .ok (a, s)) (hd : dstX o.d s.thread.fpctl s = .ok ((), s1)) :
    execFclr o s = .next ((s1.modThread (fun t =>
      { t with flags := t.flags &&& ~~~(BitVec.ofNat 7 (i18f o 6 0) ||| a.setWidth 7) })).finish o.len) :=
  runScalar_finish h hg ((bind_ok ha).trans ((bind_ok (flagsIn_told hf)).trans ((bind_ok (curThread_run s)).trans
    ((bind_ok hd).trans (bind_ok (modS_run _ s1))))))

/-- FCLR clears the flags that I18 and A name, after D has taken FPCTL. -/
theorem execFclr_thread (h : s.mayRun 0xF8 = true) (hg : s.thread.guardBit o = true) (hf : s.flagsTold)
    (ha : rdReg o.a s = .ok (a, s)) (hd : dstX o.d s.thread.fpctl s = .ok ((), s1)) :
    ∃ u : State, execFclr o s = .next u ∧ u.thread.flags = s1.thread.flags &&& ~~~(BitVec.ofNat 7 (i18f o 6 0) ||| a.setWidth 7) ∧
      u.thread.rm = s.thread.rm ∧ u.thread.x = s1.thread.x := by
  refine ⟨_, execFclr_ok h hg hf ha hd, ?flags, ?rm, ?x⟩
  case flags => rw [State.finish_thread_keeps Thread.flags (fun _ _ => rfl), State.flags_modThread_and]
  case rm =>
    rw [State.finish_thread_keeps Thread.rm (fun _ _ => rfl), ← dstX_rm hd]
    exact State.thread_modThread_keeps Thread.rm (fun _ => by rfl) s1
  case x =>
    rw [State.finish_thread_keeps Thread.x (fun _ _ => rfl)]
    exact State.thread_modThread_keeps Thread.x (fun _ => by rfl) s1
end

/-! ### A calm slot's waits, and memories that stay -/

section
variable {s t u : State} {c k : Nat}

theorem State.calm.releaseAll_ok (h : s.calm c k) : releaseAll s = .ok ((), s) := by
  obtain ⟨hc, -, hsq, hcomb, -, hun, -⟩ := h
  unfold releaseAll
  rw [bind_ok (getS_run s)]
  simp [State.at_, hc, hsq, hcomb, hun]

theorem State.sameMemory_trans (h : s.sameMemory t) (g : t.sameMemory u) : s.sameMemory u := by
  obtain ⟨hcore, hsvc, hhbm, hleg, hl2⟩ := h
  obtain ⟨gcore, gsvc, ghbm, gleg, gl2⟩ := g
  exact ⟨fun d => ⟨(gcore d).1.trans (hcore d).1, (gcore d).2.1.trans (hcore d).2.1, (gcore d).2.2.trans (hcore d).2.2⟩,
    fun n => ⟨(gsvc n).1.trans (hsvc n).1, (gsvc n).2.trans (hsvc n).2⟩, ghbm.trans hhbm, gleg.trans hleg, gl2.trans hl2⟩

theorem State.finish_icache (len : Len) (hc : s.cur = .slot c k) (d : Nat) :
    ((s.finish len).core d).icache = (s.core d).icache := by
  obtain ⟨f, g, e⟩ := State.finish_eq len hc
  by_cases hd : d = c
  · subst hd; simp [e]
  · simp [e, State.core_modCore_ne _ _ hd]

theorem State.finish_plb (len : Len) (hc : s.cur = .slot c k) (d : Nat) : ((s.finish len).core d).plb = (s.core d).plb := by
  obtain ⟨f, g, e⟩ := State.finish_eq len hc
  by_cases hd : d = c
  · subst hd; simp [e]
  · simp [e, State.core_modCore_ne _ _ hd]
end

/-! ### IBAR (R362) -/

/-- A core without its cached code, and without the errors that the code held. -/
def State.dropCode (s : State) (c : Nat) : State :=
  { s with poison := s.poison.filter (fun p => match p with | .code d _ => d != c | _ => true) }.modCore c
    (fun x => { x with icache := [] })

theorem State.dropCode_sameMemory (s : State) (c : Nat) : s.sameMemory (s.dropCode c) :=
  (State.near_modCore { s with poison := s.poison.filter (fun p => match p with | .code d _ => d != c | _ => true) } c _
    ⟨rfl, rfl, rfl, rfl⟩).sameMemory

theorem State.dropCode_slot (s : State) (c d j : Nat) : (s.dropCode c).slot d j = s.slot d j :=
  State.slot_modCore_keeps _ c _ rfl d j

theorem execIbar_ok {o : Op} {s : State} {c k : Nat} (h : s.calm c k) (hr : s.mayRun 0xF5 = true) (hg : s.thread.guardBit o = true) :
    execIbar o s = .next ((s.dropCode c).finish o.len) := by
  have hc : s.at_.1 = c := by simp [State.at_, h.1]
  rw [← hc]
  exact runScalar_finish hr hg ((bind_ok h.releaseAll_ok).trans ((bind_ok (getS_run s)).trans ((bind_ok (modS_run _ s)).trans
    (bind_ok (modS_run _ _)))))

/-! ### PLBINV (R360, R361) -/

theorem aget_map {α : Type} {d : α} {f : α → α} (hd : f d = d) (l : List (Nat × α)) (a : Nat) :
    aget d (l.map (fun e => (e.1, f e.2))) a = f (aget d l a) := by
  induction l with
  | nil => simp [aget, hd]
  | cons e r ih =>
    simp only [List.map_cons, aget]
    split
    · rfl
    · exact ih

/-- Whether an entry outlives the removal of a scope (R360). -/
def InvScope.keeps (x : InvScope) (e : PlbEntry) : Bool :=
  match x with
  | .page lo n d => !(e.dom == d && e.covers d lo || e.dom == d && inSpan lo n (e.page * 2 ^ 16))
  | .dom d => e.dom != d
  | .all => false

theorem State.invalidate_cores (s : State) (x : InvScope) (xlat : Bool) :
    (s.invalidate x xlat).cores = s.cores.map (fun e => (e.1, { e.2 with plb := e.2.plb.filter x.keeps })) := by
  cases x <;> cases xlat <;> rfl

theorem State.invalidate_core (s : State) (x : InvScope) (xlat : Bool) (d : Nat) :
    (s.invalidate x xlat).core d = { s.core d with plb := (s.core d).plb.filter x.keeps } := by
  rw [State.core, State.invalidate_cores]
  exact aget_map (d := {}) (f := fun y => { y with plb := y.plb.filter x.keeps }) rfl s.cores d

/-- Only translations are removed: what is held outside cores and translations stays. -/
theorem State.invalidate_rest (s : State) (x : InvScope) (xlat : Bool) :
    (s.invalidate x xlat).svcs = s.svcs ∧ (s.invalidate x xlat).hbm = s.hbm ∧ (s.invalidate x xlat).hbmLeg = s.hbmLeg ∧
      (s.invalidate x xlat).l2 = s.l2 ∧ (s.invalidate x xlat).cur = s.cur := by
  cases xlat <;> exact ⟨rfl, rfl, rfl, rfl, rfl⟩

theorem State.invalidate_sameMemory (s : State) (x : InvScope) (xlat : Bool) : s.sameMemory (s.invalidate x xlat) := by
  obtain ⟨hsvc, hhbm, hleg, hl2, -⟩ := s.invalidate_rest x xlat
  refine ⟨fun d => ?_, fun n => ?_, hhbm, hleg, hl2⟩
  · rw [State.invalidate_core]
    exact ⟨rfl, rfl, rfl⟩
  · rw [State.svc, hsvc]
    exact ⟨rfl, rfl⟩

theorem State.invalidate_rowsUnder (s : State) (x y : InvScope) (xlat : Bool) : (s.invalidate x xlat).rowsUnder y = s.rowsUnder y := by
  rw [State.rowsUnder, (s.invalidate_rest x xlat).1]
  rfl

/-- With no line in the slices there is none of a page to write back. -/
theorem State.flushPage_nil {s : State} (h : s.l2 = []) (lo n : Nat) : s.flushPage lo n = s := by
  simp [State.flushPage, h]

/-- An SVC whose row access met a MOVING leaf of a scope is to walk again (R358). -/
def InvScope.unmark (x : InvScope) (v : Svc) : Svc :=
  if v.moving.any (fun a => match x with | .page lo n _ => inSpan lo n a | _ => true) then { v with moving := none } else v

theorem State.walkAgain_svc (s : State) (x : InvScope) (n : Nat) : (s.walkAgain x).svc n = x.unmark (s.svc n) := by
  have hsvcs : (s.walkAgain x).svcs = s.svcs.map (fun e => (e.1, x.unmark e.2)) := by cases x <;> rfl
  rw [State.svc, hsvcs]
  exact aget_map (d := {}) (f := x.unmark) rfl s.svcs n

/-- Walks and MOVING marks are no memory. -/
theorem State.walkAgain_sameMemory (s : State) (x : InvScope) : s.sameMemory (s.walkAgain x) := by
  refine ⟨fun _ => ⟨rfl, rfl, rfl⟩, fun n => ?_, rfl, rfl, rfl⟩
  rw [State.walkAgain_svc, InvScope.unmark]
  split <;> exact ⟨rfl, rfl⟩

/-- The page of an address lies in its 32 MiB and holds its 64 KiB (R355, R357). -/
theorem State.pageOf_bounds (s : State) (a dom : Nat) : (s.pageOf a dom).1 / 2 ^ 25 = a / 2 ^ 25 ∧
    (s.pageOf a dom).1 ≤ a / 2 ^ 16 * 2 ^ 16 ∧ a / 2 ^ 16 * 2 ^ 16 < (s.pageOf a dom).1 + (s.pageOf a dom).2 := by
  have hp : s.pageOf a dom = (a / 2 ^ 25 * 2 ^ 25, 2 ^ 25) ∨ s.pageOf a dom = (a / 2 ^ 16 * 2 ^ 16, 2 ^ 16) := by
    unfold State.pageOf
    exact ite_eq_or_eq _ _ _
  rcases hp with hp | hp <;> rw [hp] <;> dsimp only <;> omega

/-- No entry that covers the address in the domain outlives the removal of its page: one of 32 MiB covers the start of the page
too, and one of 64 KiB lies in it (R360). -/
theorem keeps_page_covers {s : State} {a dom : Nat} {e : PlbEntry}
    (h : (InvScope.page (s.pageOf a dom).1 (s.pageOf a dom).2 dom).keeps e = true) : e.covers dom a = false := by
  by_contra hcov
  obtain ⟨hbig, hlo, hhi⟩ := s.pageOf_bounds a dom
  simp only [PlbEntry.covers, Bool.not_eq_false, Bool.and_eq_true, beq_iff_eq] at hcov
  obtain ⟨hdom, hpage⟩ := hcov
  simp only [InvScope.keeps, PlbEntry.covers, inSpan, hdom, hbig, BEq.rfl, Bool.true_and] at h
  cases hb : e.big with
  | true =>
    simp only [hb, if_true, beq_iff_eq] at hpage
    simp [hb, hpage] at h
  | false =>
    simp only [hb, Bool.false_eq_true, if_false, beq_iff_eq] at hpage
    simp only [hpage, hlo, hhi] at h
    simp at h

/-- The scope that M names, of the page, the domain, or all (R360). -/
def invScope (mode : Nat) (page : Nat × Nat) (dom : Nat) : InvScope :=
  match mode with
  | 0 => .page page.1 page.2 dom
  | 1 => .dom dom
  | _ => .all

/-- The state that a PLBINV with nothing to wait for leaves, before it retires. -/
def State.removed (s : State) (x : InvScope) (xlat : Bool) : State :=
  if xlat then (s.invalidate x xlat).walkAgain x else s.invalidate x xlat

theorem State.removed_sameMemory (s : State) (x : InvScope) (xlat : Bool) : s.sameMemory (s.removed x xlat) := by
  unfold State.removed
  split
  · exact State.sameMemory_trans (s.invalidate_sameMemory x xlat) (State.walkAgain_sameMemory _ x)
  · exact s.invalidate_sameMemory x xlat

theorem State.removed_core (s : State) (x : InvScope) (xlat : Bool) (d : Nat) :
    (s.removed x xlat).core d = { s.core d with plb := (s.core d).plb.filter x.keeps } := by
  rw [← s.invalidate_core x xlat]
  cases xlat <;> rfl

theorem State.removed_slot (s : State) (x : InvScope) (xlat : Bool) (c k : Nat) : (s.removed x xlat).slot c k = s.slot c k := by
  rw [State.slot, State.removed_core]
  rfl

theorem State.removed_cur (s : State) (x : InvScope) (xlat : Bool) : (s.removed x xlat).cur = s.cur := by
  cases xlat <;> rfl

section
variable {o : Op} {s : State} {c k : Nat} {a b : BitVec 64} (hr : s.mayRun 0xF4 = true) (hg : s.thread.guardBit o = true)
  (ha : rdReg o.a s = .ok (a, s)) (hb : rdReg o.b s = .ok (b, s))

include hr hg ha hb

/-- An address or a domain out of range (R360). -/
theorem execPlbinv_illegal (h : 2 ^ 56 ≤ a.toNat ∨ 2 ^ 12 ≤ b.toNat) :
    execPlbinv o s = .next (s.trapCur .illegal (packWord0 0xF4 o)) := by
  refine runScalar_trap hr hg ?_
  rw [bind_ok ha, bind_ok hb, if_pos (by simpa using h), raise_run]

theorem execPlbinv_ok (hcalm : s.calm c k) (hal : a.toNat < 2 ^ 56) (hbl : b.toNat < 2 ^ 12)
    (hacc : ∀ x b, (s.invalidate x b).accessesUnder x = false) (hrow : o.m.getLsbD 2 = true → ∀ x, s.rowsUnder x = false)
    (hl2 : o.m.getLsbD 3 = true → s.l2 = []) :
    execPlbinv o s = .next ((s.removed (invScope (o.m.toNat % 4) (s.pageOf a.toNat b.toNat) b.toNat) (o.m.getLsbD 2)).finish
      o.len) := by
  have hrange : ¬(decide (2 ^ 56 ≤ a.toNat) || decide (2 ^ 12 ≤ b.toNat)) = true := by
    simp only [Bool.or_eq_true, decide_eq_true_eq]
    omega
  have hinv : ∀ x, (s.invalidate x (o.m.getLsbD 2)).l2 = s.l2 := fun x => (s.invalidate_rest x _).2.2.2.1
  have hflush : ∀ x lo n, (if o.m.getLsbD 3 = true then (s.invalidate x (o.m.getLsbD 2)).flushPage lo n
      else s.invalidate x (o.m.getLsbD 2)) = s.invalidate x (o.m.getLsbD 2) := fun x lo n =>
    ite_eq_right_iff.mpr fun h => State.flushPage_nil ((hinv x).trans (hl2 h)) lo n
  have hrows : ∀ x, (o.m.getLsbD 2 && s.rowsUnder x) = false := fun x => by
    cases h : o.m.getLsbD 2 with
    | false => rfl
    | true => exact hrow h x
  have hlines : ∀ p, (o.m.getLsbD 3 && s.l2.any p) = false := fun p => by
    cases h : o.m.getLsbD 3 with
    | false => rfl
    | true => rw [hl2 h]; rfl
  refine runScalar_finish hr hg ?_
  rw [bind_ok ha, bind_ok hb, if_neg hrange, bind_ok hcalm.releaseAll_ok, bind_ok (getS_run s)]
  simp only [hflush, hacc, State.invalidate_rowsUnder, hinv, hrows, hlines, Bool.or_false, Bool.false_eq_true, if_false]
  exact bind_ok (modS_run _ s)
end

/-- What PLBINV leaves in the PLBs, mode by mode (R360). -/
theorem invScope_keeps {s : State} {mode a dom : Nat} {l : List PlbEntry} :
    match mode with
    | 0 => ∀ e ∈ l.filter (invScope mode (s.pageOf a dom) dom).keeps, e ∈ l ∧ e.covers dom a = false
    | 1 => l.filter (invScope mode (s.pageOf a dom) dom).keeps = l.filter (fun e => e.dom != dom)
    | _ => l.filter (invScope mode (s.pageOf a dom) dom).keeps = [] := by
  match mode with
  | 0 => exact fun e he => ⟨(List.mem_filter.mp he).1, keeps_page_covers (List.mem_filter.mp he).2⟩
  | 1 => rfl
  | _ + 2 => exact List.filter_false l

end Sys2Proof.Machine

open Sys2Proof.Machine

/-- Settles O48: an access to FPCTL waits for owed flags; IBAR and PLBINV wait for the slot's stores and then only remove cached
code, PLB entries and translations. That a PLBINV does not wait for accesses which a MOVING page holds is log entry 28 (DESIGN
CHOICE, from R363). -/
theorem systemInstructions : Obligations.SystemInstructions := by
  unfold Obligations.SystemInstructions
  simp only [← Thread.fpctl_eq]
  refine ⟨fun o s s1 t a hg => ⟨fun h hd => ?cyc, fun h hf hd => ?fget, fun h hf ha hd => ?fclr⟩,
    fun o s c k hc hg h hs => execFget_owed hc hg h hs,
    fun o s c k a b hcalm hg => ⟨fun h => ?ibar, fun h ha hb => ⟨fun hbad => ?illegal, fun hal hbl hacc hrow hl2 => ?plbinv⟩⟩⟩
  case cyc => exact runScalar_finish h hg ((bind_ok (getS_run s)).trans (dstX_next hd))
  case fget => exact execFget_ok h hg hf hd
  case fclr => exact execFclr_thread h hg hf ha hd
  case ibar =>
    have hc : (s.dropCode c).cur = .slot c k := hcalm.1
    refine ⟨_, execIbar_ok hcalm h hg, ?_, ?_, ?_⟩
    · rw [State.finish_icache _ hc]
      simp [State.dropCode]
    · exact State.sameMemory_trans (s.dropCode_sameMemory c) (State.finish_frame _ _ hc).1
    · rw [State.finish_thread _ hc hcalm.2.1, State.dropCode_slot]
      simp [State.thread, hcalm.1]
  case illegal => exact execPlbinv_illegal h hg ha hb hbad
  case plbinv =>
    have hc : (s.removed (invScope (o.m.toNat % 4) (s.pageOf a.toNat b.toNat) b.toNat) (o.m.getLsbD 2)).cur = .slot c k :=
      (s.removed_cur _ _).trans hcalm.1
    refine ⟨_, execPlbinv_ok h hg ha hb hcalm hal hbl hacc hrow hl2, ?_, ?_, fun d => ?_⟩
    · exact State.sameMemory_trans (s.removed_sameMemory _ _) (State.finish_frame _ _ hc).1
    · rw [State.finish_thread _ hc hcalm.2.1, State.removed_slot]
      simp [State.thread, hcalm.1]
    · rw [State.finish_plb _ hc, State.removed_core]
      exact invScope_keeps
end

section
/-! Lanes (R101-R105): the lanes of a vector value by number, what a lane instruction writes of its results and flags, and the sources
that it reads. -/

open Sys2Proof

namespace Sys2Proof.Machine

/-! ### Lanes by number (R101) -/

theorem laneAt_toNat (w v i : Nat) : (laneAt w v i).toNat = v / 2 ^ (w * i) % 2 ^ w := BitVec.toNat_ofNat ..

/-- The lanes of a value are its lanes 0 to n - 1 in order. -/
theorem lanes_eq_map (w v n : Nat) : lanes w v n = (List.range n).map (fun i => (laneAt w v i).toNat) := by
  induction n generalizing v with
  | zero => rfl
  | succ n ih =>
    rw [lanes, ih, List.range_succ_eq_map, List.map_cons, List.map_map]
    congr 1
    · simp [laneAt_toNat]
    · refine List.map_congr_left fun i _ => ?_
      simp only [Function.comp_apply, laneAt_toNat, Nat.div_div_eq_div_mul, ← pow_add, Nat.succ_eq_add_one, Nat.mul_add, Nat.mul_one,
        Nat.add_comm w]

theorem lget_map_range {α : Type} (d : α) (f : Nat → α) (n i : Nat) : lget d ((List.range n).map f) i = if i < n then f i else d := by
  unfold lget
  split
  · next h => simp [h]
  · next h => simp [h]

/-- A type that names no lane width has no lanes. -/
theorem laneWidth_pos_of_lt {p : Profile} {t i : Nat} (h : i < lanesOf p t) : 0 < laneWidth t := by
  by_contra hw
  rw [lanesOf, Nat.eq_zero_of_not_pos hw, Nat.div_zero] at h
  exact Nat.not_lt_zero i h

theorem laneMask_eq_map (t : Thread) (o : Op) (l : Nat) :
    t.laneMask o l = (List.range l).map (fun i => lget false (t.laneMask o l) i) := by
  refine List.map_congr_left fun i hi => ?_
  rw [Thread.laneMask, lget_map_range, if_pos (List.mem_range.mp hi)]

/-! ### What of the results is written (R102, R105) -/

/-- A lane takes the low bits of its result. -/
theorem packLanes_mod (w : Nat) (ls : List Nat) : packLanes w (ls.map (· % 2 ^ w)) = packLanes w ls := by
  induction ls with
  | nil => rfl
  | cons l ls ih => simp only [List.map_cons, packLanes, ih, Nat.mod_mod]

theorem packLanes_mergeLanes_mod (w : Nat) (mask : List Bool) (new old : List Nat) :
    packLanes w (mergeLanes mask (new.map (· % 2 ^ w)) old) = packLanes w (mergeLanes mask new old) := by
  induction mask generalizing new old with
  | nil => simp [mergeLanes]
  | cons m ms ih =>
    match m, new, old with
    | _, [], _ => rfl
    | _, _ :: _, [] => simp [mergeLanes]
    | true, n :: ns, o :: os => simp only [List.map_cons, mergeLanes, packLanes, ih, Nat.mod_mod]
    | false, n :: ns, o :: os => simp only [List.map_cons, mergeLanes, packLanes, ih]

theorem dstLanes_mod (d : Opd) (w : Nat) (mask : List Bool) (new : List Nat) :
    dstLanes d w mask (new.map (· % 2 ^ w)) = dstLanes d w mask new := by
  simp only [dstLanes, packLanes_mod, packLanes_mergeLanes_mod]

/-- The flags of a lane instruction are those of its results, lane by lane. -/
theorem laneFlags_eq (mask : List Bool) (rs : List (Nat × Flags)) :
    laneFlags mask rs = ((mask.zip (rs.map Prod.snd)).filter Prod.fst).foldl (fun f x => f ||| x.2) 0 := by
  rw [laneFlags, List.zip_map_right, List.filter_map, List.foldl_map]
  rfl

/-- Two results that a lane of width w cannot tell apart. -/
def sameLane (w : Nat) (x y : Nat × Flags) : Prop := x.1 % 2 ^ w = y.1 % 2 ^ w ∧ x.2 = y.2

theorem sameLane.of_eq {w : Nat} {x y : Nat × Flags} (h : x = y) : sameLane w x y := h ▸ ⟨rfl, rfl⟩

section
variable {o : Op} {mask : List Bool} {s t : State} {l : Nat} {f g : Nat → Nat × Flags}

theorem dstLanes_next {d : Opd} {w : Nat} {new : List Nat} (h : dstLanes d w mask new s = .ok ((), t)) :
    (dstLanes d w mask new >>= fun _ => pure .next : M Flow) s = .ok (.next, t) := by
  rw [bind_ok h, pure_run]

/-- Results that lanes cannot tell apart have the same effect. -/
theorem dstLaneResults_next (h : ∀ i < l, sameLane (laneWidth o.t.toNat) (f i) (g i))
    (hd : dstLanes o.d (laneWidth o.t.toNat) mask (((List.range l).map g).map Prod.fst)
      (s.modThread (·.orFlags (laneFlags mask ((List.range l).map g)))) = .ok ((), t)) :
    dstLaneResults o mask ((List.range l).map f) s = .ok (.next, t) := by
  have hsnd : ((List.range l).map f).map Prod.snd = ((List.range l).map g).map Prod.snd := by
    simp only [List.map_map]
    exact List.map_congr_left fun i hi => (h i (List.mem_range.mp hi)).2
  have hflags : laneFlags mask ((List.range l).map f) = laneFlags mask ((List.range l).map g) := by
    rw [laneFlags_eq, hsnd, ← laneFlags_eq]
  have hvals : dstLanes o.d (laneWidth o.t.toNat) mask (((List.range l).map f).map Prod.fst) =
      dstLanes o.d (laneWidth o.t.toNat) mask (((List.range l).map g).map Prod.fst) := by
    rw [← dstLanes_mod _ _ _ (((List.range l).map f).map Prod.fst), ← dstLanes_mod _ _ _ (((List.range l).map g).map Prod.fst)]
    simp only [List.map_map]
    congr 1
    exact List.map_congr_left fun i hi => (h i (List.mem_range.mp hi)).1
  rw [dstLaneResults, bind_ok (setFlags_run _ s), hflags, hvals]
  exact dstLanes_next hd
end

/-! ### Sources (R20, R103) -/

/-- The agent is the same with the same thread and the same errors in its p registers. -/
def State.sameAgent (s t : State) : Prop := t.cur = s.cur ∧ t.thread = s.thread ∧ ∀ n, t.maskError n = s.maskError n

theorem State.sameAgent_refl (s : State) : s.sameAgent s := ⟨rfl, rfl, fun _ => rfl⟩

theorem State.sameAgent_trans {s t u : State} (h : s.sameAgent t) (g : t.sameAgent u) : s.sameAgent u :=
  ⟨g.1.trans h.1, g.2.1.trans h.2.1, fun n => (g.2.2 n).trans (h.2.2 n)⟩

/-- An update of a core that keeps its slots. -/
theorem State.sameAgent_modCore (s : State) (c : Nat) {f : Core → Core} (h : (f (s.core c)).slots = (s.core c).slots) :
    s.sameAgent (s.modCore c f) := by
  have hslot : ∀ d j, (s.modCore c f).slot d j = s.slot d j := State.slot_modCore_keeps s c f h
  refine ⟨rfl, ?_, fun n => ?_⟩
  · simp only [State.thread, State.modCore_cur, hslot, State.svc_modCore]
  · unfold State.maskError
    rw [State.modCore_cur]
    split
    · rfl
    · split
      · rfl
      · rw [hslot]

theorem popQueue_sameAgent {q : Nat} {s t : State} {e : BitVec 256} (h : popQueue q s = .ok (e, t)) : s.sameAgent t := by
  obtain ⟨-, r, -, rfl⟩ := popQueue_cases h
  exact s.sameAgent_modCore _ rfl

theorem popChannel_sameAgent {i : Nat} {s t : State} {e : BitVec 256} (h : popChannel i s = .ok (e, t)) : s.sameAgent t := by
  obtain ⟨-, -, -, rfl⟩ := popChannel_cases h
  exact s.sameAgent_modCore _ rfl

theorem srcX_sameAgent {imm : BitVec 64} {d : Opd} {s t : State} {a : BitVec 64} (h : srcX imm d s = .ok (a, t)) : s.sameAgent t := by
  rcases srcX_cases h with ⟨n, -, rfl, -⟩ | ⟨q, e, r, -, -, -, -, rfl⟩ | ⟨ch, e, -, hp, -⟩ | ⟨-, -, -, rfl, -⟩
  · exact State.sameAgent_refl _
  · exact s.sameAgent_modCore _ rfl
  · exact popChannel_sameAgent hp
  · exact State.sameAgent_refl _

/-- What a v source answers: a register, the head of a queue or a channel, or the immediate in every lane. -/
theorem srcV_cases {w : Nat} {imm : BitVec 64} {d : Opd} {s t : State} {a : Nat} (h : srcV w imm d s = .ok (a, t)) :
    (∃ n, rdV n s = .ok (a, t)) ∨ (∃ q e, popQueue q s = .ok (e, t) ∧ a = e.toNat) ∨
      (∃ i e, popChannel i s = .ok (e, t) ∧ a = e.toNat) ∨ (t = s ∧ a = repLanes w imm.toNat (vWidth s.prof / w)) := by
  cases d with
  | reg n => exact .inl ⟨n.val, h⟩
  | queue q =>
    obtain ⟨e, s1, h1, h2⟩ := bind_cases h
    simp only [pure_run, Except.ok.injEq, Prod.mk.injEq] at h2
    exact .inr (.inl ⟨q.val, e, h2.2 ▸ h1, h2.1.symm⟩)
  | chan i =>
    obtain ⟨e, s1, h1, h2⟩ := bind_cases h
    simp only [pure_run, Except.ok.injEq, Prod.mk.injEq] at h2
    exact .inr (.inr (.inl ⟨i.val, e, h2.2 ▸ h1, h2.1.symm⟩))
  | _ =>
    simp only [srcV, Except.ok.injEq, Prod.mk.injEq] at h
    exact .inr (.inr (.inr ⟨h.2.symm, h.1.symm⟩))

theorem srcV_sameAgent {w : Nat} {imm : BitVec 64} {d : Opd} {s t : State} {a : Nat} (h : srcV w imm d s = .ok (a, t)) :
    s.sameAgent t := by
  rcases srcV_cases h with ⟨n, hr⟩ | ⟨q, e, hp, -⟩ | ⟨i, e, hp, -⟩ | ⟨rfl, -⟩
  · rw [(rdV_cases hr).1]; exact State.sameAgent_refl s
  · exact popQueue_sameAgent hp
  · exact popChannel_sameAgent hp
  · exact State.sameAgent_refl _

/-! ### How a lane instruction completes -/

/-- A lane instruction whose body goes on to the following instruction. -/
theorem runLanes_finish {code : Nat} {o : Op} {body : M Flow} {s t : State} (h : s.mayRun code = true) (hb : body s = .ok (.next, t)) :
    runLanes code o body s = .next (t.finish o.len) :=
  (runLanes_ok h hb).trans rfl

end Sys2Proof.Machine
end

section
/-! Lane-wise results (R105-R111, R119): the number that each operation gives is that of its operation on lanes of w bits; how these
instructions complete; and the bits of a comparison. -/

open Sys2Proof

namespace Sys2Proof.Machine

/-! ### Results of one lane (R107, R108, R119) -/

theorem beq_toNat_eq {n : Nat} (x y : BitVec n) : (x.toNat == y.toNat) = (x == y) := by
  rw [Bool.eq_iff_iff, beq_iff_eq, beq_iff_eq, BitVec.toNat_inj]

section
variable {w : Nat} (hw : 0 < w) (x y : BitVec w)

theorem sameLane_of_mod {v : Nat} {r : BitVec w} (fl : Flags) (h : v % 2 ^ w = r.toNat) : sameLane w (v, fl) (r.toNat, fl) :=
  ⟨by rw [h, BitVec.toNat_mod_cancel], rfl⟩

/-- The integer of a lane, read as signed or as unsigned. -/
theorem laneInt_toNat (hw : 0 < w) (uns : Bool) (x : BitVec w) : laneInt w uns x.toNat = laneVal uns x := by
  cases uns with
  | true => simp [laneInt, laneVal]
  | false => simp [laneInt, laneVal, toSigned_toNat hw]

theorem ofInt_toInt_sub (x y : BitVec w) : BitVec.ofInt w (x.toInt - y.toInt) = x - y := by
  apply BitVec.eq_of_toInt_eq
  rw [BitVec.toInt_ofInt, BitVec.toInt_sub]

theorem laneVal_inj {uns : Bool} (h : laneVal uns x = laneVal uns y) : x = y := by
  cases uns with
  | true => exact BitVec.eq_of_toNat_eq (Int.ofNat_inj.mp h)
  | false => exact BitVec.eq_of_toInt_eq h

/-- Clamping to a lane's range, in the words of R108. -/
theorem clampInt_eq_satLane (uns : Bool) (i : Int) : clampInt w uns i = satLane w uns i := by
  have hhalf : (0 : Int) < 2 ^ (w - 1) := by positivity
  have hfull : (0 : Int) < 2 ^ w := by positivity
  unfold clampInt satLane
  simp only [ofInt_eq_toNat, Nat.cast_pow, Nat.cast_ofNat]
  generalize hlo : (if uns then (0 : Int) else -2 ^ (w - 1)) = lo
  generalize hhi : (if uns then (2 : Int) ^ w - 1 else 2 ^ (w - 1) - 1) = hi
  have hle : lo ≤ hi := by
    subst hlo hhi
    cases uns
    · simp only [Bool.false_eq_true, if_false]; omega
    · simp only [if_true]; omega
  by_cases h1 : i < lo
  · rw [if_pos h1, min_eq_right (by omega), max_eq_left (by omega), if_neg (by omega)]
  · by_cases h2 : hi < i
    · rw [if_neg h1, if_pos h2, min_eq_left (by omega), max_eq_right (by omega), if_neg (by omega)]
    · rw [if_neg h1, if_neg h2, min_eq_right (by omega), max_eq_right (by omega), if_pos (by omega)]

include hw in
/-- VADD and VSUB wrap, or clamp the exact sum (R107, R108). -/
theorem laneSum_eq (sub : Bool) (m : BitVec 4) : laneSum sub m.toNat w x.toNat y.toNat =
    if m = 0 then ((if sub then x - y else x + y).toNat, 0)
    else satLane w (m == 2) (if sub then laneVal (m == 2) x - laneVal (m == 2) y else laneVal (m == 2) x + laneVal (m == 2) y) := by
  have h0 : (m.toNat == 0) = (m == 0) := beq_toNat_eq m 0
  have h2 : (m.toNat == 2) = (m == 2) := beq_toNat_eq m 2
  simp only [laneSum, h0, h2, laneInt_toNat hw, clampInt_eq_satLane, beq_iff_eq]
  split
  · next hm =>
    subst hm
    cases sub <;> simp [laneVal, ofInt_eq_toNat, BitVec.ofInt_add, ofInt_toInt_sub, -BitVec.toNat_ofInt]
  · rfl

include hw in
theorem laneMulh_eq (m : BitVec 4) :
    laneMulh m.toNat w x.toNat y.toNat % 2 ^ w = (if m = 1 then specMulhn w x y else specMulh w x y).toNat := by
  have h1 : (m.toNat == 1) = (m == 1) := beq_toNat_eq m 1
  rw [laneMulh, h1]
  by_cases hm : m = 1
  · have hxy : x.toNat * y.toNat < 2 ^ (2 * w) := by
      rw [two_mul, pow_add]
      exact Nat.mul_lt_mul'' x.isLt y.isLt
    rw [if_pos hm, ← aluMulhn_eq, aluMulhn, hm, BEq.rfl, laneInt_toNat hw, laneInt_toNat hw, ofInt]
    simp only [laneVal, if_true]
    norm_cast
    rw [Nat.mod_eq_of_lt hxy]
  · rw [if_neg hm, ← aluMulh_eq hw, aluMulh, beq_eq_false_iff_ne.mpr hm, laneInt, laneInt]
    rfl

include hw in
theorem laneMin_eq (m : BitVec 4) :
    laneMinMax false m.toNat w x.toNat y.toNat % 2 ^ w = (if laneVal (m == 1) y < laneVal (m == 1) x then y else x).toNat := by
  have h1 : (m.toNat == 1) = (m == 1) := beq_toNat_eq m 1
  simp only [laneMinMax, h1, laneInt_toNat hw, beq_false, Bool.not_eq_true', decide_eq_false_iff_not, ite_not,
    ← apply_ite BitVec.toNat, BitVec.toNat_mod_cancel]
  rcases lt_trichotomy (laneVal (m == 1) x) (laneVal (m == 1) y) with hlt | heq | hgt
  · rw [if_pos hlt, if_neg hlt.not_gt]
  · rw [laneVal_inj x y heq, if_neg (lt_irrefl _)]
  · rw [if_neg hgt.not_gt, if_pos hgt]

include hw in
theorem laneMax_eq (m : BitVec 4) :
    laneMinMax true m.toNat w x.toNat y.toNat % 2 ^ w = (if laneVal (m == 1) x < laneVal (m == 1) y then y else x).toNat := by
  have h1 : (m.toNat == 1) = (m == 1) := beq_toNat_eq m 1
  simp only [laneMinMax, h1, laneInt_toNat hw, beq_true, decide_eq_true_eq, ← apply_ite BitVec.toNat,
    BitVec.toNat_mod_cancel]

theorem toNat_abs_eq_natAbs : x.abs.toNat = x.toInt.natAbs := by
  have := x.isLt
  rw [BitVec.toNat_abs, BitVec.toInt_eq_msb_cond]
  split <;> omega

end

/-! ### The tables of R107 to R110 -/

/-- An operation on numbers gives, at every lane width, what an operation on lanes gives. -/
def ComputesLane1 (f : Nat → Nat → Nat → Nat × Flags) (g : (w : Nat) → Nat → BitVec w → Nat × Flags) : Prop :=
  ∀ w, 0 < w → ∀ (rm : Nat) (x : BitVec w), sameLane w (f w rm x.toNat) (g w rm x)

def ComputesLane2 (f : Nat → Nat → Nat → Nat → Nat × Flags) (g : (w : Nat) → Nat → BitVec w → BitVec w → Nat × Flags) : Prop :=
  ∀ w, 0 < w → ∀ (rm : Nat) (x y : BitVec w), sameLane w (f w rm x.toNat y.toNat) (g w rm x y)

theorem laneTable1_computes : ∀ e ∈ laneTable1, ∀ o, ∃ f, ComputesLane1 f (e.2.2 o) ∧ ∀ s, exec (e.1 o) s = laneOp1 e.2.1 o f s := by
  simp only [laneTable1, List.forall_mem_cons, List.not_mem_nil, IsEmpty.forall_iff, implies_true, and_true]
  refine ⟨fun o => ⟨fun w _ a => (if 4 ≤ o.t.toNat then a % 2 ^ (w - 1) else (toSigned w a).natAbs, 0),
      fun w hw _ x => ?vabs, fun _ => rfl⟩,
    fun o => ⟨fun _ => fpSqrt (fmtOf o.t.toNat), fun _ _ _ _ => .of_eq rfl, fun _ => rfl⟩,
    fun o => ⟨fun _ _ => fpExp2 (fmtOf o.t.toNat), fun _ _ _ _ => .of_eq rfl, fun _ => rfl⟩,
    fun o => ⟨fun _ _ => fpLog2 (fmtOf o.t.toNat), fun _ _ _ _ => .of_eq rfl, fun _ => rfl⟩,
    fun o => ⟨fun _ _ => fpRcp (fmtOf o.t.toNat), fun _ _ _ _ => .of_eq rfl, fun _ => rfl⟩,
    fun o => ⟨fun _ _ => fpRsq (fmtOf o.t.toNat), fun _ _ _ _ => .of_eq rfl, fun _ => rfl⟩,
    fun o => ⟨fun w _ a => (popCount a w, 0), fun _ _ _ x => .of_eq (congrArg (·, 0) (popCount_eq x.toNat _)), fun _ => rfl⟩⟩
  case vabs =>
    simp only [toSigned_toNat hw, ← toNat_abs_eq_natAbs, ← not_lt (b := 4), ite_not]
    exact .of_eq rfl

theorem laneTable2_computes : ∀ e ∈ laneTable2, ∀ o, ∃ f, ComputesLane2 f (e.2.2 o) ∧ ∀ s, exec (e.1 o) s = laneOp2 e.2.1 o f s := by
  simp only [laneTable2, List.forall_mem_cons, List.not_mem_nil, IsEmpty.forall_iff, implies_true, and_true]
  exact ⟨fun o => ⟨fun w _ => laneSum false o.m.toNat w, fun _ hw _ x y => .of_eq (laneSum_eq hw x y false o.m), fun _ => rfl⟩,
    fun o => ⟨fun w _ => laneSum true o.m.toNat w, fun _ hw _ x y => .of_eq (laneSum_eq hw x y true o.m), fun _ => rfl⟩,
    fun o => ⟨fun w _ a b => (aluMul w a b, 0), fun _ _ _ x y => sameLane_of_mod 0 (aluMul_eq x y), fun _ => rfl⟩,
    fun o => ⟨fun w _ a b => (laneMulh o.m.toNat w a b, 0), fun _ hw _ x y => sameLane_of_mod 0 (laneMulh_eq hw x y o.m), fun _ => rfl⟩,
    fun o => ⟨fun w _ a b => (aluAnd w a b, 0), fun _ _ _ x y => sameLane_of_mod 0 (aluAnd_eq x y), fun _ => rfl⟩,
    fun o => ⟨fun w _ a b => (aluOr w a b, 0), fun _ _ _ x y => sameLane_of_mod 0 (aluOr_eq x y), fun _ => rfl⟩,
    fun o => ⟨fun w _ a b => (aluXor w a b, 0), fun _ _ _ x y => sameLane_of_mod 0 (aluXor_eq x y), fun _ => rfl⟩,
    fun o => ⟨fun w _ a b => (aluShl w a b, 0), fun _ _ _ x y => sameLane_of_mod 0 (aluShl_eq x y), fun _ => rfl⟩,
    fun o => ⟨fun w _ a b => (aluShr w a b, 0), fun _ _ _ x y => sameLane_of_mod 0 (aluShr_eq x y), fun _ => rfl⟩,
    fun o => ⟨fun w _ a b => (aluSra w a b, 0), fun _ hw _ x y => sameLane_of_mod 0 (aluSra_eq hw x y), fun _ => rfl⟩,
    fun o => ⟨fun w _ a b => (laneMinMax false o.m.toNat w a b, 0), fun _ hw _ x y => sameLane_of_mod 0 (laneMin_eq hw x y o.m), fun _ => rfl⟩,
    fun o => ⟨fun w _ a b => (laneMinMax true o.m.toNat w a b, 0), fun _ hw _ x y => sameLane_of_mod 0 (laneMax_eq hw x y o.m), fun _ => rfl⟩,
    fun o => ⟨fun _ => fpAdd (fmtOf o.t.toNat), fun _ _ _ _ _ => .of_eq rfl, fun _ => rfl⟩,
    fun o => ⟨fun _ => fpSub (fmtOf o.t.toNat), fun _ _ _ _ _ => .of_eq rfl, fun _ => rfl⟩,
    fun o => ⟨fun _ => fpMul (fmtOf o.t.toNat), fun _ _ _ _ _ => .of_eq rfl, fun _ => rfl⟩,
    fun o => ⟨fun _ _ => fpMinMax (fmtOf o.t.toNat) false, fun _ _ _ _ _ => .of_eq rfl, fun _ => rfl⟩,
    fun o => ⟨fun _ _ => fpMinMax (fmtOf o.t.toNat) true, fun _ _ _ _ _ => .of_eq rfl, fun _ => rfl⟩,
    fun o => ⟨fun _ => fpDiv (fmtOf o.t.toNat), fun _ _ _ _ _ => .of_eq rfl, fun _ => rfl⟩⟩

/-! ### The bits of a comparison (R111) -/

theorem laneCmpTable_computes : ∀ e ∈ laneCmpTable, ∀ o, ∃ f : Nat → Nat → Nat → Bool × Flags,
    (∀ w, 0 < w → ∀ x y : BitVec w, f w x.toNat y.toNat = e.2.2 o w x y) ∧ ∀ s, exec (e.1 o) s = laneCmp e.2.1 o f s := by
  simp only [laneCmpTable, List.forall_mem_cons, List.not_mem_nil, IsEmpty.forall_iff, implies_true, and_true]
  refine ⟨fun o => ⟨fun w a b => (intCond w o.m.toNat a b, 0), fun w hw x y => ?vcmp, fun _ => rfl⟩,
    fun o => ⟨fun _ => fpCond (fmtOf o.t.toNat) o.m.toNat, fun _ _ _ _ => rfl, fun _ => rfl⟩⟩
  case vcmp => simp only [intCond_eq hw, BitVec.ofNat_toNat, BitVec.setWidth_eq]

/-- The mask with the bit of one lane written, where the lane is enabled. -/
def writeBit (p : BitVec 32) (x : (Bool × Bool × Flags) × Nat) : BitVec 32 :=
  if x.1.1 then (if x.1.2.1 then p ||| ((1 : BitVec 32) <<< x.2) else p &&& ~~~((1 : BitVec 32) <<< x.2)) else p

theorem getLsbD_writeBit (p : BitVec 32) (x : (Bool × Bool × Flags) × Nat) {i : Nat} (hi : i < 32) :
    (writeBit p x).getLsbD i = if x.2 = i ∧ x.1.1 = true then x.1.2.1 else p.getLsbD i := by
  obtain ⟨⟨en, r, fl⟩, n⟩ := x
  by_cases hn : n = i
  · subst hn
    cases en <;> cases r <;> simp [writeBit, hi]
  · have : ¬ (i - n = 0 ∧ n ≤ i) := by omega
    cases en <;> cases r <;> simp [writeBit, hi, hn] <;> omega

/-- Writing lanes n, n + 1 and so on one after the other writes the bit of each enabled one. -/
theorem getLsbD_foldl_writeBit (xs : List (Bool × Bool × Flags)) (n : Nat) (p : BitVec 32) {i : Nat} (hi : i < 32) :
    ((xs.zipIdx n).foldl writeBit p).getLsbD i =
      if n ≤ i ∧ (lget (false, false, 0) xs (i - n)).1 = true then (lget (false, false, 0) xs (i - n)).2.1 else p.getLsbD i := by
  induction xs generalizing n p with
  | nil => simp [lget]
  | cons x xs ih =>
    rw [List.zipIdx_cons, List.foldl_cons, ih, getLsbD_writeBit p _ hi]
    rcases lt_trichotomy n i with h | h | h
    · obtain ⟨j, rfl⟩ := Nat.exists_eq_add_of_lt h
      simp [lget, Nat.add_assoc, show n + 1 ≤ n + (j + 1) by omega, show n + (j + 1) - (n + 1) = j by omega]
    · subst h
      simp [lget]
    · simp [show ¬ n + 1 ≤ i by omega, show ¬ n ≤ i by omega, show ¬ n = i by omega]

/-- What a mask destination holds before a comparison writes it: its register, or nothing in a queue entry. -/
def maskBefore (d : Opd) (t : Thread) : BitVec 32 := match d with | .reg n => t.getP n.val | _ => 0

theorem maskBefore_bit (d : Opd) (t : Thread) (i : Nat) :
    (maskBefore d t).getLsbD i = match d with | .reg n => (t.getP n.val).getLsbD i | _ => false := by
  cases d with
  | reg n => rfl
  | _ => exact BitVec.getLsbD_zero

/-! ### How these instructions complete -/

section
variable {code : Nat} {o : Op} {s s1 s2 s3 t : State} {a b c : Nat}

theorem laneCount_run (o : Op) (s : State) : laneCount o s = .ok (lanesOf s.prof o.t.toNat, s) := rfl

theorem laneOp1_computes {f : Nat → Nat → Nat → Nat × Flags} {g : (w : Nat) → Nat → BitVec w → Nat × Flags} (hf : ComputesLane1 f g)
    (h : s.mayRun code = true) (ha : srcV (laneWidth o.t.toNat) (immValue o) o.a s = .ok (a, s1))
    (hd : let w := laneWidth o.t.toNat
      let l := lanesOf s.prof o.t.toNat
      let rs := (List.range l).map (fun i => g w s.thread.rm.toNat (laneAt w a i))
      dstLanes o.d w (s.thread.laneMask o l) (rs.map Prod.fst) (s1.modThread (·.orFlags (laneFlags (s.thread.laneMask o l) rs))) =
        .ok ((), t)) :
    laneOp1 code o f s = .next (t.finish o.len) := by
  refine runLanes_finish h ((bind_ok (laneCount_run o s)).trans ((bind_ok (laneMaskM_run o _ s)).trans
    ((bind_ok (roundMode_run s)).trans ((bind_ok ha).trans ?_))))
  rw [lanes_eq_map, List.map_map]
  exact dstLaneResults_next (fun i hi => hf _ (laneWidth_pos_of_lt hi) _ _) hd

theorem laneOp2_computes {f : Nat → Nat → Nat → Nat → Nat × Flags} {g : (w : Nat) → Nat → BitVec w → BitVec w → Nat × Flags}
    (hf : ComputesLane2 f g) (h : s.mayRun code = true) (ha : srcV (laneWidth o.t.toNat) (immValue o) o.a s = .ok (a, s1))
    (hb : srcV (laneWidth o.t.toNat) (immValue o) o.b s1 = .ok (b, s2))
    (hd : let w := laneWidth o.t.toNat
      let l := lanesOf s.prof o.t.toNat
      let rs := (List.range l).map (fun i => g w s.thread.rm.toNat (laneAt w a i) (laneAt w b i))
      dstLanes o.d w (s.thread.laneMask o l) (rs.map Prod.fst) (s2.modThread (·.orFlags (laneFlags (s.thread.laneMask o l) rs))) =
        .ok ((), t)) :
    laneOp2 code o f s = .next (t.finish o.len) := by
  refine runLanes_finish h ((bind_ok (laneCount_run o s)).trans ((bind_ok (laneMaskM_run o _ s)).trans
    ((bind_ok (roundMode_run s)).trans ((bind_ok ha).trans ((bind_ok hb).trans ?_)))))
  rw [lanes_eq_map, lanes_eq_map, List.zip_map', List.map_map]
  exact dstLaneResults_next (fun i hi => hf _ (laneWidth_pos_of_lt hi) _ _ _) hd

theorem execVfma_ok (h : s.mayRun 0x90 = true) (ha : srcV (laneWidth o.t.toNat) (immValue o) o.a s = .ok (a, s1))
    (hb : srcV (laneWidth o.t.toNat) (immValue o) o.b s1 = .ok (b, s2))
    (hc : srcV (laneWidth o.t.toNat) (immValue o) o.c s2 = .ok (c, s3))
    (hd : let w := laneWidth o.t.toNat
      let l := lanesOf s.prof o.t.toNat
      let rs := (List.range l).map (fun i =>
        fpFma (fmtOf o.t.toNat) s.thread.rm.toNat (laneAt w a i).toNat (laneAt w b i).toNat (laneAt w c i).toNat)
      dstLanes o.d w (s.thread.laneMask o l) (rs.map Prod.fst) (s3.modThread (·.orFlags (laneFlags (s.thread.laneMask o l) rs))) =
        .ok ((), t)) :
    execVfma o s = .next (t.finish o.len) := by
  refine runLanes_finish h ((bind_ok (laneCount_run o s)).trans ((bind_ok (laneMaskM_run o _ s)).trans
    ((bind_ok (roundMode_run s)).trans ((bind_ok ha).trans ((bind_ok hb).trans ((bind_ok hc).trans ?_))))))
  rw [lanes_eq_map, lanes_eq_map, lanes_eq_map, List.zip_map', List.zip_map', List.map_map]
  exact dstLaneResults_next (fun _ _ => .of_eq rfl) hd

/-- What the mask destination holds is read where it is a register, which holds no error. -/
theorem readMask_bind (d : Opd) (k : BitVec 32 → M Flow) (h : ∀ n < 32, s.maskError n = none) :
    (match d with | .reg n => rdP n.val >>= k | _ => pure 0 >>= k) s = k (maskBefore d s.thread) s := by
  cases d with
  | reg n => exact bind_ok (rdP_ok (h n.val n.isLt))
  | _ => exact bind_ok (pure_run 0 s)

/-- A comparison leaves in D the bit of each enabled lane, and every other bit as it was. -/
theorem laneCmp_ok {f : Nat → Nat → Nat → Bool × Flags} {g : Nat → Bool × Flags} {bits : BitVec 32} (h : s.mayRun code = true)
    (ha : srcV (laneWidth o.t.toNat) (immValue o) o.a s = .ok (a, s1)) (hb : srcV (laneWidth o.t.toNat) (immValue o) o.b s1 = .ok (b, s2))
    (hf : let w := laneWidth o.t.toNat
      ∀ i < lanesOf s.prof o.t.toNat, f w (laneAt w a i).toNat (laneAt w b i).toNat = g i)
    (hbits : ∀ i < 32, bits.getLsbD i = if lget false (s.thread.laneMask o (lanesOf s.prof o.t.toNat)) i then (g i).1
      else (maskBefore o.d s.thread).getLsbD i)
    (hd : dstP o.d bits (s2.modThread (·.orFlags (laneFlags (s.thread.laneMask o (lanesOf s.prof o.t.toNat))
      ((List.range (lanesOf s.prof o.t.toNat)).map (fun i => (0, (g i).2)))))) = .ok ((), t)) :
    laneCmp code o f s = .next (t.finish o.len) := by
  generalize hl : lanesOf s.prof o.t.toNat = l at *
  obtain ⟨-, hthread, herr⟩ := State.sameAgent_trans (srcV_sameAgent ha) (srcV_sameAgent hb)
  have hrs : ((lanes (laneWidth o.t.toNat) a l).zip (lanes (laneWidth o.t.toNat) b l)).map (fun x => f (laneWidth o.t.toNat) x.1 x.2) =
      (List.range l).map g := by
    rw [lanes_eq_map, lanes_eq_map, List.zip_map', List.map_map]
    exact List.map_congr_left fun i hi => hf i (List.mem_range.mp hi)
  have hfold : (((s.thread.laneMask o l).zip ((List.range l).map g)).zipIdx).foldl writeBit (maskBefore o.d s2.thread) = bits := by
    refine BitVec.eq_of_getLsbD_eq fun i hi => ?_
    rw [getLsbD_foldl_writeBit _ _ _ hi, hbits i hi, hthread, laneMask_eq_map, List.zip_map', lget_map_range, lget_map_range]
    by_cases h : i < l <;> simp [h]
  refine runLanes_finish h ((bind_ok (laneCount_run o s)).trans ((bind_ok (laneMaskM_run o _ s)).trans
    ((bind_ok ha).trans ((bind_ok hb).trans ((readMask_bind o.d _ fun n hn => (herr n).trans (mayRun_mask h n hn)).trans ?_)))))
  rw [hl, hrs, List.map_map]
  exact (bind_ok (setFlags_run _ s2)).trans (hfold ▸ dstP_next hd)
end

end Sys2Proof.Machine

open Sys2Proof.Machine

/-- Settles O11: each operation on numbers is that on lanes, and a comparison's bits are written one lane after the other. -/
theorem laneResults : Obligations.LaneResults := by
  unfold Obligations.LaneResults
  refine ⟨fun o s s1 s2 s3 t a b c ha => ⟨fun e he h hd => ?one, fun hb => ⟨fun e he h hd => ?two, fun h hc hd => ?vfma⟩⟩,
    fun e he o s s1 s2 t a b bits hm h _ ha hb hbits hd => ?cmp⟩
  case one =>
    obtain ⟨f, hf, hexec⟩ := laneTable1_computes e he o
    rw [hexec]
    exact laneOp1_computes hf h ha hd
  case two =>
    obtain ⟨f, hf, hexec⟩ := laneTable2_computes e he o
    rw [hexec]
    exact laneOp2_computes hf h ha hb hd
  case vfma => exact execVfma_ok h ha hb hc hd
  case cmp =>
    obtain ⟨f, hf, hexec⟩ := laneCmpTable_computes e he o
    rw [hexec]
    refine laneCmp_ok h ha hb (fun i hi => hf _ (laneWidth_pos_of_lt hi) _ _) (fun i hi => ?_) hd
    rw [maskBefore_bit]
    exact hbits i hi
end

section
/-! Lanes that move (R112, R120): each move lane by lane over lanes given by functions of their number, and how these instructions
complete. -/

open Sys2Proof

namespace Sys2Proof.Machine

/-! ### Moves lane by lane -/

section
variable {l : Nat} (x y : Nat → Nat) (p : Nat → Bool)

theorem mergeLanes_map (is : List Nat) :
    mergeLanes (is.map p) (is.map x) (is.map y) = is.map (fun i => if p i then x i else y i) := by
  induction is with
  | nil => rfl
  | cons i is ih => cases h : p i <;> simp only [List.map_cons, h, mergeLanes, ih, Bool.false_eq_true, if_true, if_false]

theorem enabledLanes_map (is : List Nat) : enabledLanes (is.map p) (is.map x) = (is.filter p).map x := by
  rw [enabledLanes, List.zip_map', List.filter_map, List.map_map]
  rfl

theorem slide_up_map {k : Nat} (hk : k ≤ l) : slide false k ((List.range l).map x) ((List.range l).map y) =
    (List.range l).map (fun i => if i < k then y (l - k + i) else x (i - k)) := by
  refine List.ext_getElem (by simp [slide]) fun i h1 h2 => ?_
  simp only [List.length_map, List.length_range] at h2
  simp only [slide, Bool.false_eq_true, if_false, List.length_map, List.length_range, List.getElem_append, List.length_drop,
    List.getElem_drop, List.getElem_take, List.getElem_map, List.getElem_range]
  by_cases h : i < k
  · rw [dif_pos (by omega), if_pos h]
  · rw [dif_neg (by omega), if_neg h]
    congr 1
    omega

theorem slide_down_map {k : Nat} (hk : k ≤ l) : slide true k ((List.range l).map x) ((List.range l).map y) =
    (List.range l).map (fun i => if i + k < l then x (i + k) else y (i + k - l)) := by
  refine List.ext_getElem (by simp [slide]; omega) fun i h1 h2 => ?_
  simp only [List.length_map, List.length_range] at h2
  simp only [slide, if_true, List.length_map, List.length_range, List.getElem_append, List.length_drop, List.getElem_drop,
    List.getElem_take, List.getElem_map, List.getElem_range]
  by_cases h : i + k < l
  · rw [dif_pos (by omega), if_pos h, Nat.add_comm]
  · rw [dif_neg (by omega), if_neg h]
    congr 1
    omega

theorem slide_map (m : BitVec 4) {k : Nat} (hk : k ≤ l) : slide (m == 1) k ((List.range l).map x) ((List.range l).map y) =
    (List.range l).map (fun i => if m = 1 then (if i + k < l then x (i + k) else y (i + k - l))
      else (if i < k then y (l - k + i) else x (i - k))) := by
  by_cases hm : m = 1
  · simp only [hm, BEq.rfl, slide_down_map x y hk, if_true]
  · simp only [beq_eq_false_iff_ne.mpr hm, slide_up_map x y hk, hm, if_false]

theorem perm_map : ((List.range l).map y).map (fun j => lget 0 ((List.range l).map x) j) =
    (List.range l).map (fun i => if y i < l then x (y i) else 0) := by
  rw [List.map_map]
  exact List.map_congr_left fun i _ => lget_map_range 0 x l (y i)

/-- The selected lanes stand first, and zeros fill up the rest (R120). -/
theorem compress_map : compress ((List.range l).map x) ((List.range l).map p) =
    (List.range l).map (fun i => match ((List.range l).filter p)[i]? with | some j => x j | none => 0) := by
  have hle : ((List.range l).filter p).length ≤ l := by simpa using List.length_filter_le p (List.range l)
  refine List.ext_getElem (by simp [compress, enabledLanes_map]; omega) fun i h1 h2 => ?_
  simp only [compress, enabledLanes_map, List.getElem_append, List.length_map, List.getElem_map, List.getElem_range,
    List.getElem_replicate]
  by_cases h : i < ((List.range l).filter p).length
  · simp [h]
  · simp [h]

theorem lget_tail {α : Type} (d : α) (a : List α) (i : Nat) : lget d a.tail i = lget d a (i + 1) := by
  rw [lget, lget, List.getElem?_tail]

/-- Lanes are taken in order for the selected positions: position i takes the lane of the number of those selected before it. -/
theorem expand_eq_map (ps : List Bool) (a : List Nat) : expand a ps =
    (List.range ps.length).map (fun i => if lget false ps i then lget 0 a ((ps.take i).count true) else 0) := by
  induction ps generalizing a with
  | nil => rfl
  | cons b ps ih =>
    rw [List.length_cons, List.range_succ_eq_map, List.map_cons, List.map_map]
    cases b with
    | true =>
      rw [expand, ih]
      congr 1
      · cases a <;> rfl
      · refine List.map_congr_left fun i _ => ?_
        rw [Function.comp_apply, List.take_succ_cons, List.count_cons_self, lget_tail]
        rfl
    | false =>
      rw [expand, ih]
      rfl

theorem expand_map : expand ((List.range l).map x) ((List.range l).map p) =
    (List.range l).map (fun i => if p i then x ((List.range i).filter p).length else 0) := by
  rw [expand_eq_map, List.length_map, List.length_range]
  refine List.map_congr_left fun i hi => ?_
  have hi := List.mem_range.mp hi
  have hcount : (((List.range l).map p).take i).count true = ((List.range i).filter p).length := by
    rw [← List.map_take, List.take_range, Nat.min_eq_left hi.le, List.count, List.countP_map, List.countP_eq_length_filter]
    simp [Function.comp_def]
  have hlt : ((List.range i).filter p).length < l := by
    have := List.length_filter_le p (List.range i)
    rw [List.length_range] at this
    omega
  rw [hcount, lget_map_range, lget_map_range, if_pos hi, if_pos hlt]

end

/-- A move of lanes acts on each as the claim's function says: k is the count of VSLIDE. -/
def MovesLanes (k : Nat) (f : List Nat → List Nat → List Bool → List Nat)
    (g : Nat → (Nat → Nat) → (Nat → Nat) → (Nat → Bool) → Nat → Nat) : Prop :=
  ∀ l x y p, k ≤ l → f ((List.range l).map x) ((List.range l).map y) ((List.range l).map p) = (List.range l).map (g l x y p)

theorem laneMoveTable_moves : ∀ e ∈ laneMoveTable, ∀ o, ∃ f, MovesLanes (i18f o 7 0) f (e.2.2.2 o) ∧
    ∀ s, exec (e.1 o) s = laneMove e.2.1 o e.2.2.1 f s := by
  simp only [laneMoveTable, List.forall_mem_cons, List.not_mem_nil, IsEmpty.forall_iff, implies_true, and_true]
  exact ⟨fun o => ⟨fun a b p => mergeLanes p a b, fun l x y p _ => mergeLanes_map x y p _, fun _ => rfl⟩,
    fun o => ⟨fun a b _ => b.map (fun j => lget 0 a j), fun l x y p _ => perm_map x y, fun _ => rfl⟩,
    fun o => ⟨fun a b _ => slide (o.m == 1) (i18f o 7 0) a b, fun l x y p hk => slide_map x y o.m hk, fun _ => rfl⟩,
    fun o => ⟨fun a _ p => compress a p, fun l x y p _ => compress_map x p, fun _ => rfl⟩,
    fun o => ⟨fun a _ p => expand a p, fun l x y p _ => expand_map x p, fun _ => rfl⟩⟩

/-! ### How these instructions complete -/

section
variable {code : Nat} {o : Op} {s s1 s2 t : State} {a b : Nat} {x : BitVec 64}

/-- The second source is read where the instruction has one. -/
theorem secondSrc_ok {two : Bool} {w : Nat} {imm : BitVec 64} {d : Opd}
    (hb : if two then srcV w imm d s1 = .ok (b, s2) else b = 0 ∧ s2 = s1) :
    (∀ k : Nat → M Flow, (if two then srcV w imm d >>= k else pure 0 >>= k) s1 = k b s2) ∧ s1.sameAgent s2 := by
  cases two with
  | true => exact ⟨fun _ => bind_ok hb, srcV_sameAgent hb⟩
  | false =>
    obtain ⟨rfl, rfl⟩ := hb
    exact ⟨fun _ => bind_ok (pure_run 0 _), State.sameAgent_refl _⟩

theorem laneMove_ok {two : Bool} {f : List Nat → List Nat → List Bool → List Nat}
    {g : Nat → (Nat → Nat) → (Nat → Nat) → (Nat → Bool) → Nat → Nat} (hf : MovesLanes (i18f o 7 0) f g) (h : s.mayRun code = true)
    (hk : i18f o 7 0 ≤ lanesOf s.prof o.t.toNat) (ha : srcV (laneWidth o.t.toNat) (immValue o) o.a s = .ok (a, s1))
    (hb : if two then srcV (laneWidth o.t.toNat) (immValue o) o.b s1 = .ok (b, s2) else b = 0 ∧ s2 = s1)
    (hd : let w := laneWidth o.t.toNat
      let l := lanesOf s.prof o.t.toNat
      dstLanes o.d w (s.thread.laneMask o l) ((List.range l).map (g l (fun i => (laneAt w a i).toNat) (fun i => (laneAt w b i).toNat)
        (fun i => (s.thread.getP (regNum o.c)).getLsbD (guardIx i l)))) s2 = .ok ((), t)) :
    laneMove code o two f s = .next (t.finish o.len) := by
  obtain ⟨hsrc, hsame⟩ := secondSrc_ok hb
  obtain ⟨-, hthread, herr⟩ := State.sameAgent_trans (srcV_sameAgent ha) hsame
  have hp : rdP (regNum o.c) s2 = .ok (s.thread.getP (regNum o.c), s2) := by
    rw [← hthread]
    exact rdP_ok ((herr _).trans (mayRun_mask h _ (regNum_lt _)))
  refine runLanes_finish h ((bind_ok (laneCount_run o s)).trans ((bind_ok (laneMaskM_run o _ s)).trans
    ((bind_ok ha).trans ((hsrc _).trans ((bind_ok hp).trans ?_)))))
  rw [lanes_eq_map, lanes_eq_map, predLanes, hf _ _ _ _ hk]
  exact dstLanes_next hd

theorem execVbcast_ok (h : s.mayRun 0x9C = true) (ha : srcX (immValue o) o.a s = .ok (x, s1))
    (hd : dstLanes o.d (laneWidth o.t.toNat) (s.thread.laneMask o (lanesOf s.prof o.t.toNat))
      (List.replicate (lanesOf s.prof o.t.toNat) (x.setWidth (laneWidth o.t.toNat)).toNat) s1 = .ok ((), t)) :
    execVbcast o s = .next (t.finish o.len) := by
  rw [BitVec.toNat_setWidth] at hd
  exact runLanes_finish h ((bind_ok (laneCount_run o s)).trans ((bind_ok (laneMaskM_run o _ s)).trans
    ((bind_ok ha).trans (dstLanes_next hd))))

/-- With no lane enabled D takes nothing, or an entry of zeros (R20, R104). -/
theorem noResult_ok {d : Opd} (h : noLane d s t) : noResult d s = .ok (.next, t) := by
  cases d with
  | queue q => exact bind_ok h
  | _ =>
    cases h
    rfl

theorem execVext_ok (h : s.mayRun 0x9D = true) (ha : srcV (laneWidth o.t.toNat) (immValue o) o.a s = .ok (a, s1))
    (hj : i18f o 6 0 < lanesOf s.prof o.t.toNat)
    (hd : if lget false (s.thread.laneMask o (lanesOf s.prof o.t.toNat)) (i18f o 6 0)
      then dstX o.d ((laneAt (laneWidth o.t.toNat) a (i18f o 6 0)).setWidth 64) s1 = .ok ((), t) else noLane o.d s1 t) :
    execVext o s = .next (t.finish o.len) := by
  refine runLanes_finish h ((bind_ok (laneCount_run o s)).trans ((bind_ok (laneMaskM_run o _ s)).trans
    ((bind_ok ha).trans ?_)))
  rw [lanes_eq_map, lget_map_range, if_pos hj, BitVec.ofNat_toNat]
  split at hd
  · next hen => rw [if_pos hen]; exact dstX_next hd
  · next hen => rw [if_neg hen]; exact noResult_ok hd

theorem execVins_ok (h : s.mayRun 0x9E = true) (ha : srcX (immValue o) o.a s = .ok (x, s1))
    (hd : let l := lanesOf s.prof o.t.toNat
      dstLanes o.d (laneWidth o.t.toNat) ((List.range l).map (fun i => i == i18f o 6 0 && lget false (s.thread.laneMask o l) i))
        (List.replicate l (x.setWidth (laneWidth o.t.toNat)).toNat) s1 = .ok ((), t)) :
    execVins o s = .next (t.finish o.len) := by
  rw [BitVec.toNat_setWidth] at hd
  exact runLanes_finish h ((bind_ok (laneCount_run o s)).trans ((bind_ok (laneMaskM_run o _ s)).trans
    ((bind_ok ha).trans (dstLanes_next hd))))
end

end Sys2Proof.Machine

open Sys2Proof.Machine

/-- Settles O12: each move gives lane i the lane that the instruction names, and D takes the enabled lanes. -/
theorem laneMoves : Obligations.LaneMoves := by
  unfold Obligations.LaneMoves
  intro o s s1 s2 t a b x
  refine ⟨fun e he h hk ha hb hd => ?move, fun h ha hd => ?vbcast, fun h ha hj hd => ?vext, fun h ha _ hd => ?vins⟩
  case move =>
    obtain ⟨f, hf, hexec⟩ := laneMoveTable_moves e he o
    rw [hexec]
    exact laneMove_ok hf h hk ha hb hd
  case vbcast => exact execVbcast_ok h ha hd
  case vext => exact execVext_ok h ha hj hd
  case vins => exact execVins_ok h ha hd
end

section
/-! Conversions (R114-R118): which source lane a destination lane takes, and how VCVT, VQUANT, VDEQ and VSCALEQ complete. -/

open Sys2Proof

namespace Sys2Proof.Machine

/-! ### The lanes of a source (R101, R103) -/

theorem repLanes_lt (w v n : Nat) : repLanes w v n < 2 ^ (w * n) := by
  induction n with
  | zero => exact Nat.one_pos
  | succ n ih =>
    have hlane : v % 2 ^ w < 2 ^ w := Nat.mod_lt _ (Nat.two_pow_pos w)
    calc v % 2 ^ w + 2 ^ w * repLanes w v n < 2 ^ w * (repLanes w v n + 1) := by rw [Nat.mul_add]; omega
      _ ≤ 2 ^ w * 2 ^ (w * n) := Nat.mul_le_mul_left _ ih
      _ = 2 ^ (w * (n + 1)) := by rw [← pow_add, Nat.mul_add, Nat.mul_one, Nat.add_comm]

/-- A v source is a value of the vector registers' width. -/
theorem srcV_lt {w : Nat} {imm : BitVec 64} {d : Opd} {s t : State} {a : Nat} (h : srcV w imm d s = .ok (a, t)) :
    a < 2 ^ vWidth s.prof := by
  have h256 : 256 ≤ vWidth s.prof := by cases s.prof <;> decide
  rcases srcV_cases h with ⟨n, hr⟩ | ⟨q, e, -, rfl⟩ | ⟨i, e, -, rfl⟩ | ⟨-, rfl⟩
  · rcases (rdV_cases hr).2 with ⟨c, k, -, rfl, -⟩ | ⟨i, hc, rfl⟩
    · exact BitVec.toNat_lt_twoPow_of_le h256
    · have h1024 : 1024 ≤ vWidth s.prof := by rw [State.prof, hc]; exact le_rfl
      exact BitVec.toNat_lt_twoPow_of_le h1024
  · exact BitVec.toNat_lt_twoPow_of_le h256
  · exact BitVec.toNat_lt_twoPow_of_le h256
  · exact Nat.lt_of_lt_of_le (repLanes_lt _ _ _) (Nat.pow_le_pow_right (by decide) (Nat.mul_div_le _ _))

theorem laneWidth_cases (t : Nat) : laneWidth t = 0 ∨ laneWidth t = 8 ∨ laneWidth t = 16 ∨ laneWidth t = 32 := by
  unfold laneWidth
  split <;> decide

theorem laneWidth_dvd {t : Nat} (h : laneWidth t ≠ 0) (p : Profile) : laneWidth t ∣ vWidth p := by
  rcases laneWidth_cases t with h0 | h0 | h0 | h0
  · exact absurd h0 h
  all_goals rw [h0]; cases p <;> decide

/-- A lane of a value, and zero beyond its last lane. -/
theorem lget_lanes {ws v a : Nat} (hws : ws ∣ v) (ha : a < 2 ^ v) (i : Nat) : lget 0 (lanes ws a (v / ws)) i = (laneAt ws a i).toNat := by
  rw [lanes_eq_map, lget_map_range]
  split
  · rfl
  · next hi =>
    have hle : v ≤ ws * i := by
      rw [← Nat.mul_div_cancel' hws]
      exact Nat.mul_le_mul_left ws (Nat.le_of_not_lt hi)
    rw [laneAt_toNat, Nat.div_eq_of_lt (Nat.lt_of_lt_of_le ha (Nat.pow_le_pow_right (by decide) hle)), Nat.zero_mod]

/-! ### Converting lanes (R114) -/

/-- The result of destination lane j: that of the source lane which part q gives it. -/
def convLane (v ws wd q : Nat) (f : Nat → Nat × Flags) (a j : Nat) : Nat × Flags :=
  match convSource v ws wd q j with | some i => f (laneAt ws a i).toNat | none => (0, 0)

/-- Whether destination lane j is enabled and has a source lane. -/
def convLive (v ws wd q : Nat) (mask : List Bool) (j : Nat) : Bool := lget false mask j && (convSource v ws wd q j).isSome

theorem convertLanes_ok {o : Op} {ws wd q a : Nat} {f : Nat → Nat × Flags} {s s1 t : State} (hs : s.sameAgent s1)
    (hws : ws ∣ vWidth s.prof) (ha : a < 2 ^ vWidth s.prof)
    (hd : let v := vWidth s.prof
      let live := (List.range (v / wd)).map (convLive v ws wd q (s.thread.laneMask o (v / wd)))
      let rs := (List.range (v / wd)).map (convLane v ws wd q f a)
      dstLanes o.d wd live (rs.map Prod.fst) (s1.modThread (·.orFlags (laneFlags live rs))) = .ok ((), t)) :
    convertLanes o ws wd q f a s1 = .ok (.next, t) := by
  obtain ⟨hcur, hthread, -⟩ := hs
  have hprof : s1.prof = s.prof := by rw [State.prof, hcur]; rfl
  generalize hv : vWidth s.prof = v at *
  have hvals : ((List.range (v / wd)).map (fun j => (convSource v ws wd q j).map (fun i => f (lget 0 (lanes ws a (v / ws)) i)))).map
      (fun r => r.getD (0, 0)) = (List.range (v / wd)).map (convLane v ws wd q f a) := by
    rw [List.map_map]
    refine List.map_congr_left fun j _ => ?_
    simp only [Function.comp_apply, lget_lanes hws ha, convLane]
    cases convSource v ws wd q j <;> rfl
  have hlive : ((s.thread.laneMask o (v / wd)).zip ((List.range (v / wd)).map
      (fun j => (convSource v ws wd q j).map (fun i => f (lget 0 (lanes ws a (v / ws)) i))))).map (fun x => x.1 && x.2.isSome) =
      (List.range (v / wd)).map (convLive v ws wd q (s.thread.laneMask o (v / wd))) := by
    rw [laneMask_eq_map, List.zip_map', List.map_map, ← laneMask_eq_map]
    refine List.map_congr_left fun j _ => ?_
    simp only [Function.comp_apply, Option.isSome_map, convLive]
  refine (bind_ok (getS_run s1)).trans ((bind_ok (laneMaskM_run o _ s1)).trans ?_)
  rw [hprof, hv, hthread, hvals, hlive]
  exact (bind_ok (setFlags_run _ s1)).trans (dstLanes_next hd)

/-! ### How these instructions complete -/

theorem legendOperand_ok {b : BitVec 64} (h : isB8 (b.toNat % 256) = true) (s : State) :
    legendOperand b s = .ok ((b.setWidth 16 : Legend), s) := by
  rw [legendOperand, if_pos h, pure_run]

theorem legendOperand_trap {b : BitVec 64} (h : isB8 (b.toNat % 256) = false) (s : State) :
    legendOperand b s = .error (.trap .format b) := by
  rw [legendOperand, if_neg (by simp [h]), raise_run]

theorem runLanes_trap {code : Nat} {o : Op} {body : M Flow} {s : State} {c : Cause} {v : BitVec 64} (h : s.mayRun code = true)
    (hb : body s = .error (.trap c v)) : runLanes code o body s = .next (s.trapCur c v) := by
  rw [runLanes_run h, hb]
  rfl

section
variable {o : Op} {s s1 s2 t : State} {a : Nat} {b : BitVec 64}

/-- The conversion that a claim's lanes and results describe has been written, with its flags. -/
def State.converted (s : State) (o : Op) (ws wd q : Nat) (f : Nat → Nat × Flags) (a : Nat) (s0 t : State) : Prop :=
  let v := vWidth s.prof
  let live := (List.range (v / wd)).map (convLive v ws wd q (s.thread.laneMask o (v / wd)))
  let rs := (List.range (v / wd)).map (convLane v ws wd q f a)
  dstLanes o.d wd live (rs.map Prod.fst) (s0.modThread (·.orFlags (laneFlags live rs))) = .ok ((), t)

theorem execVcvt_ok (h : s.mayRun 0xA5 = true) (hok : vcvtOk o = true) (ha : srcV (laneWidth o.t.toNat) (immValue o) o.a s = .ok (a, s1))
    (hd : s.converted o (laneWidth (o.m.toNat % 8)) (laneWidth o.t.toNat) (i18f o 9 8)
      (vcvtElem (o.m.toNat % 8) o.t.toNat (i18f o 7 0) s.thread.rm.toNat (8 ≤ o.m.toNat) (i18f o 10 10 == 1)) a s1 t) :
    execVcvt o s = .next (t.finish o.len) := by
  have hws : laneWidth (o.m.toNat % 8) ≠ 0 := by
    simp only [vcvtOk, Bool.and_eq_true, bne_iff_ne] at hok
    obtain ⟨⟨⟨⟨⟨⟨⟨-, hsource⟩, -⟩, -⟩, -⟩, -⟩, -⟩, -⟩ := hok
    exact hsource
  exact runLanes_finish h ((bind_ok (roundMode_run s)).trans ((bind_ok ha).trans
    (convertLanes_ok (srcV_sameAgent ha) (laneWidth_dvd hws _) (srcV_lt ha) hd)))

/-- The IEEE formats of R116 have a lane width. -/
theorem laneWidth_ieee {m : BitVec 4} (hm : m = 5 ∨ m = 6) : laneWidth m.toNat ≠ 0 := by
  rcases hm with rfl | rfl <;> decide

theorem execVquant_ok (h : s.mayRun 0xA8 = true) (hm : o.m = 5 ∨ o.m = 6) (ha : srcV 8 (immValue o) o.a s = .ok (a, s1))
    (hb : srcX (immValue o) o.b s1 = .ok (b, s2)) (hleg : isB8 (b.toNat % 256) = true)
    (hd : s.converted o (laneWidth o.m.toNat) 8 (i18f o 1 0)
      (vquantElem (b.setWidth 16) o.m.toNat s.thread.rm.toNat (i18f o 2 2 == 1)) a s2 t) :
    execVquant o s = .next (t.finish o.len) :=
  runLanes_finish h ((bind_ok (roundMode_run s)).trans ((bind_ok ha).trans ((bind_ok hb).trans ((bind_ok (legendOperand_ok hleg s2)).trans
    (convertLanes_ok (State.sameAgent_trans (srcV_sameAgent ha) (srcX_sameAgent hb)) (laneWidth_dvd (laneWidth_ieee hm) _)
      (srcV_lt ha) hd)))))

theorem execVdeq_ok (h : s.mayRun 0xA9 = true) (ha : srcV 8 (immValue o) o.a s = .ok (a, s1))
    (hb : srcX (immValue o) o.b s1 = .ok (b, s2)) (hleg : isB8 (b.toNat % 256) = true)
    (hd : s.converted o 8 (laneWidth o.m.toNat) (i18f o 1 0)
      (fun c => roundIeee (fmtOf o.m.toNat) s.thread.rm.toNat (decodeElem c (b.setWidth 16))) a s2 t) :
    execVdeq o s = .next (t.finish o.len) :=
  runLanes_finish h ((bind_ok (roundMode_run s)).trans ((bind_ok ha).trans ((bind_ok hb).trans ((bind_ok (legendOperand_ok hleg s2)).trans
    (convertLanes_ok (State.sameAgent_trans (srcV_sameAgent ha) (srcX_sameAgent hb)) (laneWidth_dvd (t := 3) (by decide) _)
      (srcV_lt ha) hd)))))

end

end Sys2Proof.Machine

open Sys2Proof.Machine

/-- Settles O14: lane j takes the conversion of the source lane that its part gives it; log entry 25 is the model's choice for M[3] of a
VCVT without an integer side. -/
theorem laneConversions : Obligations.LaneConversions := by
  unfold Obligations.LaneConversions
  intro o s s1 s2 t a b
  refine ⟨fun h hok ha hd => ?vcvt, fun h hm ha hb => ⟨fun hleg hd => ?vquant, fun hleg => ?vquantFormat⟩,
    fun h hm ha hb => ⟨fun hleg hd => ?vdeq, fun hleg => ?vdeqFormat⟩, fun hr ha hd => ?vscaleq⟩
  case vcvt => exact execVcvt_ok h hok ha hd
  case vquant => exact execVquant_ok h hm ha hb hleg hd
  case vdeq => exact execVdeq_ok h ha hb hleg hd
  case vquantFormat | vdeqFormat =>
    exact runLanes_trap h ((bind_ok (roundMode_run s)).trans ((bind_ok ha).trans ((bind_ok hb).trans
      (bind_error (legendOperand_trap hleg s2)))))
  case vscaleq => exact runScalar_finish hr.1 hr.2 ((bind_ok ha).trans (setFlags_dstX_next hd))
end

section
/-! Accesses to the issuing core's own ARRAY banks (R125, R126, R140, R153, R267): where an address lies, how it is cut at banks, and what
a calm slot waits for. -/

open Sys2Proof

namespace Sys2Proof.Machine

/-! ### Steps repeated over a list -/

section
variable {α β : Type} {s : State}

/-- Steps that leave the state and each add one element. -/
theorem foldlM_append_ok {f : List β → α → M (List β)} {g : α → β} (l : List α)
    (h : ∀ acc, ∀ x ∈ l, f acc x s = .ok (acc ++ [g x], s)) (acc : List β) : l.foldlM f acc s = .ok (acc ++ l.map g, s) := by
  induction l generalizing acc with
  | nil => rw [List.map_nil, List.append_nil]; rfl
  | cons x l ih =>
    rw [List.foldlM_cons, bind_ok (h acc x List.mem_cons_self), ih (fun acc y hy => h acc y (List.mem_cons_of_mem _ hy)), List.map_cons,
      List.append_assoc, List.singleton_append]

theorem foldlM_unit_ok {f : α → M Unit} (l : List α) (h : ∀ x ∈ l, f x s = .ok ((), s)) :
    (l.foldlM (fun _ x => f x) () : M Unit) s = .ok ((), s) := by
  induction l with
  | nil => rfl
  | cons x l ih => rw [List.foldlM_cons, bind_ok (h x List.mem_cons_self), ih (fun y hy => h y (List.mem_cons_of_mem _ hy))]
end

/-! ### Where an address lies (R125, R126) -/

/-- An address of a local window lies at its low 17 bits, all of its bytes together. -/
theorem locate_loc {s : State} {c k a n d core o m : Nat} (h : s.locate c k a n = some (.loc d core o m)) :
    o = a % 2 ^ 17 ∧ m = n ∧ a % 2 ^ 17 + n ≤ 0x20000 := by
  unfold State.locate at h
  simp only at h
  split at h
  · split at h <;> simp at h
  · simp only [Option.ite_none_right_eq_some, Option.some.injEq, Part.loc.injEq, Bool.and_eq_true, decide_eq_true_eq] at h
    omega
  · simp only [Option.ite_none_right_eq_some, Option.some.injEq, Part.loc.injEq, Bool.and_eq_true, decide_eq_true_eq] at h
    omega
  · split at h
    · simp only [Option.ite_none_right_eq_some, Option.some.injEq, Part.loc.injEq, Bool.and_eq_true, decide_eq_true_eq] at h
      omega
    · simp at h
  · simp at h

/-- An item of n bytes lies in ARRAY banks of core c, where slot k of the core reaches them. -/
def State.ownArray (s : State) (c k a n : Nat) : Prop :=
  s.locate c k a n = some (.loc s.ownDev c (a % 2 ^ 17) n) ∧ s.bankUse c (a % 2 ^ 17) n = .array

theorem ownArray_of_siteOf {s : State} {c k a n off : Nat} (hat : s.at_ = (c, k)) (ha : a < 2 ^ 64)
    (h : siteOf (BitVec.ofNat 64 a) n s = .ok (.own c off .array, s)) : s.ownArray c k a n := by
  unfold siteOf at h
  rw [hat, BitVec.toNat_ofNat, Nat.mod_eq_of_lt ha] at h
  simp only at h
  split at h
  · cases h
  · next d core o m hl =>
    split at h
    · next hown =>
      simp only [Bool.and_eq_true, beq_iff_eq] at hown
      simp only [Except.ok.injEq, Prod.mk.injEq, Site.own.injEq, and_true] at h
      obtain ⟨rfl, rfl⟩ := hown
      obtain ⟨rfl, rfl, -⟩ := locate_loc hl
      exact ⟨hl, h.2.2⟩
    · cases h
  · cases h

/-! ### Parts of an item (R267) -/

theorem cutAt_mem {u f a n : Nat} {p : Nat × Nat} (h : p ∈ cutAt u f a n) : a ≤ p.1 ∧ p.1 < a + n := by
  induction f generalizing a n with
  | zero => simp [cutAt] at h
  | succ f ih =>
    rw [cutAt] at h
    split at h
    · simp at h
    · next hn =>
      simp only [beq_iff_eq] at hn
      rcases List.mem_cons.mp h with rfl | h
      · exact ⟨le_rfl, by omega⟩
      · have := ih h
        omega

theorem State.localRead_add (s : State) (c a m n : Nat) : s.localRead c a (m + n) = s.localRead c a m ++ s.localRead c (a + m) n := by
  simp only [State.localRead, List.range_add, List.map_append, List.map_map, Function.comp_def, Nat.add_assoc]

/-- What is read part by part is what is read of the whole. -/
theorem localRead_cutAt (s : State) (c : Nat) {u : Nat} (hu : 0 < u) (f a n : Nat) (hf : n = 0 ∨ a % u + n ≤ f * u) :
    (cutAt u f a n).flatMap (fun p => s.localRead c p.1 p.2) = s.localRead c a n := by
  induction f generalizing a n with
  | zero =>
    have : n = 0 := by omega
    subst this
    rfl
  | succ f ih =>
    rw [cutAt]
    split
    · next hn =>
      rw [beq_iff_eq.mp hn]
      rfl
    · have hmod : a % u < u := Nat.mod_lt _ hu
      rw [List.flatMap_cons, ih, ← State.localRead_add, Nat.add_sub_of_le (Nat.min_le_left _ _)]
      rcases Nat.le_total n (u - a % u) with hle | hle
      · exact .inl (by rw [Nat.min_eq_left hle, Nat.sub_self])
      · refine .inr ?_
        have hzero : (a + (u - a % u)) % u = 0 := by
          rw [← Nat.dvd_iff_mod_eq_zero]
          have := Nat.div_add_mod a u
          exact ⟨a / u + 1, by rw [Nat.mul_add]; omega⟩
        rw [Nat.min_eq_right hle, hzero]
        rw [Nat.add_mul] at hf
        omega

/-- Whether a span that bank m masters reaches a byte depends on the byte's bank alone. -/
theorem span_reaches_iff {x m len : Nat} (hm : m ≤ x / bankBytes) : x - m * bankBytes < len * bankBytes ↔ x / bankBytes < m + len := by
  have hbank : 0 < bankBytes := by decide
  have hle : m * bankBytes ≤ x := (Nat.le_div_iff_mul_le hbank).mp hm
  rw [Nat.div_lt_iff_lt_mul hbank, Nat.add_mul]
  omega

theorem spanTarget_isSome_congr (s : State) (c : Nat) {x y : Nat} (h : x / bankBytes = y / bankBytes) :
    (s.spanTarget c x).isSome = (s.spanTarget c y).isSome := by
  unfold State.spanTarget
  simp only [List.isSome_findSome?, ← h]
  rw [Bool.eq_iff_iff, List.any_eq_true, List.any_eq_true]
  refine exists_congr fun m => and_congr_right fun hm => ?_
  have hmx : m ≤ x / bankBytes := by
    rw [List.mem_reverse, List.mem_range] at hm
    omega
  split
  · simp only [span_reaches_iff hmx, span_reaches_iff (h ▸ hmx), ← h]
    split <;> simp
  · simp

/-- A bank's bytes meet its personality and its span alike (R153). -/
theorem bankUse1_congr (s : State) (c : Nat) {x y : Nat} (h : x / bankBytes = y / bankBytes) : s.bankUse1 c x = s.bankUse1 c y := by
  have hspan := spanTarget_isSome_congr s c h
  unfold State.bankUse1
  rw [h]
  cases hx : s.spanTarget c x <;> cases hy : s.spanTarget c y
  · rfl
  · simp [hx, hy] at hspan
  · simp [hx, hy] at hspan
  · rfl

/-- Every part of an item in ARRAY banks lies in one: it is of at most a bank's bytes, so its parts are of its first and last bank. -/
theorem bankUse1_of_bankUse {s : State} {c off n x : Nat} (h : s.bankUse c off n = .array) (hn : n ≤ bankBytes) (hlo : off ≤ x)
    (hhi : x < off + n) : s.bankUse1 c x = .array := by
  have hbank : bankBytes = 0x2000 := rfl
  have hends : s.bankUse1 c off = .array ∧ s.bankUse1 c (off + n - 1) = .array := by
    unfold State.bankUse at h
    simp only at h
    split at h
    · next heq => exact ⟨h, (bankUse1_congr s c (beq_iff_eq.mp heq)).symm.trans h⟩
    · split at h
      · cases h
      · split at h
        · next heq => exact ⟨h, (beq_iff_eq.mp heq).symm.trans h⟩
        · cases h
  have hcase : x / bankBytes = off / bankBytes ∨ x / bankBytes = (off + n - 1) / bankBytes := by
    rw [hbank] at hn ⊢
    omega
  rcases hcase with hx | hx
  · exact (bankUse1_congr s c hx).trans hends.1
  · exact (bankUse1_congr s c hx).trans hends.2

/-! ### What a calm slot waits for (R162, R265-R269, R332, R345) -/

section
variable {s : State} {c k : Nat} (h : s.calm c k)
include h

theorem State.calm.at_eq : s.at_ = (c, k) := by
  obtain ⟨hc, -⟩ := h
  rw [State.at_, hc]

theorem State.calm.prof_eq : s.prof = .core := by
  obtain ⟨hc, -⟩ := h
  rw [State.prof, hc]

theorem State.calm.onSvc_ok : onSvc s = .ok (false, s) := by
  obtain ⟨hc, -⟩ := h
  simp only [onSvc, hc]

theorem State.calm.watch_ok (ld st : Bool) (items : List (Nat × Nat)) : watch ld st items s = .ok ((), s) := by
  obtain ⟨-, -, -, -, -, -, -, -, hcmp⟩ := id h
  unfold watch
  rw [h.at_eq]
  have hnone : (accessParts items).find? (fun _ => false) = none := List.find?_eq_none.mpr fun _ _ => Bool.false_ne_true
  simp [hcmp, hnone]

theorem State.calm.loadOrder_ok (kind : Kind) (t : Target) (ps : List Part) : loadOrder kind t ps s = .ok ((), s) := by
  obtain ⟨-, -, hsq, hcomb, howed, hun, hcores, -, -⟩ := id h
  have hover : ps.any (s.slot c k).storeOverlap = false := by
    simp [Slot.storeOverlap, hsq, hcomb]
  have hlane : s.laneHolds c k kind t = false := by
    simp [State.laneHolds, State.gathering, hcores]
  unfold loadOrder
  rw [bind_ok (curSlot_run s), bind_ok (getS_run s), h.at_eq]
  simp [Slot.acquiring, Slot.soPending, Slot.farStore, howed, hsq, hun, hover, hlane]

theorem State.calm.localHeld_eq (d off n : Nat) (any : Bool) : s.localHeld d off n any = false := by
  obtain ⟨-, -, -, -, -, -, hcores, -, -⟩ := h
  simp [State.localHeld, Core.held, hcores]

theorem State.calm.localPoison_eq (d off n : Nat) : s.localPoison d off n = false := by
  obtain ⟨-, -, -, -, -, -, -, hpoison, -⟩ := h
  simp [State.localPoison, hpoison]
end

end Sys2Proof.Machine
end

section
/-! Loads from the issuing core's own ARRAY banks (R125, R140, R143-R145): every part is read at once, and the bytes are delivered. -/

open Sys2Proof

namespace Sys2Proof.Machine

/-! ### The parts of a load -/

/-- The parts of an item of local memory, each with the item's address. -/
def cutItem (it : Nat × Nat) : List (Nat × Nat × Nat) :=
  (cutAt bankBytes (it.2 / bankBytes + 2) (it.1 % 2 ^ 17) it.2).map (fun p => (it.1, p))

/-- A part of an item in a bank of core c. -/
def ownPart (s : State) (c : Nat) (q : Nat × Nat × Nat) : LoadPart :=
  { part := .loc s.ownDev c q.2.1 q.2.2, xa := q.1, tgt := { dev := s.ownDev, core := c, isLocal := true }, kind := s.localKind c q.2.1 }

/-- What a part of local memory is read as: its bytes, or the legend of its block. -/
def partBytes (s : State) (leg : Bool) (c : Nat) (q : Nat × Nat × Nat) : List Byte :=
  if leg then bvBytes 2 (s.localLeg c q.2.1) else s.localRead c q.2.1 q.2.2

theorem lput_append {α : Type} (pre : List α) (x y : α) (post : List α) : lput (pre ++ x :: post) pre.length y = pre ++ y :: post := by
  induction pre with
  | nil => rfl
  | cons z pre ih => rw [List.cons_append, List.length_cons, lput, ih, List.cons_append]

theorem loadParts_own {s : State} {c k : Nat} {it : Nat × Nat} (hat : s.at_ = (c, k)) (ho : s.ownArray c k it.1 it.2) :
    loadParts it.1 it.2 s = .ok ((cutItem it).map (ownPart s c), s) := by
  obtain ⟨hloc, -⟩ := ho
  unfold loadParts
  rw [hat, cutItem, List.map_map]
  simp only [hloc, BEq.rfl, if_true]
  rfl

/-- The parts of items in ARRAY banks are in ARRAY banks (R267). -/
theorem bankUse1_cutItem {s : State} {c k : Nat} {it : Nat × Nat} {q : Nat × Nat × Nat} (hn : it.2 ≤ bankBytes)
    (ho : s.ownArray c k it.1 it.2) (hq : q ∈ cutItem it) : s.bankUse1 c q.2.1 = .array := by
  obtain ⟨p, hp, rfl⟩ := List.mem_map.mp hq
  obtain ⟨hlo, hhi⟩ := cutAt_mem hp
  exact bankUse1_of_bankUse ho.2 hn hlo hhi

section
variable {s : State} {c k : Nat} (h : s.calm c k)
include h

theorem issuePart_own {leg : Bool} {here : LoadPart → Bool} {i : Nat} {q : Nat × Nat × Nat} (hhere : here (ownPart s c q) = true)
    (hu : s.bankUse1 c q.2.1 = .array) (got : List (Option (List Byte))) :
    issuePart leg here { got } (ownPart s c q, i) s = .ok ({ got := lput got i (some (partBytes s leg c q)) }, s) := by
  have hread : readPart leg (ownPart s c q) s = .ok ((partBytes s leg c q, false), s) := by
    simp only [readPart, ownPart, hu, h.localHeld_eq, partBytes]
    rfl
  unfold issuePart
  simp only [Bool.and_false, Bool.false_eq_true, if_false, hhere, if_true]
  rw [bind_ok hread, bind_ok (getS_run s)]
  simp [State.partPoisoned, ownPart, h.localPoison_eq]

/-- Parts in the issuing core are read one after the other. -/
theorem issueParts_own {leg : Bool} {here : LoadPart → Bool} (qs : List (Nat × Nat × Nat))
    (hqs : ∀ q ∈ qs, here (ownPart s c q) = true ∧ s.bankUse1 c q.2.1 = .array) (pre : List (Option (List Byte))) :
    (((qs.map (ownPart s c)).zipIdx pre.length).foldlM (issuePart leg here) { got := pre ++ qs.map (fun _ => none) } : M LoadRun) s =
      .ok ({ got := pre ++ qs.map (fun q => some (partBytes s leg c q)) }, s) := by
  induction qs generalizing pre with
  | nil => rfl
  | cons q qs ih =>
    obtain ⟨hhere, hu⟩ := hqs q List.mem_cons_self
    have hrest := ih (fun y hy => hqs y (List.mem_cons_of_mem _ hy)) (pre ++ [some (partBytes s leg c q)])
    simp only [List.map_cons]
    rw [List.zipIdx_cons, List.foldlM_cons, bind_ok (issuePart_own h hhere hu _), lput_append]
    simpa using hrest
end

/-- Groups of parts of which none is swapped go as they lie. -/
theorem foldl_partsOrder {α : Type} {swap : List α → Bool} (groups : List (List α)) (hg : ∀ g ∈ groups, swap g = false)
    (acc : List (α × Nat)) (n : Nat) :
    (groups.foldl (fun (acc : List (α × Nat) × Nat) g => (acc.1 ++ partsOrder (swap g) (g.zipIdx acc.2), acc.2 + g.length))
      (acc, n)).1 = acc ++ groups.flatten.zipIdx n := by
  induction groups generalizing acc n with
  | nil => simp
  | cons g groups ih =>
    rw [List.foldl_cons, ih (fun y hy => hg y (List.mem_cons_of_mem _ hy)), hg g List.mem_cons_self, List.flatten_cons,
      List.zipIdx_append, List.append_assoc]
    rfl

theorem foldl_getD_some {α : Type} (f : α → List Byte) (qs : List α) (acc : List Byte) :
    (qs.map (fun q => some (f q))).foldl (fun acc g => acc ++ g.getD []) acc = acc ++ qs.flatMap f := by
  induction qs generalizing acc with
  | nil => simp
  | cons q qs ih => rw [List.map_cons, List.foldl_cons, ih, Option.getD_some, List.flatMap_cons, List.append_assoc]

/-- A load whose parts have all been read without error delivers their bytes. -/
theorem finishLoad_bytes {s : State} {c k : Nat} {o : Owed} {α : Type} {f : α → List Byte} {qs : List α}
    (hgot : o.got = qs.map (fun q => some (f q))) (hbst : o.bst = none) (hok : o.poisoned = false) :
    s.finishLoad c k o = s.deliver c k o.dst (qs.flatMap f) := by
  simp only [State.finishLoad, hbst, hok, hgot, foldl_getD_some, List.nil_append, Bool.false_eq_true, if_false]

section
variable {s t : State} {α : Type} {b : Bool}

/-- A free value is taken only where the order of parts is open. -/
theorem skipFree_run {f : BitVec 64 → M α} (h : b = false) : (if b = true then freeM >>= f else pure 0 >>= f) s = f 0 s := by
  subst h
  rfl

theorem ite_run_true {m n : M α} (h : b = true) : (if b = true then m else n) s = m s := by
  subst h
  rfl

theorem finished_run {x : Option State} {f : Unit → M α} {w : Wait} (h : x = some t) :
    (match x with | some s' => modS (fun _ => s') >>= f | none => stallOn w >>= f) s = f () t := by
  subst h
  rfl
end

section
variable {s t : State} {c k : Nat} (h : s.calm c k)
include h

/-- A load of items in ARRAY banks of the issuing core completes at once with what is read of their parts (R143; that the lanes of one
instruction are read in one state is log entry 46). -/
theorem issueLoad_own {items : List (Nat × Nat)} {size pair len : Nat} {leg acq : Bool} {dst : LoadDst} {undo : Popped}
    (hown : ∀ it ∈ items, it.2 ≤ bankBytes ∧ s.ownArray c k it.1 it.2) (hclaim : claimDst dst s = .ok ((), s))
    (hdel : s.deliver c k dst ((items.flatMap cutItem).flatMap (partBytes s leg c)) = some t) :
    issueLoad items size pair leg acq none dst len undo s = .ok (.next, t) := by
  have hat := h.at_eq
  have hall : ∀ g ∈ items.map (fun it => (cutItem it).map (ownPart s c)),
      (!g.all (fun p => p.tgt.dev == s.ownDev && p.tgt.core == c)) = false := by
    intro g hg
    obtain ⟨it, -, rfl⟩ := List.mem_map.mp hg
    simp [ownPart]
  have hfree : (items.map (fun it => (cutItem it).map (ownPart s c))).any
      (fun g => decide (1 < g.length) && !g.all (fun p => p.tgt.dev == s.ownDev && p.tgt.core == c)) = false := by
    rw [List.any_eq_false]
    intro g hg
    rw [hall g hg, Bool.and_false]
    exact Bool.false_ne_true
  have hflat : (items.map (fun it => (cutItem it).map (ownPart s c))).flatten = (items.flatMap cutItem).map (ownPart s c) := by
    rw [List.map_flatMap, List.flatMap_def]
  unfold issueLoad
  rw [bind_ok hclaim, bind_ok (foldlM_append_ok items (fun _ it hit => bind_ok (loadParts_own hat (hown it hit).2)) []), bind_ok (getS_run s),
    hat, List.nil_append]
  refine (bind_ok (foldlM_unit_ok _ fun p _ => h.loadOrder_ok _ _ _)).trans ?_
  refine (skipFree_run hfree).trans ?_
  refine (bind_ok (a := { got := (items.flatMap cutItem).map (fun q => some (partBytes s leg c q)) }) (s1 := s) ?run).trans ?_
  case run =>
    rw [foldl_partsOrder _ (fun g hg => by rw [hall g hg, Bool.and_false]), List.nil_append, hflat, List.map_map]
    refine issueParts_own h _ (fun q hq => ⟨?_, ?_⟩) []
    · simp [ownPart]
    · obtain ⟨it, hit, hq⟩ := List.mem_flatMap.mp hq
      exact bankUse1_cutItem (hown it hit).1 (hown it hit).2 hq
  refine (bind_ok (getS_run s)).trans ?_
  unfold State.fresh
  refine (ite_run_true ?all).trans ?_
  case all => simp
  exact (finished_run ((finishLoad_bytes rfl rfl rfl).trans hdel)).trans rfl
end

end Sys2Proof.Machine
end

section
/-! LD, LDP, VLD, LGLD, VLDS and VGATH from ARRAY banks of the issuing core (R121, R122, R140, R143-R145). -/

open Sys2Proof

namespace Sys2Proof.Machine

/-! ### The bytes of items -/

theorem cutItem_bytes (s : State) (c : Nat) (it : Nat × Nat) :
    (cutItem it).flatMap (partBytes s false c) = s.localRead c (it.1 % 2 ^ 17) it.2 := by
  have hu : 0 < bankBytes := by decide
  rw [cutItem, List.flatMap_map]
  refine localRead_cutAt s c hu _ _ _ (.inr ?_)
  have hmod := Nat.mod_lt (it.1 % 2 ^ 17) hu
  have hdiv := Nat.div_add_mod it.2 bankBytes
  have hlt := Nat.mod_lt it.2 hu
  rw [Nat.add_mul, Nat.mul_comm (it.2 / bankBytes)]
  omega

theorem cutItems_bytes (s : State) (c : Nat) (items : List (Nat × Nat)) :
    (items.flatMap cutItem).flatMap (partBytes s false c) = items.flatMap (fun it => s.localRead c (it.1 % 2 ^ 17) it.2) := by
  simp only [List.flatMap_assoc, cutItem_bytes]

theorem cutAt_zero (u f a : Nat) : cutAt u f a 0 = [] := by
  cases f <;> rfl

/-- What does not cross a multiple of u is one part. -/
theorem cutAt_single {u f a n : Nat} (hn : 0 < n) (hu : n ≤ u - a % u) : cutAt u (f + 1) a n = [(a, n)] := by
  rw [cutAt, if_neg (by rw [beq_iff_eq]; omega)]
  simp only [Nat.min_eq_left hu, Nat.sub_self, cutAt_zero]

/-- The legend of the block of one byte (R145). -/
theorem cutItem_legend (s : State) (c e : Nat) :
    ([(e, 1)].flatMap cutItem).flatMap (partBytes s true c) = bvBytes 2 (s.localLeg c (e % 2 ^ 17)) := by
  have hone : cutAt bankBytes (1 / bankBytes + 2) (e % 2 ^ 17) 1 = [(e % 2 ^ 17, 1)] := by
    have := Nat.mod_lt (e % 2 ^ 17) (show 0 < bankBytes by decide)
    exact cutAt_single Nat.one_pos (by omega)
  rw [List.flatMap_singleton, cutItem, hone, List.map_singleton, List.flatMap_singleton]
  rfl

/-! ### Plain loads (R140, R143, R145) -/

/-- Item x of m bytes lies in ARRAY banks of the issuing core c. -/
def State.ownSite (s : State) (c x m : Nat) : Prop := siteOf (BitVec.ofNat 64 x) m s = .ok (.own c (x % 2 ^ 17) .array, s)

/-- The checks of lanes that all lie in ARRAY banks of the issuing core (R144). -/
theorem laneSites_own {s : State} {c : Nat} (items : List (Nat × Nat)) (ho : ∀ it ∈ items, s.ownSite c it.1 it.2) :
    laneSites items s = .ok (items.map (fun it => .own c (it.1 % 2 ^ 17) .array), s) :=
  foldlM_append_ok items (fun _ it hit => bind_ok (ho it hit)) []

section
variable {s t : State} {c k : Nat} (h : s.calm c k)
include h

theorem ownArray_of_ownSite {x m : Nat} (hx : x < 2 ^ 64) (ho : s.ownSite c x m) : s.ownArray c k x m := ownArray_of_siteOf h.at_eq hx ho

theorem plainLoad_own {o : Op} {n count : Nat} {a : BitVec 64} {dst : LoadDst} (ha : rdReg o.a s = .ok (a, s))
    (ho : s.ownSite c (a + o.i18.signExtend 64).toNat (n * count)) (hn : n * count ≤ bankBytes) (hclaim : claimDst dst s = .ok ((), s))
    (hdel : s.deliver c k dst (s.localRead c ((a + o.i18.signExtend 64).toNat % 2 ^ 17) (n * count)) = some t) :
    plainLoad o n count dst s = .ok (.next, t) := by
  have harr := ownArray_of_ownSite h (BitVec.isLt _) ho
  have hsite := ho
  rw [State.ownSite, BitVec.ofNat_toNat, BitVec.setWidth_eq] at hsite
  unfold plainLoad
  rw [byteOffset_eq, bind_ok ha]
  refine (bind_ok hsite).trans ((bind_ok (h.watch_ok _ _ _)).trans (issueLoad_own h ?own hclaim ?bytes))
  case own => simpa using ⟨hn, harr⟩
  case bytes => rw [cutItems_bytes]; simpa using hdel

theorem notSvc_run {α : Type} (m n : M α) : (onSvc >>= fun b => if b = true then m else n) s = n s := by
  rw [bind_ok h.onSvc_ok]
  rfl

theorem execLgld_ok {o : Op} {a : BitVec 64} (hr : s.runs 0x68 o) (ha : rdReg o.a s = .ok (a, s))
    (ho : s.ownSite c (a + o.i18.signExtend 64).toNat 1)
    (hclaim : claimDst (match o.d with | .queue q => .lgq q.val | d => .lgx (regNum d)) s = .ok ((), s))
    (hdel : s.deliver c k (match o.d with | .queue q => .lgq q.val | d => .lgx (regNum d))
      (bvBytes 2 (s.localLeg c ((a + o.i18.signExtend 64).toNat % 2 ^ 17))) = some t) :
    execLgld o s = .next (t.finish o.len) := by
  have harr := ownArray_of_ownSite h (BitVec.isLt _) ho
  have hsite := ho
  rw [State.ownSite, BitVec.ofNat_toNat, BitVec.setWidth_eq] at hsite
  refine runScalar_finish hr.1 hr.2 ?_
  rw [byteOffset_eq]
  refine (bind_ok ha).trans ((notSvc_run h _ _).trans ((bind_ok hsite).trans ((bind_ok (h.watch_ok _ _ _)).trans
    (issueLoad_own h ?own hclaim ?bytes))))
  case own => simpa using ⟨by decide, harr⟩
  case bytes => rw [cutItem_legend]; exact hdel

/-- A lane load into D: what its lanes are put over, where some are off. -/
def lanedDst (o : Op) (w : Nat) (mask : List Bool) (base : Nat) : LoadDst :=
  match o.d with | .queue q => .lanesq q.val w mask | d => .lanes (regNum d) w mask (BitVec.ofNat 256 base)

/-- A lane load reads what its disabled lanes keep, and completes at once. -/
theorem lanedLoad_own {o : Op} {items : List (Nat × Nat)} {w size base len : Nat} {acq : Bool} {mask : List Bool}
    (hbase : if mask.all id then base = 0 else oldV o.d s = .ok (base, s))
    (hown : ∀ it ∈ items, it.2 ≤ bankBytes ∧ s.ownArray c k it.1 it.2) (hclaim : claimDst (lanedDst o w mask base) s = .ok ((), s))
    (hdel : s.deliver c k (lanedDst o w mask base) (items.flatMap (fun it => s.localRead c (it.1 % 2 ^ 17) it.2)) = some t) :
    (if mask.all id = true then pure 0 >>= fun base => issueLoad items size 0 false acq none (lanedDst o w mask base) len
      else oldV o.d >>= fun base => issueLoad items size 0 false acq none (lanedDst o w mask base) len : M Flow) s = .ok (.next, t) := by
  have hload : issueLoad items size 0 false acq none (lanedDst o w mask base) len {} s = .ok (.next, t) :=
    issueLoad_own h hown hclaim (by rw [cutItems_bytes]; exact hdel)
  split at hbase
  · next hm =>
    subst hbase
    rw [if_pos hm]
    exact (bind_ok (pure_run 0 s)).trans hload
  · next hm =>
    rw [if_neg hm]
    exact (bind_ok hbase).trans hload
end

/-! ### Lane addresses (R121, R122, R144) -/

section
variable {o : Op} {a : BitVec 64} {mask : List Bool}

theorem laneBytes_le (t : Nat) : laneWidth t / 8 ≤ bankBytes := by
  rcases laneWidth_cases t with h | h | h | h <;> rw [h] <;> decide

theorem strideItems_mem {e b : BitVec 64} {n : Nat} {it : Nat × Nat} (h : it ∈ strideItems mask e b n) : it.1 < 2 ^ 64 ∧ it.2 = n := by
  obtain ⟨x, -, rfl⟩ := List.mem_map.mp h
  exact ⟨BitVec.isLt _, rfl⟩

theorem gatherOffsets_mem {ixs : List Nat} {size x : Nat} (hsize : 0 < size) (hx : x ∈ gatherOffsets o a mask ixs size) : x < size := by
  obtain ⟨b, -, rfl⟩ := List.mem_map.mp hx
  exact Nat.mod_lt _ hsize

/-- Lanes that are gathered are of 1, 2 or 4 bytes: lanes of no width there are none. -/
theorem gatherOffsets_lane {v size x : Nat} (hx : x ∈ gatherOffsets o a mask (lanes (laneWidth o.t.toNat) v (lanesOf .core o.t.toNat)) size) :
    laneWidth o.t.toNat / 8 = 1 ∨ laneWidth o.t.toNat / 8 = 2 ∨ laneWidth o.t.toNat / 8 = 4 := by
  rcases laneWidth_cases o.t.toNat with hw | hw | hw | hw <;> rw [hw] at hx ⊢
  · simp [gatherOffsets, lanesOf, hw, lanes, enabledLanes] at hx
  · exact .inl rfl
  · exact .inr (.inl rfl)
  · exact .inr (.inr rfl)
end

/-! ### Where VGATH may reach (R122, R123) -/

section
variable {s : State} {c k x n : Nat}

/-- The own window lies at a multiple of its size and of a lane's bytes. -/
theorem ownWindow_add_mod (hx : x < 2 ^ 17) : (ownWindow + x) % 2 ^ 17 = x := by
  have hwin : ownWindow = 0xFC * 2 ^ 56 := rfl
  rw [hwin]
  omega

theorem ownWindow_add_align (hn : n = 1 ∨ n = 2 ∨ n = 4) : (ownWindow + x) % n = x % n := by
  have hwin : ownWindow = 0xFC * 2 ^ 56 := rfl
  rcases hn with rfl | rfl | rfl <;> omega

/-- A bank that VGATH and VSCAT may reach is an ARRAY bank, and its own (R122). -/
theorem bankUse1_of_gather (h : s.gatherBad c x = false) : s.bankUse1 c x = .array := by
  simp only [State.gatherBad, Bank.spanned, Bool.or_eq_false_iff, bne_eq_false_iff_eq,
    Option.isSome_eq_false_iff, Option.isNone_iff_eq_none] at h
  obtain ⟨⟨hpers, -, hmem⟩, hspan⟩ := h
  simp only [State.bankUse1, hspan, hmem, hpers, Bool.false_eq_true, if_false, BEq.rfl, if_true]

theorem homeOf_of_isGuest (hcur : s.cur = .slot c k) (hg : s.isGuest = false) : s.homeOf c k = (c, k) := by
  have hnone : (s.slot c k).guest = none := by simpa [State.isGuest, hcur] using hg
  rw [State.homeOf, hnone]
  rfl

/-- An aligned offset of the own window that R122 admits lies in an ARRAY bank of the issuing core. -/
theorem ownArray_of_gather (hhome : s.homeOf c k = (c, k)) (hx : x < 2 ^ 17) (hn : n = 1 ∨ n = 2 ∨ n = 4) (hal : x % n = 0)
    (hbad : s.gatherBad c x = false) : s.ownArray c k (ownWindow + x) n := by
  have hfit : x + n ≤ 0x20000 := by rcases hn with rfl | rfl | rfl <;> omega
  have hwin : ownWindow = 0xFC * 2 ^ 56 := rfl
  have hoff := ownWindow_add_mod hx
  have htop : (ownWindow + x) / 2 ^ 56 = 0xFC := by rw [hwin]; omega
  have hmid : bitsOf (ownWindow + x) 55 36 = 0 := by rw [hwin, bitsOf]; omega
  have hlow : bitsOf (ownWindow + x) 35 17 = 0 := by rw [hwin, bitsOf]; omega
  rw [State.ownArray, hoff]
  refine ⟨?_, ?_⟩
  · unfold State.locate
    simp only [htop, hmid, hlow, hoff, hhome, hfit, decide_true, BEq.rfl, Bool.and_self, if_true]
  · have hone : s.bankUse1 c x = .array := bankUse1_of_gather hbad
    have hsame : (x / bankBytes == (x + n - 1) / bankBytes) = true := by
      have hbank : bankBytes = 0x2000 := rfl
      rw [beq_iff_eq, hbank]
      rcases hn with rfl | rfl | rfl <;> omega
    simp only [State.bankUse, hsame, if_true, hone]

theorem waitBpers_ok {items : List (Nat × Nat)} (hb : s.bpersBefore items = false) : waitBpers items s = .ok ((), s) := by
  unfold waitBpers
  rw [bind_ok (getS_run s), hb]
  rfl
end

section
variable {s : State} {c k : Nat} {a : BitVec 64} (h : s.calm c k)
include h

/-- The items of VGATH that R122 admits. -/
theorem gatherItems_ok {offs : List Nat} {n : Nat} (hg : s.isGuest = false) (ha : a.toNat / 2 ^ 17 = 0xFC * 2 ^ 39)
    (hoffs : ∀ x ∈ offs, x % n = 0 ∧ s.gatherBad c x = false) :
    gatherItems a offs n s = .ok (offs.map (fun x => (ownWindow + x, n)), s) := by
  obtain ⟨hcur, -⟩ := id h
  have hwin : (a.toNat / 2 ^ 17 != ownWindow / 2 ^ 17) = false := by rw [ha]; rfl
  have halign : offs.find? (fun x => x % n != 0) = none := List.find?_eq_none.mpr fun x hx => by simp [(hoffs x hx).1]
  have hbank : offs.find? (s.gatherBad c) = none := List.find?_eq_none.mpr fun x hx => by simp [(hoffs x hx).2]
  unfold gatherItems
  rw [hwin, if_neg Bool.false_ne_true, halign]
  refine (bind_ok (getS_run s)).trans ?_
  rw [h.at_eq, homeOf_of_isGuest hcur hg, hbank]
  rfl
end

/-! ### How the loads complete (R140, R143, R144) -/

section
variable {s t : State} {c k : Nat} {o : Op} {a : BitVec 64} (h : s.calm c k)
include h

theorem execPlainLoad_ok {code n count : Nat} {dst : LoadDst} {svc : M Flow} (hr : s.runs code o) (ha : rdReg o.a s = .ok (a, s))
    (ho : s.ownSite c (a + o.i18.signExtend 64).toNat (n * count)) (hn : n * count ≤ bankBytes) (hclaim : claimDst dst s = .ok ((), s))
    (hdel : s.deliver c k dst (s.localRead c ((a + o.i18.signExtend 64).toNat % 2 ^ 17) (n * count)) = some t) :
    runScalar code o (onSvc >>= fun b => if b = true then svc else plainLoad o n count dst) s = .next (t.finish o.len) :=
  runScalar_finish hr.1 hr.2 ((notSvc_run h _ _).trans (plainLoad_own h ha ho hn hclaim hdel))

theorem execVlds_ok {b : BitVec 64} {base : Nat} {items : List (Nat × Nat)} (hr : s.mayRun 0x66 = true)
    (hmask : s.thread.laneMask o (lanesOf .core o.t.toNat) = mask) (ha : rdReg o.a s = .ok (a, s)) (hb : rdReg o.b s = .ok (b, s))
    (hitems : strideItems mask (a + o.i18.signExtend 64) b (laneWidth o.t.toNat / 8) = items)
    (hbase : if mask.all id then base = 0 else oldV o.d s = .ok (base, s)) (ho : ∀ it ∈ items, s.ownSite c it.1 it.2)
    (hclaim : claimDst (lanedDst o (laneWidth o.t.toNat) mask base) s = .ok ((), s))
    (hdel : s.deliver c k (lanedDst o (laneWidth o.t.toNat) mask base)
      (items.flatMap (fun it => s.localRead c (it.1 % 2 ^ 17) it.2)) = some t) :
    execVlds o s = .next (t.finish o.len) := by
  have hown : ∀ it ∈ items, it.2 ≤ bankBytes ∧ s.ownArray c k it.1 it.2 := by
    intro it hit
    obtain ⟨hlt, hn⟩ := strideItems_mem (hitems ▸ hit)
    exact ⟨hn ▸ laneBytes_le _, ownArray_of_ownSite h hlt (ho it hit)⟩
  refine runLanes_finish hr ((bind_ok (getS_run s)).trans ((bind_ok (laneMaskM_run o _ s)).trans ((bind_ok ha).trans
    ((bind_ok hb).trans ((notSvc_run h _ _).trans ?_)))))
  rw [h.prof_eq, hmask, byteOffset_eq, hitems]
  exact (bind_ok (laneSites_own items ho)).trans ((bind_ok (h.watch_ok _ _ _)).trans (lanedLoad_own h hbase hown hclaim hdel))
end

section
variable {s s1 t : State} {c k : Nat} {o : Op} {a : BitVec 64} {mask : List Bool} (h : s1.calm c k)
include h

theorem execVgath_ok {vb base : Nat} {offs : List Nat} (hr : s.mayRun 0xAE = true)
    (hmask : s.thread.laneMask o (lanesOf .core o.t.toNat) = mask) (ha : rdReg o.a s = .ok (a, s))
    (hb : srcV (laneWidth o.t.toNat) (immValue o) o.b s = .ok (vb, s1))
    (hoffs : gatherOffsets o a mask (lanes (laneWidth o.t.toNat) vb (lanesOf .core o.t.toNat)) 0x20000 = offs)
    (hwin : a.toNat / 2 ^ 17 = 0xFC * 2 ^ 39) (hg : s1.isGuest = false)
    (hok : ∀ x ∈ offs, x % (laneWidth o.t.toNat / 8) = 0 ∧ s1.gatherBad c x = false)
    (hbpers : s1.bpersBefore (offs.map (fun x => (ownWindow + x, laneWidth o.t.toNat / 8))) = false)
    (hbase : if mask.all id then base = 0 else oldV o.d s1 = .ok (base, s1))
    (hclaim : claimDst (lanedDst o (laneWidth o.t.toNat) mask base) s1 = .ok ((), s1))
    (hdel : s1.deliver c k (lanedDst o (laneWidth o.t.toNat) mask base)
      ((offs.map (fun x => (ownWindow + x, laneWidth o.t.toNat / 8))).flatMap (fun it => s1.localRead c (it.1 % 2 ^ 17) it.2)) = some t) :
    execVgath o s = .next (t.finish o.len) := by
  obtain ⟨hcur, -⟩ := id h
  have hprof : s.prof = .core := by
    rw [State.prof, ← (srcV_sameAgent hb).1, hcur]
  have hown : ∀ it ∈ offs.map (fun x => (ownWindow + x, laneWidth o.t.toNat / 8)), it.2 ≤ bankBytes ∧ s1.ownArray c k it.1 it.2 := by
    intro it hit
    obtain ⟨x, hx, rfl⟩ := List.mem_map.mp hit
    obtain ⟨halign, hbad⟩ := hok x hx
    subst hoffs
    exact ⟨laneBytes_le _, ownArray_of_gather (homeOf_of_isGuest hcur hg) (gatherOffsets_mem (by decide) hx) (gatherOffsets_lane hx)
      halign hbad⟩
  have hcount : laneCount o s = .ok (lanesOf .core o.t.toNat, s) := by rw [← hprof]; rfl
  refine runLanes_finish hr ((bind_ok hcount).trans ((bind_ok (laneMaskM_run o _ s)).trans ((bind_ok ha).trans
    ((bind_ok hb).trans ((notSvc_run h _ _).trans ?_)))))
  rw [hmask, hoffs]
  exact (bind_ok (gatherItems_ok h hg hwin hok)).trans ((bind_ok (h.watch_ok _ _ _)).trans
    ((bind_ok (waitBpers_ok hbpers)).trans (lanedLoad_own h hbase hown hclaim hdel)))
end

theorem typeBytes_le (o : Op) : typeBytes o ≤ 8 := by
  unfold typeBytes intWidth
  split <;> decide

end Sys2Proof.Machine

open Sys2Proof.Machine

/-- Settles O16: every part of the items lies in an ARRAY bank of the issuing core, so it is read when the instruction issues and the
bytes are delivered at once. That all lanes of VLDS and of VGATH are read in one state is the model's choice (DESIGN CHOICE, log
entry 46). -/
theorem localLoads : Obligations.LocalLoads := by
  unfold Obligations.LocalLoads
  intro o s s1 t c k a b vb hcalm ha
  have htype := typeBytes_le o
  have hbank : bankBytes = 0x2000 := rfl
  refine ⟨?_, ?_, fun base hbase => ⟨?_, ?_⟩⟩
  · rintro rfl
    simp only [List.forall_mem_cons, List.flatMap_singleton]
    refine ⟨?_, ?_, ?_, by simp⟩
    · rintro hr ho ⟨hclaim, hdel⟩
      rw [← Nat.mul_one (typeBytes o)] at ho
      refine execPlainLoad_ok hcalm hr ha ho (by omega) hclaim ?_
      rwa [Nat.mul_one]
    · rintro hr ho ⟨hclaim, hdel⟩
      rw [Nat.mul_comm] at ho hdel
      exact execPlainLoad_ok hcalm hr ha ho (by omega) hclaim hdel
    · rintro hr ho ⟨hclaim, hdel⟩
      exact execPlainLoad_ok (n := 32) (count := 1) hcalm hr ha ho (by decide) hclaim hdel
  · rintro rfl hr ho ⟨hclaim, hdel⟩
    exact execLgld_ok hcalm hr ha ho hclaim hdel
  · rintro rfl hr hb items ho ⟨hclaim, hdel⟩
    exact execVlds_ok hcalm hr rfl ha hb rfl hbase ho hclaim hdel
  · rintro hr hb items hwin hok hg hbpers ⟨hclaim, hdel⟩
    refine execVgath_ok hcalm hr rfl ha hb (by rw [lanes_eq_map]) hwin hg ?_ hbpers hbase hclaim hdel
    intro x hx
    have hlt := gatherOffsets_mem (by decide) hx
    obtain ⟨halign, hbad⟩ := hok (ownWindow + x, laneWidth o.t.toNat / 8) (List.mem_map_of_mem hx)
    rw [← lanes_eq_map] at hx
    rw [ownWindow_add_mod hlt] at hbad
    exact ⟨(ownWindow_add_align (gatherOffsets_lane hx)).symm.trans halign, hbad⟩
end

section
/-! A counterexample to O17: a slot whose lane stores still wait, at the cap of UAS (R23, R266). -/

open Sys2Proof

namespace Sys2Proof.Machine

/-- A lane's remote store, counted in UAS. -/
def waitingLane : StoreReq := { id := 1, pc := 0, addr := 0, op := .scat, dom := 0, chk := .pending, counted := true }

/-- A slot with an empty store queue whose instruction still holds 4,096 counted lane stores: UAS is beyond its cap. It has x1 at an
offset of its own local memory, and x2 = 64. -/
def sLanesWait : State :=
  onSlot { thr := thrOf [(1, 0xFC00000000000040), (2, 64)], status := .ready, pend := some (.stores (List.replicate 4096 waitingLane) 8) }

/-- A store of x2's low 32 bits to [x1]. -/
def oStore : Op := { a := .reg 1, b := .reg 2, t := 1 }

theorem sLanesWait_calm : sLanesWait.calm 0 0 :=
  ⟨rfl, by decide, rfl, rfl, rfl, rfl, quiet_of (by decide +kernel), rfl, by decide +kernel⟩

/-- The store stalls its slot, and nothing enters the queue. -/
theorem sLanesWait_stalls : ∃ t, exec (.st oStore) sLanesWait = .next t ∧ (t.slot 0 0).sq.isEmpty = true :=
  next_of (f := fun t => (t.slot 0 0).sq.isEmpty) (by decide +kernel)

theorem partsOrder_ne_nil {α : Type} (swap : Bool) (x : α) : partsOrder swap [x] ≠ [] := by
  cases swap <;> simp [partsOrder]

end Sys2Proof.Machine

open Sys2Proof.Machine

/-- Refutes O17: the clause for ST, STP, VST and LGST does not require, as the clause for the lanes does, that the slot has no
instruction pending. A slot whose store queue is empty but whose lane stores still wait (log entry 23) counts those in UAS; where UAS
would pass its cap of 4,095 the store stalls (R23), and nothing enters the queue. -/
theorem not_localStores : ¬ Obligations.LocalStores := by
  unfold Obligations.LocalStores
  rintro ⟨hplain, -⟩
  obtain ⟨hst, -⟩ := hplain oStore sLanesWait sLanesWait sLanesWait 0 0 0xFC00000000000040 64 0 0
  obtain ⟨t, hnext, ⟨swap, hsq⟩, -⟩ := hst (runs_of (by decide +kernel)) rfl sLanesWait_calm rfl rfl
  obtain ⟨u, hstall, hempty⟩ := sLanesWait_stalls
  obtain rfl : t = u := by simpa using hnext.symm.trans hstall
  rw [List.isEmpty_iff.mp hempty] at hsq
  exact partsOrder_ne_nil swap _ (List.map_eq_nil_iff.mp hsq.symm)
end

section
/-! Bank instructions on a bank of the issuing core (R127, R131-R134, R147-R151): once the operands are read and every wait is met, an
instruction is one operation of its bank. -/

open Sys2Proof

namespace Sys2Proof.Machine

/-! ### Steps that only some instructions take -/

section
variable {α β : Type} {s t : State} {a : α} {b : Bool} {m n : M α} {f : α → M β}

theorem ite_bind_run (h : (if b = true then m else n) s = .ok (a, t)) : (if b = true then m >>= f else n >>= f) s = f a t := by
  cases b
  · exact bind_ok h
  · exact bind_ok h

/-- A step that changes nothing may as well be left out. -/
theorem ite_bind_skip (h : b = true → m s = .ok (a, s)) : (if b = true then m >>= f else f a) s = f a s := by
  cases b
  · rfl
  · exact bind_ok (h rfl)
end

/-! ### What a calm slot's bank operation waits for (R134, R162, R265, R332) -/

/-- Where no data is in error, a bank operation is performed as R131 says. -/
theorem State.bankPerform_of_poison {s : State} (h : s.poison = []) (q : BankReq) : s.bankPerform q = s.bankOp q := by
  have hgood : s.bankReadsBad q = false := by simp [State.bankReadsBad, h]
  unfold State.bankPerform
  rw [hgood]
  split
  · next heq => rw [heq]; rfl
  · next heq => rw [heq]

section
variable {s : State} {c k : Nat} (h : s.calm c k)
include h

theorem State.calm.bankHeld_eq (d b : Nat) : s.bankHeld d b = false := by
  obtain ⟨-, -, -, -, -, -, hcores, -, -⟩ := h
  simp [State.bankHeld, Core.held, hcores]

theorem State.calm.ownWait_ok (lo n : Nat) : ownWait lo n s = .ok ((), s) := by
  obtain ⟨-, -, hsq, hcomb, -, hun, -, -, -⟩ := id h
  unfold ownWait
  rw [h.at_eq]
  simp [Slot.storeOverlap, hsq, hcomb, hun, h.localHeld_eq]

theorem State.calm.ownGood_ok (lo n : Nat) (a : BitVec 64) : ownGood lo n a s = .ok ((), s) := by
  unfold ownGood
  rw [h.localPoison_eq]
  rfl
end

/-! ### One operation at the own bank -/

/-- The depth table that an image names is read at once. -/
theorem depthsRead_skip {s : State} {c k : Nat} {jp : Unit → M Flow} (h : s.calm c k) (table : Option Nat) (b : Bool) (e : BitVec 64) :
    (match table with
      | some base => if b = true then ownWait base 32 >>= fun _ => ownGood base 32 e >>= jp else jp ()
      | none => jp ()) s = jp () s := by
  cases table with
  | none => rfl
  | some base =>
    cases b
    · rfl
    · exact (bind_ok (h.ownWait_ok _ _)).trans (bind_ok (h.ownGood_ok _ _ _))

/-- The request that a bank instruction makes of a bank of its own core c, with the operands that it read. -/
def ownBankReq (code : Nat) (o : Op) (s : State) (c k off vd : Nat) (a b din : BitVec 64) : BankReq :=
  { core := c, bank := off / bankBytes, off := off % bankBytes, code, addr := a + o.i18.signExtend 64, din, bv := b, wide := o.m.getLsbD 0,
    vdata := if code == 0xB0 then s.depthTable b.toNat else vd, detach := o.m.getLsbD 1, km := (s.slot c k).km,
    own := c == (s.homeOf c k).1 }

/-- How an instruction with destinations d and cc ends with what its operation answers (R133, R147). -/
def bankAnswer (c k d cc : Nat) (wide : Bool) : Except (Cause × BitVec 64) (BankRes × State) → Except Stop (Flow × State)
  | .error (cause, v) => .error (.trap cause v)
  | .ok (r, s) => .ok (.next, s.modSlot c k (·.bankResult d cc wide r.keepD r))

/-- With its operands read and its destinations free, a bank instruction on its own core is one operation of the bank. -/
theorem bankInstr_own {code : Nat} {o : Op} {s s1 : State} {c k off vd : Nat} {a b din : BitVec 64} {wideD : Bool} (h : s1.calm c k)
    (hr : s.runs code o) (hwide : (o.m.getLsbD 0 && (code == 0xB4 || code == 0xB5)) = wideD) (hhome : code = 0xBB → s.isGuest = false)
    (ha : rdReg o.a s = .ok (a, s)) (hb : bankB o (o.m.getLsbD 0 && code == 0xB2) s = .ok ((b, vd), s1))
    (hd : if readsD code = true then rdX (regNum o.d) s1 = .ok (din, s1) else din = 0)
    (hsite : bankSite (a + o.i18.signExtend 64) s1 = .ok ((s1.ownDev, c, off), s1))
    (hclaimD : claimDst (if wideD = true then .v (regNum o.d) else .x (regNum o.d) 8) s1 = .ok ((), s1))
    (hclaimC : claimX (regNum o.c) s1 = .ok ((), s1))
    (hbusy : code = 0xB0 → (s1.core c).bankBusy c s1.ownDev (off / 0x2000) = false ∧
      s1.lanesAt c (off / 0x2000) (fun _ _ => true) (fun _ => true) = false) :
    bankInstr code o s = .next (s.conclude o.len
      (bankAnswer c k (regNum o.d) (regNum o.c) wideD (s1.bankOp (ownBankReq code o s1 c k off vd a b din)))) := by
  obtain ⟨-, -, -, -, -, -, -, hpoison, -⟩ := id h
  subst hwide
  have hnotBusy : (code == 0xB0 && ((s1.core c).bankBusy c s1.ownDev (off / bankBytes) ||
      s1.lanesAt c (off / bankBytes) (fun _ _ => true) (fun _ => true))) = false := by
    rw [Bool.and_eq_false_imp]
    intro hcode
    obtain ⟨hqueued, hlanes⟩ := hbusy (beq_iff_eq.mp hcode)
    exact Bool.or_eq_false_iff.mpr ⟨hqueued, hlanes⟩
  rw [bankInstr, runScalar_run hr.1 hr.2]
  refine congrArg (fun x => (Host.Outcome.next (s.conclude o.len x) : Host.Outcome State Fault Refusal)) ?_
  refine (ite_bind_skip (a := ()) fun hc => homeOnly_run (hhome (beq_iff_eq.mp hc))).trans ?_
  refine (bind_ok (curCore_run s)).trans ((bind_ok ha).trans ((bind_ok hb).trans ((bind_ok (curCore_run s1)).trans ?_)))
  refine (ite_bind_run (a := din) (t := s1) ?din).trans ?_
  case din =>
    split at hd
    · next hreads => rw [if_pos hreads]; exact hd
    · next hreads => rw [if_neg hreads, hd]; rfl
  rw [byteOffset_eq]
  refine (bind_ok hsite).trans ((ite_bind_run (a := ()) (t := s1) ?claim).trans ?_)
  case claim =>
    split at hclaimD
    · next hw => rw [if_pos hw]; exact hclaimD
    · next hw => rw [if_neg hw]; exact hclaimD
  refine (bind_ok hclaimC).trans ((bind_ok (getS_run s1)).trans ((bind_ok (h.loadOrder_ok _ _ _)).trans ?_))
  refine (depthsRead_skip h _ _ _).trans ((bind_ok (getS_run s1)).trans ?_)
  simp only [h.at_eq, BEq.rfl, Bool.true_and, if_true, h.bankHeld_eq, hnotBusy, Bool.false_eq_true, if_false,
    State.bankPerform_of_poison hpoison, ownBankReq]
  generalize hop : s1.bankOp _ = answer
  cases answer with
  | error e => rfl
  | ok r =>
    refine (bind_ok (h.watch_ok _ _ _)).trans ((bind_ok (getS_run s1)).trans ?_)
    simp only [State.bankPerform_of_poison hpoison, hop]
    rfl

/-- The bank instructions differ in their opcode alone. -/
theorem exec_bankTable : ∀ x ∈ bankTable, ∀ o s, exec (x.1 o) s = bankInstr x.2 o s := by
  simp only [bankTable, List.forall_mem_cons]
  exact ⟨fun _ _ => rfl, fun _ _ => rfl, fun _ _ => rfl, fun _ _ => rfl, fun _ _ => rfl, fun _ _ => rfl, fun _ _ => rfl, fun _ _ => rfl,
    fun _ _ => rfl, fun _ _ => rfl, fun _ _ => rfl, fun _ _ => rfl, fun _ hx => absurd hx List.not_mem_nil⟩

end Sys2Proof.Machine

open Sys2Proof.Machine

/-- Settles O27: with the operands read and no wait left, every bank instruction is one operation of its bank, whose answer it writes or
whose fault it raises. -/
theorem bankInstructions : Obligations.BankInstructions := by
  unfold Obligations.BankInstructions
  intro x hx o s s1 c k off vd a b din hcalm hr wide wideD d e q hhome ha hb hd hsite hclaimD hclaimC hbusy
  have hanswer := bankInstr_own hcalm hr rfl hhome ha hb hd hsite hclaimD hclaimC hbusy
  rw [← exec_bankTable x hx] at hanswer
  have hreq : ownBankReq x.2 o s1 c k off vd a b din = q := by
    simp only [ownBankReq, beq_iff_eq]
    rfl
  rw [hreq] at hanswer
  refine ⟨fun r s2 hop => ?_, fun cause v hop => ?_⟩
  · rw [hanswer, hop]
    rfl
  · rw [hanswer, hop]
    rfl
end

section
/-! Bank operations and BSPAN of another core (R127, R134, R152): performed as they arrive at their bank, answered, and completed by the
answer. -/

open Sys2Proof

namespace Sys2Proof.Machine

/-! ### Requests and answers on the network -/

section
variable {s : State} {i : Nat} {p : Packet}

theorem execRemoteBankOpArrival_bank {rid code off : Nat} {addr din bv : BitVec 64} {wide detach km own : Bool} {vdata : BitVec 256}
    (hp : s.packetAt i = some p) (hbody : p.body = .bank rid code addr din bv wide vdata detach km own off)
    (hmay : s.mayArrive i p = true) :
    exec (.remoteBankOpArrival i) s = .next (s.bankArrives i p rid code addr din bv wide vdata detach km own off) := by
  rw [exec_remoteBankOpArrival, execRemoteBankOpArrival, State.onPacket, hp]
  simp only [hbody, hmay, if_true]

theorem execRemoteBankOpArrival_bspan {rid off : Nat} {addr : BitVec 64} {names : List SpanName} {km own : Bool}
    (hp : s.packetAt i = some p) (hbody : p.body = .bspan rid addr names km own off) (hmay : s.mayArrive i p = true) :
    exec (.remoteBankOpArrival i) s = .next (s.spanArrives i p rid addr names km own off) := by
  rw [exec_remoteBankOpArrival, execRemoteBankOpArrival, State.onPacket, hp]
  simp only [hbody, hmay, if_true]

theorem execBankOpReply_bankReply {rid : Nat} {r : Answer (BitVec 64 × BitVec 256 × BitVec 3 × Bool × List (BitVec 64))}
    (hp : s.packetAt i = some p) (hbody : p.body = .bankReply rid r) :
    exec (.bankOpReply i) s = .next (s.bankReplied i p.core p.slot rid r) := by
  rw [exec_bankOpReply, execBankOpReply, State.onPacket, hp]
  simp only [hbody]

/-- Whatever lies on the network, memory is the same. -/
theorem State.sameMemory_setNet (s : State) (net : List Packet) : s.sameMemory { s with net } :=
  ⟨fun _ => ⟨rfl, rfl, rfl⟩, fun _ => ⟨rfl, rfl⟩, rfl, rfl, rfl⟩

/-- A request that has been answered leaves the network, and its answer is the newest packet there. -/
theorem State.dropPacket_reply (s : State) (i : Nat) (p : Packet) (b : Body) : ∃ q : Packet,
    (s.dropPacket i).reply p b = { s with net := ldel s.net i ++ [q] } ∧ q.core = p.src.1 ∧ q.slot = p.src.2 ∧ q.body = b :=
  ⟨_, rfl, rfl, rfl, rfl⟩
end

theorem State.sameMemory_modSlot (s : State) (c k : Nat) (f : Slot → Slot) : s.sameMemory (s.modSlot c k f) :=
  ⟨fun _ => ⟨State.core_modSlot_mem .., State.core_modSlot_leg .., State.core_modSlot_l1 ..⟩, fun _ => ⟨rfl, rfl⟩, rfl, rfl, rfl⟩

/-! ### At the bank (R134, R152) -/

/-- The request that a packet to a bank of core c carries. -/
def farBankReq (c code off : Nat) (addr din bv : BitVec 64) (wide : Bool) (vdata : BitVec 256) (detach km own : Bool) : BankReq :=
  { core := c, bank := off / 0x2000, off := off % 0x2000, code, addr, din, bv, wide, vdata := vdata.toNat, detach, km, own }

section
variable {s s1 : State} {i rid off : ℕ} {p : Packet} {addr : BitVec 64} {km own : Bool}

theorem bankArrives_performed {code : Nat} {din bv : BitVec 64} {wide detach : Bool} {vdata : BitVec 256} {r : BankRes}
    (hdev : p.dev = s.ownDev) (hlost : s.isLost p.dev = false) (hheld : s.bankHeld p.core (off / 0x2000) = false)
    (hbusy : code = 0xB0 → (s.core p.core).bankBusy p.core s.ownDev (off / 0x2000) = false ∧
      s.lanesAt p.core (off / 0x2000) (fun j x => j < i || x.src.1 != p.src.1) (fun _ => true) = false)
    (hop : s.bankPerform (farBankReq p.core code off addr din bv wide vdata detach km own) = .ok (r, s1)) :
    s.bankArrives i p rid code addr din bv wide vdata detach km own off = (s1.dropPacket i).reply p
      (.bankReply rid (.ok (if r.keepD then din else r.d, BitVec.ofNat 256 r.v, BitVec.ofNat 3 r.status, r.sat, r.latch))) := by
  have hfree : (code == 0xB0 && ((s.core p.core).bankBusy p.core s.ownDev (off / bankBytes) ||
      s.lanesAt p.core (off / bankBytes) (fun j x => j < i || x.src.1 != p.src.1) (fun _ => true))) = false := by
    rw [Bool.and_eq_false_imp]
    intro hcode
    obtain ⟨hqueued, hlanes⟩ := hbusy (beq_iff_eq.mp hcode)
    exact Bool.or_eq_false_iff.mpr ⟨hqueued, hlanes⟩
  have hown : (p.dev != s.ownDev) = false := by rw [hdev]; exact bne_self_eq_false _
  have hbank : bankBytes = 0x2000 := rfl
  rw [hbank] at hfree
  rw [farBankReq] at hop
  simp only [State.bankArrives, hbank, hlost, hown, hheld, hfree, hop, Bool.false_eq_true, if_false]

theorem spanArrives_composed {names : List SpanName} {ms : List (Nat × Nat)}
    (hcheck : s.spanCheck (s.teamOf p.src.1 p.src.2) p.core (off / 0x2000) names addr km own = .ok ms) (hheld : s.spanHeld ms = false) :
    s.spanArrives i p rid addr names km own off = ((s.compose p.core (off / 0x2000) ms).2.dropPacket i).reply p
      (.bankReply rid (.ok (BitVec.ofNat 64 (s.compose p.core (off / 0x2000) ms).1, 0, 0, false, []))) := by
  change s.spanCheck (s.teamOf p.src.1 p.src.2) p.core (off / bankBytes) names addr km own = .ok ms at hcheck
  simp only [State.spanArrives, hcheck, hheld, Bool.false_eq_true, if_false]
  rfl
end

/-! ### At the slot that waits (R127, R133) -/

section
variable {sl : Slot} {d c : Nat} {r : BankRes}

/-- What an answer without latches and without a saturation writes: D, then C. -/
theorem Slot.bankResult_thr (hlatch : r.latch = []) (hsat : r.sat = false) : (sl.bankResult d c false false r).thr =
    (sl.thr.setX d r.d).setX c (BitVec.ofNat 64 r.status) := by
  simp [Slot.bankResult, Slot.clearPoison, hlatch, hsat]

theorem Thread.getX_setX_eq (t : Thread) {n : Nat} (v : BitVec 64) (h : n < 32) : (t.setX n v).getX n = if n = 0 then 0 else v := by
  split
  · next h0 => rw [h0, Thread.getX_zero]
  · next h0 => exact t.getX_setX n v h0 h
end

/-- A slot that resumes moves on by a length; its registers are as they were. -/
theorem Slot.resume_thr (sl : Slot) (len : Nat) : (sl.resume len).thr = { sl.thr with pc := sl.thr.pc + BitVec.ofNat 64 len } := rfl

theorem Thread.getX_setPc (t : Thread) (pc : BitVec 64) (n : Nat) : ({ t with pc := pc } : Thread).getX n = t.getX n := rfl

section
variable {s : State} {i c k rid d cc len : Nat} {dv : BitVec 64} {v : BitVec 256} {st : BitVec 3} {undo : Popped}

theorem bankReplied_completes (hpend : (s.slot c k).pend = some (.bank rid d cc false len undo)) :
    s.bankReplied i c k rid (.ok (dv, v, st, false, [])) = (s.dropPacket i).modSlot c k (fun x =>
      (x.bankResult d cc false false { status := st.toNat, d := dv, v := v.toNat }).resume len) := by
  simp only [State.bankReplied, hpend, bne_self_eq_false, Bool.false_eq_true, if_false]
end

end Sys2Proof.Machine

open Sys2Proof.Machine

/-- Settles O30: the request that arrives is one operation of its bank, its answer goes back to the slot that waits, and there it writes
D and C and moves the slot past its instruction. -/
theorem remoteBankOperations : Obligations.RemoteBankOperations := by
  unfold Obligations.RemoteBankOperations
  refine ⟨?perform, ?compose, ?reply⟩
  case perform =>
    intro s s1 i rid code off p addr din bv wide detach km own vdata r hp hbody hmay hdev hlost hheld hbusy hop
    obtain ⟨q, heq, hcore, hslot, hq⟩ := s1.dropPacket_reply i p (.bankReply rid (.ok
      (if r.keepD then din else r.d, BitVec.ofNat 256 r.v, BitVec.ofNat 3 r.status, r.sat, r.latch)))
    refine ⟨{ s1 with net := ldel s1.net i ++ [q] }, q, ?_, rfl, hcore, hslot, hq, s1.sameMemory_setNet _⟩
    rw [execRemoteBankOpArrival_bank hp hbody hmay, bankArrives_performed hdev hlost hheld hbusy hop, heq]
  case compose =>
    intro s i rid off p addr names km own ms hp hbody hmay hcheck hheld r
    obtain ⟨q, heq, hcore, hslot, hq⟩ := r.2.dropPacket_reply i p (.bankReply rid (.ok (BitVec.ofNat 64 r.1, 0, 0, false, [])))
    refine ⟨{ r.2 with net := ldel r.2.net i ++ [q] }, q, ?_, rfl, hcore, hslot, hq, rfl⟩
    rw [execRemoteBankOpArrival_bspan hp hbody hmay, spanArrives_composed hcheck hheld, heq]
  case reply =>
    intro s i rid d cc len p dv v st undo hp hbody hk hpend hd hcc hne
    refine ⟨_, (execBankOpReply_bankReply hp hbody).trans (congrArg _ (bankReplied_completes hpend)), rfl, ?_⟩
    rw [State.slot_modSlot _ _ _ _ hk]
    refine ⟨rfl, ?_, ?_, ?_, State.sameMemory_trans (s.sameMemory_setNet _) (State.sameMemory_modSlot _ _ _ _)⟩
    all_goals rw [Slot.resume_thr, Slot.bankResult_thr rfl rfl]
    · rw [Thread.getX_setPc, Thread.getX_setX_ne _ _ hne, Thread.getX_setX_eq _ _ hd]
    · rw [Thread.getX_setPc, Thread.getX_setX_eq _ _ hcc, BitVec.ofNat_toNat]
    · rw [Thread.setX_pc, Thread.setX_pc]
      rfl
end

section
/-! Banks (R128-R139): what the updates of a bank's controller, bytes and legends leave as they were, and the words of a bank's bytes. -/

open Sys2Proof

namespace Sys2Proof.Machine

/-! ### Controllers -/

section
variable {α : Type}

/-- What an update of a core keeps of that core, it keeps of every core. -/
theorem State.core_modCore_keeps (π : Core → α) (s : State) {c : Nat} {f : Core → Core} (h : π (f (s.core c)) = π (s.core c)) (d : Nat) :
    π ((s.modCore c f).core d) = π (s.core d) := by
  by_cases hd : d = c
  · subst hd
    rw [s.core_modCore, h]
  · rw [s.core_modCore_ne f hd]
end

section
variable (s : State) (c b : Nat) (f : Bank → Bank)

@[simp] theorem State.mem_modBank (d : Nat) : ((s.modBank c b f).core d).mem = (s.core d).mem :=
  s.core_modCore_keeps Core.mem (by rfl) d

@[simp] theorem State.leg_modBank (d : Nat) : ((s.modBank c b f).core d).leg = (s.core d).leg :=
  s.core_modCore_keeps Core.leg (by rfl) d

@[simp] theorem State.bank_modBank (h : b < 16) : (s.modBank c b f).bank c b = f (s.bank c b) := by
  rw [State.bank, State.modBank, State.core_modCore, Core.bank, Core.setBank, vget_vput_same _ _ _ _ h]
  rfl

theorem State.bank_modBank_ne {d a : Nat} (h : (d, a) ≠ (c, b)) : (s.modBank c b f).bank d a = s.bank d a := by
  by_cases hd : d = c
  · subst hd
    rw [State.bank, State.modBank, State.core_modCore, Core.bank, Core.setBank, vget_vput_ne _ _ _ fun hab => h (by rw [hab])]
    rfl
  · rw [State.bank, State.modBank, State.core_modCore_ne _ _ hd]
    rfl
end

/-- An update of a core that keeps its controllers keeps every controller. -/
theorem State.bank_modCore_keeps (s : State) {c : Nat} {f : Core → Core} (h : (f (s.core c)).banks = (s.core c).banks) (d a : Nat) :
    (s.modCore c f).bank d a = s.bank d a :=
  congrArg (fun banks : Vector Bank 16 => vget ({} : Bank) banks a) (s.core_modCore_keeps Core.banks h d)

/-! ### Wiped ranges (R61, R151) -/

theorem aget_wipeRange {α : Type} (d : α) (m : List (Nat × α)) (lo hi a : Nat) :
    aget d (wipeRange m lo hi) a = if lo ≤ a ∧ a < hi then d else aget d m a := by
  induction m with
  | nil => split <;> rfl
  | cons e r ih =>
    obtain ⟨k, v⟩ := e
    by_cases hk : lo ≤ k ∧ k < hi
    · have hout : wipeRange ((k, v) :: r) lo hi = wipeRange r lo hi := by
        rw [wipeRange, List.filter_cons_of_neg (by simp only [Bool.or_eq_true, decide_eq_true_eq]; omega), wipeRange]
      rw [hout, ih, aget]
      split
      · rfl
      · next ha => rw [if_neg (show ¬ k = a from fun e => ha (e ▸ hk))]
    · have hin : wipeRange ((k, v) :: r) lo hi = (k, v) :: wipeRange r lo hi := by
        rw [wipeRange, List.filter_cons_of_pos (by simp only [Bool.or_eq_true, decide_eq_true_eq]; omega), wipeRange]
      rw [hin, aget, aget, ih]
      by_cases ha : k = a
      · subst ha
        rw [if_pos rfl, if_pos rfl, if_neg hk]
      · rw [if_neg ha, if_neg ha]

/-- Bank b of a bank's worth of n places each holds place a just where a lies in its range. -/
theorem div_eq_iff_range {a b n : Nat} (hn : 0 < n) : a / n = b ↔ b * n ≤ a ∧ a < (b + 1) * n := by
  rw [Nat.div_eq_iff hn]
  have := Nat.add_one_mul b n
  omega

section
variable (s : State) (c b : Nat)

theorem State.read_wipeBank (d a : Nat) :
    Mem.read ((s.wipeBank c b).core d).mem a = if (c, b) = (d, a / 0x2000) then 0 else Mem.read (s.core d).mem a := by
  have hrange := div_eq_iff_range (a := a) (b := b) (show 0 < 0x2000 by decide)
  by_cases hd : d = c
  · subst hd
    rw [State.wipeBank, State.core_modCore, Mem.read, aget_wipeRange]
    simp only [Prod.mk.injEq, true_and, eq_comm (a := b), hrange]
    rfl
  · rw [State.wipeBank, State.core_modCore_ne _ _ hd, if_neg fun e => hd (Prod.mk.inj e).1.symm]

theorem State.read_wipeLegends (d j : Nat) :
    LegMap.read ((s.wipeLegends c b).core d).leg j = if (c, b) = (d, j / 128) then 0 else LegMap.read (s.core d).leg j := by
  have hrange := div_eq_iff_range (a := j) (b := b) (show 0 < 128 by decide)
  by_cases hd : d = c
  · subst hd
    rw [State.wipeLegends, State.core_modCore, LegMap.read, aget_wipeRange]
    simp only [Prod.mk.injEq, true_and, eq_comm (a := b), hrange]
    rfl
  · rw [State.wipeLegends, State.core_modCore_ne _ _ hd, if_neg fun e => hd (Prod.mk.inj e).1.symm]
end

/-! ### Fresh banks (R151) -/

section
variable (s : State) (c b : Nat) (ctl : BitVec 64) (depths : List Nat)

theorem State.bank_freshBank (h : b < 16) : (s.freshBank c b ctl depths).bank c b =
    { ctl, depths, heads := depths.map (fun _ => 0), counts := depths.map (fun _ => 0), hdrs := depths.map (fun _ => []) } :=
  State.bank_modBank _ c b _ h

theorem State.bank_freshBank_ne {d a : Nat} (h : (d, a) ≠ (c, b)) : (s.freshBank c b ctl depths).bank d a = s.bank d a := by
  rw [State.freshBank, State.bank_modBank_ne _ _ _ _ h]
  exact (State.bank_modCore_keeps _ (by rfl) d a).trans (State.bank_modCore_keeps _ (by rfl) d a)

theorem State.read_freshBank (d a : Nat) : Mem.read ((s.freshBank c b ctl depths).core d).mem a =
    if (c, b) = (d, a / 0x2000) then 0 else Mem.read (s.core d).mem a := by
  rw [State.freshBank, State.mem_modBank, ← s.read_wipeBank]
  exact congrArg (Mem.read · a) (State.core_modCore_keeps Core.mem _ (by rfl) d)

theorem State.readLegend_freshBank (d j : Nat) : LegMap.read ((s.freshBank c b ctl depths).core d).leg j =
    if (c, b) = (d, j / 128) then 0 else LegMap.read (s.core d).leg j := by
  rw [State.freshBank, State.leg_modBank, State.read_wipeLegends]
  have hleg : ((s.wipeBank c b).core d).leg = (s.core d).leg := State.core_modCore_keeps Core.leg _ (by rfl) d
  rw [hleg]
end

/-! ### Words (R8) -/

theorem Mem.readN_eq_map (m : Mem) (a n : Nat) : m.readN a n = (List.range n).map (fun i => m.read (a + i)) := by
  induction n generalizing a with
  | zero => rfl
  | succ n ih =>
    rw [Mem.readN, ih, List.range_succ_eq_map, List.map_cons, List.map_map]
    simp only [Function.comp_def, Nat.add_zero, Nat.succ_eq_add_one, Nat.add_assoc, Nat.add_comm 1]

theorem Mem.word_lt (m : Mem) (a n : Nat) : m.word a n < 256 ^ n := by
  have hlt := bytesToNat_lt (m.readN a n)
  rwa [Mem.readN_eq_map, List.length_map, List.length_range, ← Mem.readN_eq_map] at hlt

theorem Mem.word_setWord_same (m : Mem) (a n v : Nat) (h : Memory.wf m = true) : (m.setWord a n v).word a n = v % 256 ^ n := by
  rw [← bytesToNat_natToBytes, Mem.word, Mem.readN_eq_map]
  refine congrArg bytesToNat (List.ext_getElem (by simp) fun i hi hi' => ?_)
  rw [List.getElem_map, List.getElem_range, Mem.setWord, Mem.read_writeN_inside _ _ _ _ h hi']

theorem Mem.word_setWord_disjoint (m : Mem) {a n c k : Nat} (v : Nat) (h : c + k ≤ a ∨ a + n ≤ c) :
    (m.setWord a n v).word c k = m.word c k := by
  rw [Mem.word, Mem.word, Mem.readN_eq_map, Mem.readN_eq_map]
  refine congrArg bytesToNat (List.map_congr_left fun i hi => ?_)
  rw [List.mem_range] at hi
  exact Mem.read_writeN_outside _ _ _ _ (by rw [length_natToBytes]; omega)

section
variable (s : State) (c b : Nat)

@[simp] theorem State.bank_setBankWord (off n v d a : Nat) : (s.setBankWord c b off n v).bank d a = s.bank d a :=
  State.bank_modCore_keeps s (by rfl) d a

@[simp] theorem State.bankWord_modBank (f : Bank → Bank) (d a o n : Nat) : (s.modBank c b f).bankWord d a o n = s.bankWord d a o n := by
  rw [State.bankWord, State.mem_modBank]
  rfl

theorem State.bankWord_lt (off n : Nat) : s.bankWord c b off n < 256 ^ n := Mem.word_lt _ _ _

theorem State.mem_setBankWord (off n v : Nat) :
    ((s.setBankWord c b off n v).core c).mem = Mem.setWord (s.core c).mem (b * 0x2000 + off) n v := by
  rw [State.setBankWord, State.core_modCore]
  rfl

theorem State.wf_setBankWord (h : Memory.wf (s.core c).mem = true) (off n v : Nat) :
    Memory.wf ((s.setBankWord c b off n v).core c).mem = true := by
  rw [State.mem_setBankWord]
  exact Memory.wf_setWord _ _ _ _ h

theorem State.bankWord_setBankWord_same (h : Memory.wf (s.core c).mem = true) (off n v : Nat) :
    (s.setBankWord c b off n v).bankWord c b off n = v % 256 ^ n := by
  rw [State.bankWord, State.mem_setBankWord]
  exact Mem.word_setWord_same _ _ _ _ h

theorem State.bankWord_setBankWord_disjoint {off n o k : Nat} (v : Nat) (h : o + k ≤ off ∨ off + n ≤ o) :
    (s.setBankWord c b off n v).bankWord c b o k = s.bankWord c b o k := by
  rw [State.bankWord, State.mem_setBankWord]
  exact Mem.word_setWord_disjoint _ _ (by change b * 0x2000 + o + k ≤ _ ∨ _ ≤ b * 0x2000 + o; omega)

/-- A bank that is in no span is its own only member. -/
theorem State.members_of_unspanned (h : (s.bank c b).span = none) : s.members c b = [(c, b)] := by
  rw [State.members, h]
end

/-- Places of z bytes each do not overlap. -/
theorem place_disjoint {z i j : Nat} (h : i ≠ j) : z * i + z ≤ z * j ∨ z * j + z ≤ z * i := by
  rw [← Nat.mul_succ, ← Nat.mul_succ]
  rcases Nat.lt_or_gt_of_ne h with h | h
  · exact .inl (Nat.mul_le_mul_left z h)
  · exact .inr (Nat.mul_le_mul_left z h)

end Sys2Proof.Machine
end

section
/-! BSPAN (R127, R152, R153): what composing a span makes of its members and leaves of the rest, and how the instruction comes to it or
sends it to the master's core. -/

open Sys2Proof

namespace Sys2Proof.Machine

/-! ### BANKCTL of a span's members (R128) -/

section
variable (v : BitVec 64)

theorem getLsbD_eq_div (i : Nat) : v.getLsbD i = decide (v.toNat / 2 ^ i % 2 = 1) := by
  rw [BitVec.getLsbD, Nat.testBit_eq_decide_div_mod_eq]

/-- The master's image: SPMS set, SPIX 0, the other bits as they were. -/
theorem toNat_masterCtl : (setBits (setBits v 9 9 1) 8 5 0).toNat =
    v.toNat % 2 ^ 5 + 2 ^ 9 + v.toNat / 2 ^ 10 * 2 ^ 10 := by
  have hv := v.isLt
  simp only [setBits, BitVec.toNat_ofNat]
  omega

/-- The image of member i: SPM set, SPIX i, the other bits as the master's. -/
theorem toNat_memberCtl {i : Nat} (hi : i < 16) : (setBits (setBits v 10 10 1) 8 5 i).toNat =
    v.toNat % 2 ^ 5 + i * 2 ^ 5 + v.toNat / 2 ^ 9 % 2 * 2 ^ 9 + 2 ^ 10 + v.toNat / 2 ^ 11 * 2 ^ 11 := by
  have hv := v.isLt
  simp only [setBits, BitVec.toNat_ofNat]
  omega
end

/-! ### One member joins (R152) -/

/-- What a bank becomes as member ix of a span whose master holds x, and is named `master`. -/
def joinedBank (x : Bank) (master : Nat × Nat) (ix : Nat) : Bank :=
  { ctl := setBits (setBits x.ctl 10 10 1) 8 5 ix, depths := x.depths, heads := x.depths.map (fun _ => 0),
    counts := x.depths.map (fun _ => 0), hdrs := x.depths.map (fun _ => []), master := some master }

/-- A bank joins the span at its place e.2 in the list. -/
def State.join (x : Bank) (master : Nat × Nat) (s : State) (e : (Nat × Nat) × Nat) : State :=
  (s.freshBank e.1.1 e.1.2 (setBits (setBits x.ctl 10 10 1) 8 5 e.2) x.depths).modBank e.1.1 e.1.2 (fun y => { y with master := some master })

section
variable (x : Bank) (master : Nat × Nat) (s : State) (e : (Nat × Nat) × Nat)

theorem State.bank_join (h : e.1.2 < 16) : (s.join x master e).bank e.1.1 e.1.2 = joinedBank x master e.2 := by
  rw [State.join, State.bank_modBank _ _ _ _ h, State.bank_freshBank _ _ _ _ _ h]
  rfl

theorem State.bank_join_ne {d a : Nat} (h : (d, a) ≠ e.1) : (s.join x master e).bank d a = s.bank d a := by
  rw [State.join, State.bank_modBank_ne _ _ _ _ h, State.bank_freshBank_ne _ _ _ _ _ h]

theorem State.read_join (d a : Nat) :
    Mem.read ((s.join x master e).core d).mem a = if e.1 = (d, a / 0x2000) then 0 else Mem.read (s.core d).mem a := by
  rw [State.join, State.mem_modBank, State.read_freshBank]

theorem State.readLegend_join (d j : Nat) :
    LegMap.read ((s.join x master e).core d).leg j = if e.1 = (d, j / 128) then 0 else LegMap.read (s.core d).leg j := by
  rw [State.join, State.leg_modBank, State.readLegend_freshBank]
end

/-! ### Every member joins -/

section
variable {x : Bank} {master : Nat × Nat}

theorem State.teams_joins (s : State) (l : List ((Nat × Nat) × Nat)) : (l.foldl (State.join x master) s).teams = s.teams := by
  induction l generalizing s with
  | nil => rfl
  | cons e l ih => exact ih (s.join x master e)

theorem State.bank_joins_of_not_mem (s : State) {l : List ((Nat × Nat) × Nat)} {d a : Nat} (h : (d, a) ∉ l.map Prod.fst) :
    (l.foldl (State.join x master) s).bank d a = s.bank d a := by
  induction l generalizing s with
  | nil => rfl
  | cons e l ih =>
    rw [List.map_cons, List.mem_cons, not_or] at h
    rw [List.foldl_cons, ih _ h.2, State.bank_join_ne _ _ _ _ h.1]

/-- Each bank of the list is a member at its place: none later in the list undoes it. -/
theorem State.bank_joins (s : State) {l : List ((Nat × Nat) × Nat)} (hnodup : (l.map Prod.fst).Nodup) (h16 : ∀ e ∈ l, e.1.2 < 16)
    {e : (Nat × Nat) × Nat} (he : e ∈ l) : (l.foldl (State.join x master) s).bank e.1.1 e.1.2 = joinedBank x master e.2 := by
  induction l generalizing s with
  | nil => exact absurd he List.not_mem_nil
  | cons f l ih =>
    rw [List.map_cons, List.nodup_cons] at hnodup
    rw [List.foldl_cons]
    rcases List.mem_cons.mp he with rfl | he
    · rw [State.bank_joins_of_not_mem _ hnodup.1, State.bank_join _ _ _ _ (h16 _ List.mem_cons_self)]
    · exact ih _ hnodup.2 (fun g hg => h16 g (List.mem_cons_of_mem _ hg)) he

theorem State.read_joins (s : State) (l : List ((Nat × Nat) × Nat)) (d a : Nat) :
    Mem.read ((l.foldl (State.join x master) s).core d).mem a =
      if (d, a / 0x2000) ∈ l.map Prod.fst then 0 else Mem.read (s.core d).mem a := by
  induction l generalizing s with
  | nil => rfl
  | cons e l ih =>
    rw [List.foldl_cons, ih, State.read_join, List.map_cons]
    by_cases he : e.1 = (d, a / 0x2000)
    · simp [he]
    · simp only [he, if_false, List.mem_cons, Ne.symm he, false_or]

theorem State.readLegend_joins (s : State) (l : List ((Nat × Nat) × Nat)) (d j : Nat) :
    LegMap.read ((l.foldl (State.join x master) s).core d).leg j =
      if (d, j / 128) ∈ l.map Prod.fst then 0 else LegMap.read (s.core d).leg j := by
  induction l generalizing s with
  | nil => rfl
  | cons e l ih =>
    rw [List.foldl_cons, ih, State.readLegend_join, List.map_cons]
    by_cases he : e.1 = (d, j / 128)
    · simp [he]
    · simp only [he, if_false, List.mem_cons, Ne.symm he, false_or]
end

/-! ### The composed span (R152, R153) -/

/-- The team member that core c is, as the span of a master on core mc lists it. -/
def State.spanMember (s : State) (mc c : Nat) : Nat := ((s.teamOnCore mc).bind (fun t => t.memberAt c)).getD 0

/-- The master's controller once the span is composed. -/
def masterBank (x : Bank) (names : List (Nat × Nat)) : Bank :=
  { x with ctl := setBits (setBits x.ctl 9 9 1) 8 5 0, span := some { members := names } }

/-- To compose a span is to have all but the master join, and then to set up the master. -/
theorem State.compose_eq (s : State) (mc mb : Nat) (rest : List (Nat × Nat)) :
    s.compose mc mb ((mc, mb) :: rest) = (sumNat (rest.map (fun m => s.bankLive m.1 m.2)),
      ((rest.zipIdx 1).foldl (State.join (s.bank mc mb) (s.spanMember mc mc, mb)) s).modBank mc mb
        (fun y => masterBank y (((mc, mb) :: rest).map (fun m => (s.spanMember mc m.1, m.2))))) := by
  have hlive : ((rest.zipIdx 1).map fun e => s.bankLive e.1.1 e.1.2) = rest.map (fun m => s.bankLive m.1 m.2) := by
    conv_rhs => rw [← List.zipIdx_map_fst 1 rest, List.map_map]
    rfl
  rw [← hlive]
  rfl

theorem sumNat_eq_sum (l : List Nat) : sumNat l = l.sum := List.sum_eq_foldl.symm

theorem Team.coreOfMember_memberAt {t : Team} {c m : Nat} (h : t.memberAt c = some m) : t.coreOfMember m = some c := by
  simpa using List.find?_some h

section
variable {s : State} {mc mb : Nat} {rest : List (Nat × Nat)} (hnodup : ((mc, mb) :: rest).Nodup)

theorem State.mem_rest_iff {m : Nat × Nat} : m ∈ (rest.zipIdx 1).map Prod.fst ↔ m ∈ rest := by
  rw [List.zipIdx_map_fst]

include hnodup

theorem State.bank_compose_master (h16 : mb < 16) : (s.compose mc mb ((mc, mb) :: rest)).2.bank mc mb =
    masterBank (s.bank mc mb) (((mc, mb) :: rest).map (fun m => (s.spanMember mc m.1, m.2))) := by
  rw [State.compose_eq, State.bank_modBank _ _ _ _ h16, State.bank_joins_of_not_mem _ fun h =>
    (List.nodup_cons.mp hnodup).1 (State.mem_rest_iff.mp h)]

theorem State.bank_compose_member (h16 : ∀ m ∈ rest, m.2 < 16) {i : Nat} {m : Nat × Nat} (hi : rest[i]? = some m) :
    (s.compose mc mb ((mc, mb) :: rest)).2.bank m.1 m.2 = joinedBank (s.bank mc mb) (s.spanMember mc mc, mb) (i + 1) := by
  obtain ⟨hmaster, hrest⟩ := List.nodup_cons.mp hnodup
  have hm : m ∈ rest := List.mem_of_getElem? hi
  have he : (m, i + 1) ∈ rest.zipIdx 1 := List.mem_zipIdx_iff_le_and_getElem?_sub.mpr ⟨Nat.le_add_left _ _, hi⟩
  rw [State.compose_eq, State.bank_modBank_ne _ _ _ _ fun e => hmaster (e ▸ hm)]
  exact State.bank_joins s (by rwa [List.zipIdx_map_fst]) (fun e he => h16 _ (List.fst_mem_of_mem_zipIdx he)) he
end

section
variable (s : State) (mc mb : Nat) (rest : List (Nat × Nat))

theorem State.read_compose (d a : Nat) : Mem.read ((s.compose mc mb ((mc, mb) :: rest)).2.core d).mem a =
    if (d, a / 0x2000) ∈ rest then 0 else Mem.read (s.core d).mem a := by
  rw [State.compose_eq, State.mem_modBank, State.read_joins]
  simp only [State.mem_rest_iff]

theorem State.readLegend_compose (d j : Nat) : LegMap.read ((s.compose mc mb ((mc, mb) :: rest)).2.core d).leg j =
    if (d, j / 128) ∈ rest then 0 else LegMap.read (s.core d).leg j := by
  rw [State.compose_eq, State.leg_modBank, State.readLegend_joins]
  simp only [State.mem_rest_iff]

/-- The structure at the master has the members of the list (R152, R233). -/
theorem State.members_compose {tm : Team} (hnodup : ((mc, mb) :: rest).Nodup) (h16 : mb < 16) (ht : s.teamOnCore mc = some tm)
    (hin : ∀ m ∈ (mc, mb) :: rest, (tm.memberAt m.1).isSome = true) :
    (s.compose mc mb ((mc, mb) :: rest)).2.members mc mb = (mc, mb) :: rest := by
  have hteam : (s.compose mc mb ((mc, mb) :: rest)).2.teamOnCore mc = some tm := by
    rw [← ht, State.compose_eq]
    exact congrArg (List.find? _) (State.teams_joins s _)
  have hcore : ∀ m ∈ (mc, mb) :: rest, tm.coreOfMember (s.spanMember mc m.1) = some m.1 := by
    intro m hm
    obtain ⟨x, hx⟩ := Option.isSome_iff_exists.mp (hin m hm)
    rw [State.spanMember, ht, Option.bind_some, hx, Option.getD_some]
    exact Team.coreOfMember_memberAt hx
  unfold State.members
  simp only [State.bank_compose_master hnodup h16, masterBank, hteam, List.filterMap_map]
  refine (List.filterMap_congr fun m hm => ?_).trans List.filterMap_some
  rw [Function.comp_apply, hcore m hm]
  rfl
end

/-! ### What BANKCTL says of master and member (R128) -/

section
variable {x : Bank} (h : x.spanned = false)
include h

theorem bits_of_not_spanned : x.ctl.toNat / 2 ^ 9 % 2 = 0 ∧ x.ctl.toNat / 2 ^ 10 % 2 = 0 := by
  simp only [Bank.spanned, Bank.isMaster, Bank.isMember, getLsbD_eq_div, Bool.or_eq_false_iff, decide_eq_false_iff_not] at h
  omega

theorem masterBank_image (names : List (Nat × Nat)) :
    let y := masterBank x names
    y.isMaster = true ∧ y.isMember = false ∧ y.spix = 0 ∧ y.ctl.toNat % 2 ^ 5 = x.ctl.toNat % 2 ^ 5 ∧
      y.ctl.toNat / 2 ^ 11 = x.ctl.toNat / 2 ^ 11 := by
  obtain ⟨-, hmember⟩ := bits_of_not_spanned h
  have hctl := toNat_masterCtl x.ctl
  simp only [Bank.isMaster, Bank.isMember, Bank.spix, getLsbD_eq_div, masterBank, decide_eq_true_eq, decide_eq_false_iff_not]
  omega

theorem joinedBank_image (master : Nat × Nat) {i : Nat} (hi : i < 16) :
    let z := joinedBank x master i
    z.isMember = true ∧ z.isMaster = false ∧ z.spix = i ∧ z.ctl.toNat % 2 ^ 5 = x.ctl.toNat % 2 ^ 5 ∧
      z.ctl.toNat / 2 ^ 11 = x.ctl.toNat / 2 ^ 11 := by
  obtain ⟨hmaster, -⟩ := bits_of_not_spanned h
  have hctl := toNat_memberCtl x.ctl hi
  simp only [Bank.isMaster, Bank.isMember, Bank.spix, getLsbD_eq_div, joinedBank, decide_eq_true_eq, decide_eq_false_iff_not]
  omega
end

theorem lget_map_zero {α : Type} (l : List α) (j : Nat) : lget 0 (l.map fun _ => 0) j = 0 := by
  rw [lget, List.getElem?_map]
  cases l[j]? <;> rfl

/-! ### The checks of a list (R152) -/

/-- A bank of the team, in the cluster of the master's core, neither spanned nor a mailbox. -/
def State.mayJoin (s : State) (team : Option Team) (mc : Nat) (m : Nat × Nat) : Prop :=
  (s.bank m.1 m.2).spanned = false ∧ s.isMailbox m.1 m.2 = false ∧ clusterOf m.1 = clusterOf mc ∧
    (team.bind (fun t => t.memberAt m.1)).isSome = true

/-- An entry of the list names a bank of this device. -/
def State.names (s : State) (n : SpanName) (m : Nat × Nat) : Prop := ∃ e, n = .bank e s.ownDev m.1 m.2

theorem spanList_ok {s : State} {team : Option Team} {mc mb : Nat} {names : List SpanName} {ms : List (Nat × Nat)}
    (hnames : List.Forall₂ s.names names ms) (hok : ∀ m ∈ ms, s.mayJoin team mc m) (acc : List (Nat × Nat))
    (hnodup : (acc ++ ms).Nodup) (hfirst : acc = [] → ∀ m ∈ ms.head?, m = (mc, mb)) :
    s.spanList team mc mb names acc = .ok (acc ++ ms) := by
  induction hnames generalizing acc with
  | nil => rw [List.append_nil]; rfl
  | @cons n m names ms hn _ ih =>
    obtain ⟨e, rfl⟩ := hn
    obtain ⟨hspan, hmail, hcluster, hteam⟩ := hok m List.mem_cons_self
    rw [List.append_cons] at hnodup
    have hnew : acc.contains (m.1, m.2) = false := by
      have := List.disjoint_of_nodup_append (List.nodup_append.mp hnodup).1
      simpa using fun hm => this hm (List.mem_singleton_self m)
    have hhead : (acc.isEmpty && (m.1, m.2) != (mc, mb)) = false := by
      rw [Bool.and_eq_false_imp]
      intro hacc
      exact bne_eq_false_iff_eq.mpr (hfirst (List.isEmpty_iff.mp hacc) m rfl)
    unfold State.spanList
    simp only [hhead, bne_self_eq_false, hnew, hspan, hmail, hcluster, hteam, Bool.or_false, Bool.not_true, Bool.false_eq_true, if_false]
    rw [ih (fun m' hm' => hok m' (List.mem_cons_of_mem _ hm')) _ hnodup fun hacc => absurd hacc (by simp), List.append_assoc, List.singleton_append]

theorem spanCheck_ok {s : State} {team : Option Team} {mc mb : Nat} {names : List SpanName} {ms : List (Nat × Nat)} {a : BitVec 64}
    {km own : Bool} (hnames : List.Forall₂ s.names names ms) (hok : ∀ m ∈ ms, s.mayJoin team mc m) (hnodup : ms.Nodup)
    (hfirst : ms[0]? = some (mc, mb)) (hheap : (s.bank mc mb).pers ≠ 4)
    (hqueue : ¬ ((s.bank mc mb).pers = 1 ∧ (s.bank mc mb).subq ≠ 0)) (hmode : km = true ∨ own = true) :
    s.spanCheck team mc mb names a km own = .ok ms := by
  have hlist := spanList_ok (mb := mb) hnames hok [] hnodup fun _ m hm => by
    rw [List.head?_eq_getElem?, hfirst] at hm
    exact (Option.mem_some_iff.mp hm).symm
  have hmaster : ((s.bank mc mb).pers == 4 || ((s.bank mc mb).pers == 1 && (s.bank mc mb).subq != 0) || !(km || own)) = false := by
    simp only [Bool.or_eq_false_iff, Bool.and_eq_false_imp, beq_eq_false_iff_ne, beq_iff_eq, bne_eq_false_iff_eq, Bool.not_eq_false',
      Bool.or_eq_true]
    exact ⟨⟨hheap, fun hp => not_not.mp (not_and.mp hqueue hp)⟩, hmode⟩
  unfold State.spanCheck
  rw [hlist]
  simp only [List.nil_append, hmaster, Bool.false_eq_true, if_false]

/-- An address of a local window names the bank that it lies in. -/
theorem spanName_bank {s : State} {c k e d core off : Nat} (hwin : e / 2 ^ 56 ∈ [0xFC, 0xFD, 0xFE])
    (hloc : s.locate c k e 1 = some (.loc d core off 1)) : s.spanName c k e = .bank (BitVec.ofNat 64 e) d core (off / bankBytes) := by
  have htop : (e / 2 ^ 56 != 0xFC && e / 2 ^ 56 != 0xFD && e / 2 ^ 56 != 0xFE) = false := by
    simp only [List.mem_cons, List.not_mem_nil, or_false] at hwin
    rcases hwin with h | h | h <;> rw [h] <;> rfl
  unfold State.spanName
  simp only [htop, Bool.false_eq_true, if_false, hloc]

theorem bankSite_ok {s : State} {c k d core off : Nat} {e : BitVec 64} (hat : s.at_ = (c, k)) (hwin : e.toNat / 2 ^ 56 ∈ [0xFC, 0xFD, 0xFE])
    (hloc : s.locate c k e.toNat 1 = some (.loc d core off 1)) : bankSite e s = .ok ((d, core, off), s) := by
  have htop : (e.toNat / 2 ^ 56 != 0xFC && e.toNat / 2 ^ 56 != 0xFD && e.toNat / 2 ^ 56 != 0xFE) = false := by
    simp only [List.mem_cons, List.not_mem_nil, or_false] at hwin
    rcases hwin with h | h | h <;> rw [h] <;> rfl
  unfold bankSite
  simp only [hat, htop, Bool.false_eq_true, if_false, hloc]

/-- A list of 2 to 16 entries that lies in ARRAY banks of the own window passes (R152). -/
theorem listCheck_ok {s : State} {c k home n : Nat} {a b : BitVec 64} (hat : s.at_ = (c, k))
    (hown : (s.ownOffset c k b.toNat (8 * n)).isSome = true) (halign : b.toNat % 2 ^ 17 % 8 = 0) (h2 : 2 ≤ n) (h16 : n ≤ 16)
    (hbanks : ∀ x, x < 8 * n → s.noList home ((b.toNat % 2 ^ 17 + x) / 0x2000) = false) :
    listCheck home a b n s = .ok ((), s) := by
  have hbank : bankBytes = 0x2000 := rfl
  have hnone : (s.ownOffset c k b.toNat (8 * n)).isNone = false := by
    rw [← Option.not_isSome, hown]
    rfl
  generalize hlo : b.toNat % 2 ^ 17 = lo at halign hbanks
  have hany : (List.range ((lo + 8 * n - 1) / bankBytes - lo / bankBytes + 1)).any (fun i => s.noList home (lo / bankBytes + i)) = false := by
    rw [List.any_eq_false]
    intro i hi
    rw [List.mem_range, hbank] at hi
    rw [hbank]
    -- the bank of byte 0, or of the first byte past a bank's end
    have hbyte := hbanks (if i = 0 then 0 else (lo / 0x2000 + i) * 0x2000 - lo) (by split <;> omega)
    have heq : (lo + if i = 0 then 0 else (lo / 0x2000 + i) * 0x2000 - lo) / 0x2000 = lo / 0x2000 + i := by split <;> omega
    rw [heq] at hbyte
    rw [hbyte]
    exact Bool.false_ne_true
  have hlen : (n < 2 || 16 < n) = false := by
    rw [Bool.or_eq_false_iff, decide_eq_false_iff_not, decide_eq_false_iff_not]
    omega
  unfold listCheck
  simp only [hat, hlo, hnone, halign, hany, hlen, bne_self_eq_false, Bool.and_false, Bool.false_eq_true, if_false]

/-! ### The instruction (R127, R152) -/

section
variable {s : State} {c k : Nat} (h : s.calm c k)
include h

/-- No load is owed to an x register of a calm slot. -/
theorem State.calm.claimX_ok (n : Nat) : claimX n s = .ok ((), s) := by
  obtain ⟨-, -, -, -, howed, -, -, -, -⟩ := id h
  unfold claimX claimDst
  simp [h.at_eq, howed, LoadDst.queues]

theorem State.calm.spanHeld_eq {ms : List (Nat × Nat)} (hbusy : ∀ m ∈ ms, (s.core m.1).bankBusy m.1 s.ownDev m.2 = false) :
    s.spanHeld ms = false := by
  obtain ⟨-, -, -, -, -, -, hcores, -, -⟩ := h
  rw [State.spanHeld, List.any_eq_false]
  intro m hm
  rw [hbusy m hm]
  simp [Core.held, hcores]

theorem State.calm.storesTo_eq (dev core : Nat) : (s.slot c k).storesTo dev core = false := by
  obtain ⟨-, -, hsq, -⟩ := h
  rw [Slot.storesTo, hsq]
  rfl
end

/-- The names that a BSPAN's list of n entries spells at offset lo of the actor's core. -/
def State.spanNames (s : State) (c k lo n : Nat) : List SpanName :=
  (List.range n).map (fun i => s.spanName c k (Mem.word (s.core (s.homeOf c k).1).mem (lo + 8 * i) 8))

/-- The request that a BSPAN of slot k of core c sends to its master's core. -/
def State.spanRequest (s : State) (c k mc off : Nat) (a : BitVec 64) (names : List SpanName) : Packet :=
  { src := (c, k), unit := 0, dev := s.ownDev, core := mc, isLocal := true, dom := s.domainOf c k, cls := (s.slot c k).regs.qos.toNat,
    body := .bspan s.nextId a names (s.slot c k).km (mc == (s.homeOf c k).1) off }

/-- The state in which a slot waits for the answer to a request that it sent. -/
def State.spanSent (s : State) (c k mc off len : Nat) (a : BitVec 64) (names : List SpanName) (d cc : Nat) : State :=
  (s.fresh.2.sendPacket (s.spanRequest c k mc off a names)).holdFor .bank (.bank s.nextId d cc false len {})

/-- How a BSPAN with a sound list ends: at a master of its own core it composes the span, to another core it is sent. -/
def spanAnswer (s : State) (c k mc off len : Nat) (a : BitVec 64) (names : List SpanName) (d cc : Nat) : Except Stop (Flow × State) :=
  if mc == c then
    match s.spanCheck (s.teamOf c k) mc (off / bankBytes) names a (s.slot c k).km (mc == (s.homeOf c k).1) with
    | .error (cause, v) => .error (.trap cause v)
    | .ok ms =>
      if s.spanHeld ms then .error (.stall .bank)
      else .ok (.next, (s.compose mc (off / bankBytes) ms).2.modSlot c k (·.bankResult d cc false false
        { d := BitVec.ofNat 64 (s.compose mc (off / bankBytes) ms).1 }))
  else .error (.hold (s.spanSent c k mc off len a names d cc))

theorem execBspan_run {o : Op} {s : State} {c k mc off : Nat} {a b n : BitVec 64} (h : s.calm c k) (hr : s.runs 0xB1 o)
    (ha : rdReg o.a s = .ok (a, s)) (hb : rdReg o.b s = .ok (b, s)) (hn : rdX (regNum o.d) s = .ok (n, s))
    (hsite : bankSite (a + o.i18.signExtend 64) s = .ok ((s.ownDev, mc, off), s))
    (hlist : listCheck (s.homeOf c k).1 (a + o.i18.signExtend 64) b n.toNat s = .ok ((), s)) :
    exec (.bspan o) s = .next (s.conclude o.len (spanAnswer s c k mc off (lenBytes o.len) (a + o.i18.signExtend 64)
      (s.spanNames c k (b.toNat % 2 ^ 17) n.toNat) (regNum o.d) (regNum o.c))) := by
  rw [exec_bspan, execBspan, runScalar_run hr.1 hr.2, byteOffset_eq]
  refine congrArg (fun x => (Host.Outcome.next (s.conclude o.len x) : Host.Outcome State Fault Refusal)) ?_
  refine (bind_ok ha).trans ((bind_ok hb).trans ((bind_ok hn).trans ((bind_ok hsite).trans ((bind_ok (getS_run s)).trans ?_))))
  simp only [h.at_eq]
  refine (bind_ok hlist).trans ((bind_ok (h.ownWait_ok _ _)).trans ((bind_ok (h.ownGood_ok _ _ _)).trans ?_))
  simp only [bne_self_eq_false, BEq.rfl, Bool.false_or, Bool.true_and, if_true, spanAnswer, State.spanNames]
  split
  · generalize s.spanCheck _ _ _ _ _ _ _ = checked
    cases checked with
    | error e => rfl
    | ok ms =>
      refine (bind_ok (h.watch_ok _ _ _)).trans ((bind_ok (h.claimX_ok _)).trans ((bind_ok (h.claimX_ok _)).trans
        ((bind_ok (h.loadOrder_ok _ _ _)).trans ((bind_ok (getS_run s)).trans ?_))))
      cases hheld : s.spanHeld ms
      · simp only [hheld, Bool.false_eq_true, if_false]
        rfl
      · simp only [hheld, if_true]
        rfl
  · refine (bind_ok (h.watch_ok _ _ _)).trans ((bind_ok (h.claimX_ok _)).trans ((bind_ok (h.claimX_ok _)).trans
      ((bind_ok (h.loadOrder_ok _ _ _)).trans ?_)))
    simp only [h.storesTo_eq, Bool.false_eq_true, if_false]
    rfl

/-- Where the list passes and no member is held, the span is composed. -/
theorem spanAnswer_composes {s : State} {c k off len d cc : Nat} {a : BitVec 64} {names : List SpanName} {ms : List (Nat × Nat)}
    (hcheck : s.spanCheck (s.teamOf c k) c (off / bankBytes) names a (s.slot c k).km (c == (s.homeOf c k).1) = .ok ms)
    (hheld : s.spanHeld ms = false) : spanAnswer s c k c off len a names d cc =
      .ok (.next, (s.compose c (off / bankBytes) ms).2.modSlot c k (·.bankResult d cc false false
        { d := BitVec.ofNat 64 (s.compose c (off / bankBytes) ms).1 })) := by
  simp only [spanAnswer, BEq.rfl, if_true, hcheck, hheld, Bool.false_eq_true, if_false]

/-- To a master of another core it is sent. -/
theorem spanAnswer_sends {s : State} {c k mc off len d cc : Nat} {a : BitVec 64} {names : List SpanName} (h : mc ≠ c) :
    spanAnswer s c k mc off len a names d cc = .error (.hold (s.spanSent c k mc off len a names d cc)) := by
  rw [spanAnswer, if_neg (by rwa [beq_iff_eq])]

theorem spanNames_names {s : State} {c k lo n : Nat} {ms : List (Nat × Nat)} (hlen : ms.length = n)
    (hmem : ∀ i m, ms[i]? = some m → Mem.word (s.core (s.homeOf c k).1).mem (lo + 8 * i) 8 / 2 ^ 56 ∈ [0xFC, 0xFD, 0xFE] ∧
      ∃ x, x < 0x2000 ∧ s.locate c k (Mem.word (s.core (s.homeOf c k).1).mem (lo + 8 * i) 8) 1 =
        some (.loc s.ownDev m.1 (m.2 * 0x2000 + x) 1)) : List.Forall₂ s.names (s.spanNames c k lo n) ms := by
  have hbank : bankBytes = 0x2000 := rfl
  refine List.forall₂_iff_get.mpr ⟨by simp [State.spanNames, hlen], fun i hi hi' => ?_⟩
  obtain ⟨hwin, x, hx, hloc⟩ := hmem i _ (List.getElem?_eq_getElem hi')
  have hdiv : (ms[i].2 * 0x2000 + x) / 0x2000 = ms[i].2 := by omega
  refine ⟨BitVec.ofNat 64 (Mem.word (s.core (s.homeOf c k).1).mem (lo + 8 * i) 8), ?_⟩
  simp only [State.spanNames, List.get_eq_getElem, List.getElem_map, List.getElem_range]
  rw [spanName_bank hwin hloc, hbank, hdiv]

/-! ### The request on its way (R127) -/

section
variable {s : State} {c k : Nat} (hc : s.cur = .slot c k)
include hc

theorem State.holdFor_net (w : Wait) (p : Pend) : (s.holdFor w p).net = s.net := by
  unfold State.holdFor
  rw [hc]
  obtain ⟨-, -, -, -, -, hnet, -⟩ := (s.noteIssue_near hc).rest
  exact hnet

theorem State.holdFor_pend (hk : k < 4) (w : Wait) (p : Pend) : ((s.holdFor w p).slot c k).pend = some p := by
  unfold State.holdFor
  rw [hc]
  exact congrArg Slot.pend (State.slot_modSlot _ _ _ _ hk)

theorem State.holdFor_sameMemory (w : Wait) (p : Pend) : s.sameMemory (s.holdFor w p) := by
  unfold State.holdFor
  rw [hc]
  exact State.sameMemory_trans (s.noteIssue_near hc).sameMemory (State.sameMemory_modSlot _ _ _ _)
end

end Sys2Proof.Machine

open Sys2Proof.Machine

/-- Settles O29: the members after the master join one by one, none undoing another, and then the master is set up; the instruction's
checks of a list that is as R152 asks all pass. -/
theorem spansCompose : Obligations.SpansCompose := by
  unfold Obligations.SpansCompose
  refine ⟨?composed, ?instruction⟩
  case composed =>
    intro s mc mb ms hhead hnodup h2 h16 hms x r y
    obtain ⟨rest, rfl⟩ : ∃ rest, ms = (mc, mb) :: rest := by
      cases ms with
      | nil => cases hhead
      | cons m rest => exact ⟨rest, by rw [Option.some.inj hhead]⟩
    obtain ⟨hmb, hspan⟩ := hms (mc, mb) List.mem_cons_self
    have hrest : ∀ m ∈ rest, m.2 < 16 := fun m hm => (hms m (List.mem_cons_of_mem _ hm)).1
    have hmaster : y = _ := State.bank_compose_master hnodup hmb
    refine ⟨?lost, ?master, ?members, ?frame, ?list⟩
    case lost => exact (congrArg Prod.fst (State.compose_eq s mc mb rest)).trans (sumNat_eq_sum _)
    case master =>
      obtain ⟨h1, h2, h3, h4, h5⟩ := masterBank_image hspan (((mc, mb) :: rest).map (fun m => (s.spanMember mc m.1, m.2)))
      rw [hmaster]
      exact ⟨h1, h2, h3, h4, h5, rfl⟩
    case members =>
      intro i m hi hm z
      obtain ⟨j, rfl⟩ := Nat.exists_eq_add_of_lt hi
      rw [Nat.zero_add, List.getElem?_cons_succ] at hm
      have hj : j < rest.length := (List.getElem?_eq_some_iff.mp hm).1
      have hmem : m ∈ rest := List.mem_of_getElem? hm
      have hz : z = _ := State.bank_compose_member hnodup hrest hm
      obtain ⟨h1, h2, h3, h4, h5⟩ := joinedBank_image hspan (s.spanMember mc mc, mb) (show j + 1 < 16 by rw [List.length_cons] at h16; omega)
      rw [hz, Nat.zero_add]
      refine ⟨h1, h2, h3, h4, h5, rfl, lget_map_zero _, rfl, rfl, rfl, rfl, fun n hn => ?_, fun n hn => ?_⟩
      · have hbank : (m.2 * 0x2000 + n) / 0x2000 = m.2 := by omega
        rw [State.read_compose, hbank, if_pos hmem]
      · have hbank : (m.2 * 128 + n) / 128 = m.2 := by omega
        rw [State.readLegend_compose, hbank, if_pos hmem]
    case frame =>
      intro c a hout
      have hnot : (c, a / 0x2000) ∉ rest := fun hm => hout (c, a / 0x2000) hm rfl rfl
      have hblock : a / 64 / 128 = a / 0x2000 := by rw [Nat.div_div_eq_div_mul]
      rw [State.read_compose, State.readLegend_compose, hblock, if_neg hnot, if_neg hnot]
      exact ⟨rfl, rfl⟩
    case list =>
      intro tm ht hin
      exact State.members_compose s mc mb rest hnodup hmb ht hin
  case instruction =>
    intro o s c k mc mb off a b n hcalm hr e home lo word windows ha hb hn hwin hloc hoff hown halign h2 h16 hbanks
    have hsite : bankSite e s = .ok ((s.ownDev, mc, off), s) := bankSite_ok hcalm.at_eq hwin hloc
    have hlist := listCheck_ok (home := home) (a := e) hcalm.at_eq (by rw [hown]; rfl) halign h2 h16 hbanks
    have hrun := execBspan_run hcalm hr ha hb hn hsite hlist
    subst hoff
    refine ⟨?here, ?away⟩
    case here =>
      rintro ms rfl hlen hhead hnodup hmem hheap hqueue hmode
      have hnames : List.Forall₂ s.names (s.spanNames mc k lo n.toNat) ms :=
        spanNames_names hlen fun i m hm => ⟨(hmem i m hm).1, (hmem i m hm).2.1⟩
      have hjoin : ∀ m ∈ ms, s.mayJoin (s.teamOf mc k) mc m ∧ (s.core m.1).bankBusy m.1 s.ownDev m.2 = false := by
        intro m hm
        obtain ⟨i, hi⟩ := List.mem_iff_getElem?.mp hm
        obtain ⟨-, -, hspan, hmail, hcluster, hteam, hbusy⟩ := hmem i m hi
        exact ⟨⟨hspan, hmail, hcluster, hteam⟩, hbusy⟩
      have hcheck := spanCheck_ok (a := e) (own := mc == home) hnames (fun m hm => (hjoin m hm).1) hnodup hhead hheap hqueue
        (hmode.imp_right fun heq => beq_iff_eq.mpr heq.symm)
      rw [hrun, spanAnswer_composes hcheck (hcalm.spanHeld_eq fun m hm => (hjoin m hm).2)]
      rfl
    case away =>
      intro hmc
      obtain ⟨hcur, hk, -⟩ := hcalm
      have hsent : (s.fresh.2.sendPacket (s.spanRequest c k mc off e (s.spanNames c k lo n.toNat))).cur = .slot c k := hcur
      refine ⟨s.spanSent c k mc off (lenBytes o.len) e (s.spanNames c k lo n.toNat) (regNum o.d) (regNum o.c),
        s.spanRequest c k mc off e (s.spanNames c k lo n.toNat), s.nextId, {}, ?_, State.holdFor_net hsent _ _, rfl, rfl, rfl, rfl,
        State.holdFor_pend hsent hk _ _, State.sameMemory_trans ?_ (State.holdFor_sameMemory hsent _ _)⟩
      · rw [hrun, spanAnswer_sends hmc]
        rfl
      · exact ⟨fun _ => ⟨rfl, rfl, rfl⟩, fun _ => ⟨rfl, rfl⟩, rfl, rfl, rfl⟩
end

section
/-! QUEUE and STACK banks (R135, R136): what a put and a take make of the entries, and what the operations answer. -/

open Sys2Proof

namespace Sys2Proof.Machine

/-! ### QUEUE (R135) -/

theorem pow_bytes (z : Nat) : 256 ^ z = 2 ^ (8 * z) := by
  rw [Nat.pow_mul]

/-- Entries of a sub-queue that are both within its depth lie in different places of its ring. -/
theorem Bank.entryIx_ne (x : Bank) {i j k : Nat} (hj : j < x.depth i) (hk : k < x.depth i) (hne : j ≠ k) : x.entryIx i j ≠ x.entryIx i k := by
  intro h
  rw [Bank.entryIx, Bank.entryIx, Nat.max_eq_right (by omega)] at h
  have hmod : x.head i + j ≡ x.head i + k [MOD x.depth i] := Nat.add_left_cancel h
  exact hne (Nat.ModEq.eq_of_lt_of_lt (Nat.ModEq.add_left_cancel' _ hmod) hj hk)

/-- The state after a put into sub-queue i. -/
def State.pushed (s : State) (c b i e : Nat) : State :=
  let x := s.bank c b
  (s.setBankWord c b (x.esz * x.entryIx i (x.count i)) x.esz e).modBank c b
    (fun x => { x with counts := lput x.counts i (x.count i + 1) })

section
variable {s : State} {c b i : Nat} (h : s.soundQueue c b i)
include h

theorem State.soundQueue.members_eq : s.members c b = [(c, b)] := by
  obtain ⟨-, hspan, -⟩ := h
  exact s.members_of_unspanned c b hspan

theorem State.soundQueue.queuePut_eq (e : Nat) : s.queuePut c b i e = s.qPush (c, b) i e := by
  rw [State.queuePut, h.members_eq]

theorem State.soundQueue.queueTake_eq : s.queueTake c b i = s.qPop (c, b) i := by
  rw [State.queueTake, h.members_eq]

theorem State.soundQueue.queuePut_none_iff (e : Nat) : s.queuePut c b i e = none ↔ (s.bank c b).count i = (s.bank c b).depth i := by
  obtain ⟨-, -, -, -, -, hle, -⟩ := id h
  rw [h.queuePut_eq, State.qPush]
  simp only [ite_eq_left_iff, reduceCtorEq, imp_false, not_not]
  omega

theorem State.soundQueue.queuePut_some {e : Nat} (hroom : (s.bank c b).count i < (s.bank c b).depth i) :
    s.queuePut c b i e = some (s.pushed c b i e) := by
  rw [h.queuePut_eq, State.qPush, if_neg (Nat.not_le.mpr hroom), State.pushed]

theorem State.soundQueue.bank_pushed (e : Nat) : (s.pushed c b i e).bank c b =
    { s.bank c b with counts := lput (s.bank c b).counts i ((s.bank c b).count i + 1) } := by
  obtain ⟨hb, -⟩ := h
  rw [State.pushed, State.bank_modBank _ _ _ _ hb, State.bank_setBankWord]

theorem State.soundQueue.count_pushed (e : Nat) : ((s.pushed c b i e).bank c b).count i = (s.bank c b).count i + 1 := by
  obtain ⟨-, -, hcounts, -⟩ := id h
  rw [h.bank_pushed]
  exact lget_lput_same _ _ _ hcounts

/-- A put adds its entry behind the others (R135). -/
theorem State.soundQueue.queueList_pushed {e : Nat} (hroom : (s.bank c b).count i < (s.bank c b).depth i) :
    (s.pushed c b i e).queueList c b i = s.queueList c b i ++ [e % 2 ^ (8 * (s.bank c b).esz)] := by
  obtain ⟨-, -, -, -, -, -, -, -, hwf⟩ := id h
  have hentry (j : Nat) : ((s.pushed c b i e).bank c b).entryIx i j = (s.bank c b).entryIx i j := by
    rw [h.bank_pushed]
    rfl
  have hesz : ((s.pushed c b i e).bank c b).esz = (s.bank c b).esz := by
    rw [h.bank_pushed]
    rfl
  simp only [State.queueList, h.count_pushed, hentry, hesz, List.range_succ, List.map_append, List.map_singleton]
  congr 1
  · refine List.map_congr_left fun j hj => ?_
    rw [List.mem_range] at hj
    rw [State.pushed, State.bankWord_modBank, State.bankWord_setBankWord_disjoint]
    exact place_disjoint ((s.bank c b).entryIx_ne (by omega) hroom (by omega))
  · rw [State.pushed, State.bankWord_modBank, s.bankWord_setBankWord_same c b hwf, pow_bytes]

theorem State.soundQueue.queueTake_none_iff : s.queueTake c b i = none ↔ s.queueList c b i = [] := by
  rw [h.queueTake_eq, State.qPop, Option.map_eq_none_iff, State.qHead]
  simp only [State.queueList, List.map_eq_nil_iff, List.range_eq_nil, ite_eq_left_iff, reduceCtorEq, imp_false, not_not, beq_iff_eq]

/-- A take gives the entry at the head and leaves the others (R135). -/
theorem State.soundQueue.queueTake_some {e : Nat} {t : State} (ht : s.queueTake c b i = some (e, t)) :
    s.queueList c b i = e :: t.queueList c b i := by
  obtain ⟨hb, -, hcounts, hheads, hdepth, -⟩ := id h
  rw [h.queueTake_eq, State.qPop, State.qHead] at ht
  simp only [beq_iff_eq, Option.map_eq_some_iff, Option.ite_none_left_eq_some, Option.some.injEq, Prod.mk.injEq] at ht
  obtain ⟨e', ⟨hpos, rfl⟩, rfl, rfl⟩ := ht
  obtain ⟨n, hn⟩ := Nat.exists_eq_succ_of_ne_zero hpos
  have hbank : (s.modBank c b (·.dropHead i 1)).bank c b = (s.bank c b).dropHead i 1 := State.bank_modBank _ _ _ _ hb
  have hcount : ((s.bank c b).dropHead i 1).count i = n := by
    refine (lget_lput_same _ _ _ hcounts).trans ?_
    rw [hn]
    rfl
  have hhead : ((s.bank c b).dropHead i 1).head i = ((s.bank c b).head i + 1) % max 1 ((s.bank c b).depth i) := lget_lput_same _ _ _ hheads
  have hentry (j : Nat) : ((s.bank c b).dropHead i 1).entryIx i j = (s.bank c b).entryIx i (j + 1) := by
    rw [Bank.entryIx, hhead]
    change (s.bank c b).subBase i + (((s.bank c b).head i + 1) % max 1 ((s.bank c b).depth i) + j) % max 1 ((s.bank c b).depth i) = _
    rw [Nat.mod_add_mod, Nat.add_assoc, Nat.add_comm 1, Bank.entryIx]
  have hesz : ((s.bank c b).dropHead i 1).esz = (s.bank c b).esz := rfl
  simp only [State.queueList, hbank, hcount, hentry, hesz, hn, State.bankWord_modBank, List.range_succ_eq_map, List.map_cons, List.map_map]
  rfl
end

/-! ### STACK (R136) -/

section
variable {s : State} {c b : Nat} (hspan : (s.bank c b).span = none)
include hspan

theorem stackTop_unspanned : s.stackTop (s.members c b) = if (s.bank c b).top = 0 then none else some (c, b) := by
  rw [s.members_of_unspanned c b hspan, State.stackTop]
  by_cases h : (s.bank c b).top = 0
  · simp [State.top, h]
  · simp [State.top, h]

theorem stackRoom_unspanned : s.stackRoom (s.members c b) = if (s.bank c b).top < (s.bank c b).units then some (c, b) else none := by
  rw [State.stackRoom, stackTop_unspanned hspan, s.members_of_unspanned c b hspan]
  have hfirst : ∀ t : Option (Nat × Nat), (([(c, b)] : List (Nat × Nat)).findIdx? (fun m => some m == t)).getD 0 = 0 := by
    intro t
    cases ht : (some (c, b) == t)
    · simp [List.findIdx?_cons, ht]
    · simp [List.findIdx?_cons, ht]
  simp only [hfirst, List.drop_zero, List.find?_cons, List.find?_nil, State.top]
  by_cases h : (s.bank c b).top < (s.bank c b).units
  · simp [h]
  · simp [h]

/-- What was put last is taken first, and the rest of the stack is as before (R136). -/
theorem stackTake_stackPut {e : Nat} {t : State} (hb : b < 16) (hwf : Memory.wf (s.core c).mem = true)
    (ht : s.stackPut c b e = some t) :
    ∃ u, t.stackTake c b = some (e % 2 ^ (8 * (s.bank c b).esz), u) ∧ (u.bank c b).top = (s.bank c b).top := by
  rw [State.stackPut, stackRoom_unspanned hspan] at ht
  by_cases hroom : (s.bank c b).top < (s.bank c b).units
  · rw [if_pos hroom] at ht
    simp only [Option.some.injEq] at ht
    subst ht
    generalize htdef : (s.setBankWord c b ((s.bank c b).esz * (s.bank c b).top) (s.bank c b).esz e).modBank c b
      (fun x => { x with top := x.top + 1 }) = t
    have hbank : t.bank c b = { s.bank c b with top := (s.bank c b).top + 1 } := by
      rw [← htdef, State.bank_modBank _ _ _ _ hb, State.bank_setBankWord]
    have hword : t.bankWord c b ((s.bank c b).esz * (s.bank c b).top) (s.bank c b).esz = e % 2 ^ (8 * (s.bank c b).esz) := by
      rw [← htdef, State.bankWord_modBank, s.bankWord_setBankWord_same c b hwf, pow_bytes]
    have hesz : (t.bank c b).esz = (s.bank c b).esz := by rw [hbank]; rfl
    have htop : (t.bank c b).top = (s.bank c b).top + 1 := by rw [hbank]
    have hspan' : (t.bank c b).span = none := by rw [hbank]; exact hspan
    refine ⟨t.modBank c b (fun x => { x with top := x.top - 1 }), ?_, ?_⟩
    · rw [State.stackTake, stackTop_unspanned hspan', htop, if_neg (Nat.succ_ne_zero _)]
      simp only [hesz, htop, Nat.add_sub_cancel, hword]
    · rw [State.bank_modBank _ _ _ _ hb, htop, Nat.add_sub_cancel]
  · rw [if_neg hroom] at ht
    cases ht
end

/-! ### What the operations of a QUEUE answer (R133, R135, R147) -/

theorem lput_zero {α : Type} (x y : α) (l : List α) : lput (x :: l) 0 y = y :: l := rfl

section
variable {s : State} {c b i : Nat} (h : s.soundQueue c b i) (hpers : (s.bank c b).pers = 1) (hi : i ≤ (s.bank c b).subq)
  (hone : (s.bank c b).subq = 0 → (s.bank c b).counts = [(s.bank c b).count 0])
include h hpers hi hone

theorem State.soundQueue.liveCount_eq : s.liveCount c b i = (s.bank c b).count i := by
  rw [State.liveCount, hpers, h.members_eq]
  by_cases hsub : (s.bank c b).subq = 0
  · obtain rfl : i = 0 := by omega
    simp [hsub, State.bankLive, hpers, hone hsub, sumNat]
  · simp [hsub]

theorem State.soundQueue.liveCount_pushed (e : Nat) : (s.pushed c b i e).liveCount c b i = (s.bank c b).count i + 1 := by
  have hbank := h.bank_pushed e
  have hmembers : (s.pushed c b i e).members c b = [(c, b)] := State.members_of_unspanned _ _ _ (by
    obtain ⟨-, hspan, -⟩ := h
    rw [hbank]
    exact hspan)
  have hcount := h.count_pushed e
  have hpers' : ((s.pushed c b i e).bank c b).pers = 1 := by rw [hbank]; exact hpers
  have hsubq : ((s.pushed c b i e).bank c b).subq = (s.bank c b).subq := by rw [hbank]; rfl
  rw [State.liveCount, hpers', hmembers, hsubq]
  by_cases hsub : (s.bank c b).subq = 0
  · obtain rfl : i = 0 := by omega
    have hcounts : ((s.pushed c b 0 e).bank c b).counts = [(s.bank c b).count 0 + 1] := by
      rw [hbank]
      exact (congrArg (lput · 0 _) (hone hsub)).trans (lput_zero _ _ _)
    simp [hsub, State.bankLive, hpers', hcounts, sumNat]
  · simp [hsub, hcount]
end

/-- A request to a sub-queue of a QUEUE bank that is neither spanned nor a mailbox, with entries of the bank's size. -/
structure State.QueueReq (s : State) (q : BankReq) (i : Nat) : Prop where
  sub : subOf (s.bank q.core q.bank) q.off = i
  sound : s.soundQueue q.core q.bank i
  pers : (s.bank q.core q.bank).pers = 1
  member : (s.bank q.core q.bank).isMember = false
  mailbox : s.isMailbox q.core q.bank = false
  le : i ≤ (s.bank q.core q.bank).subq
  wide : q.wide = ((s.bank q.core q.bank).esz == 32)
  one : (s.bank q.core q.bank).subq = 0 → (s.bank q.core q.bank).counts = [(s.bank q.core q.bank).count 0]

section
variable {s : State} {q : BankReq} {i : Nat} (h : s.QueueReq q i)
include h

/-- BGET takes an entry, or answers EMPTY. -/
theorem State.QueueReq.bankOp_get (hcode : q.code = 0xB4) : s.bankOp q = (s.queueTake q.core q.bank i).elim
    (.ok ({ status := 2 }, s)) (fun r => .ok ({ d := BitVec.ofNat 64 r.1, v := r.1 }, r.2)) := by
  have hle : ¬ (s.bank q.core q.bank).subq < i := Nat.not_lt.mpr h.le
  cases htake : s.queueTake q.core q.bank i
  · simp [State.bankOp, hcode, h.sub, h.member, h.mailbox, h.pers, h.wide, hle, bankCell, State.take, htake]
  · simp [State.bankOp, hcode, h.sub, h.member, h.mailbox, h.pers, h.wide, hle, bankCell, State.take, htake]

/-- BPUT puts an entry, or answers FULL. -/
theorem State.QueueReq.bankOp_put (hcode : q.code = 0xB2) : s.bankOp q =
    (s.queuePut q.core q.bank i (if q.wide then q.vdata else q.bv.toNat)).elim (.ok ({ status := 1 }, s))
      (fun t => .ok ({ d := BitVec.ofNat 64 (t.liveCount q.core q.bank i) }, t)) := by
  have hle : ¬ (s.bank q.core q.bank).subq < i := Nat.not_lt.mpr h.le
  have hwide : (q.wide != ((s.bank q.core q.bank).esz == 32)) = false := by rw [h.wide, bne_self_eq_false]
  generalize he : (if q.wide = true then q.vdata else q.bv.toNat) = e
  cases hput : s.queuePut q.core q.bank i e
  · simp [State.bankOp, hcode, h.sub, h.member, h.mailbox, h.pers, hwide, hle, bankCell, State.put, he, hput]
  · simp [State.bankOp, hcode, h.sub, h.member, h.mailbox, h.pers, hwide, hle, bankCell, State.put, he, hput]

/-- BCNT answers the entries that the sub-queue holds, and changes nothing. -/
theorem State.QueueReq.bankOp_count (hcode : q.code = 0xB9) :
    ∃ r, s.bankOp q = .ok (r, s) ∧ r.d = BitVec.ofNat 64 (s.liveCount q.core q.bank i) := by
  have hle : ¬ (s.bank q.core q.bank).subq < i := Nat.not_lt.mpr h.le
  simp [State.bankOp, hcode, h.sub, h.member, h.mailbox, h.pers, hle, bankCell]
end

end Sys2Proof.Machine
end

section
/-! MAP banks (R137): a key that has been inserted is found, with its value. -/

open Sys2Proof

namespace Sys2Proof.Machine

/-! ### Occupancy -/

theorem Bank.isUsed_setUsed (x : Bank) {i : Nat} (hi : i < 512) (a : Nat) : (x.setUsed i true).isUsed a = (decide (a = i) || x.isUsed a) := by
  have hbit : (((1 <<< i : Nat)) : BitVec 512).getLsbD a = decide (a = i) := by
    rw [BitVec.natCast_eq_ofNat, BitVec.getLsbD_ofNat, Nat.one_shiftLeft, Nat.testBit_two_pow]
    by_cases h : a = i
    · simp [h, hi]
    · simp [h, Ne.symm h]
  rw [Bank.isUsed, Bank.setUsed, if_pos rfl, BitVec.getLsbD_or, hbit, Bool.or_comm, Bank.isUsed]

section
variable {x : Bank}

/-- A free slot that is found is free, and one of the bank's. -/
theorem Bank.freeFrom_some {f i j : Nat} (h : x.freeFrom f i = some j) (hi : i < x.cap) : x.isUsed j = false ∧ j < x.cap := by
  induction f generalizing i with
  | zero => cases h
  | succ f ih =>
    rw [Bank.freeFrom] at h
    split at h
    · next hfree =>
      obtain rfl := Option.some.inj h
      exact ⟨by simpa using hfree, hi⟩
    · exact ih h (Nat.mod_lt _ (Nat.zero_lt_of_lt hi))
end

/-! ### Searches (R137) -/

section
variable {s t : State} {m : Nat × Nat} {k : Nat} (hcap : (t.bank m.1 m.2).cap = (s.bank m.1 m.2).cap)
include hcap

/-- A search depends on the occupied slots and their keys alone. -/
theorem mapFindFrom_congr (hused : ∀ i, (t.bank m.1 m.2).isUsed i = (s.bank m.1 m.2).isUsed i)
    (hkey : ∀ i, t.bankWord m.1 m.2 (16 * i) 8 = s.bankWord m.1 m.2 (16 * i) 8) (f i : Nat) :
    t.mapFindFrom m k f i = s.mapFindFrom m k f i := by
  induction f generalizing i with
  | zero => rfl
  | succ f ih => rw [State.mapFindFrom, State.mapFindFrom, hused, hkey, hcap, ih]

/-- A key that was absent is found in the slot that took it: the slots before it were occupied by other keys. -/
theorem mapFindFrom_inserted {j : Nat} (hused : ∀ i, (t.bank m.1 m.2).isUsed i = (decide (i = j) || (s.bank m.1 m.2).isUsed i))
    (hkey : t.bankWord m.1 m.2 (16 * j) 8 = k) (hkeys : ∀ i, i ≠ j → t.bankWord m.1 m.2 (16 * i) 8 = s.bankWord m.1 m.2 (16 * i) 8)
    (hfree : (s.bank m.1 m.2).isUsed j = false) {f i : Nat} (habsent : s.mapFindFrom m k f i = none)
    (hslot : (s.bank m.1 m.2).freeFrom f i = some j) : t.mapFindFrom m k f i = some j := by
  induction f generalizing i with
  | zero => cases hslot
  | succ f ih =>
    rw [State.mapFindFrom] at habsent
    rw [Bank.freeFrom] at hslot
    rw [State.mapFindFrom, hused]
    cases hi : (s.bank m.1 m.2).isUsed i
    · obtain rfl : i = j := by simpa [hi] using hslot
      simp [hkey]
    · have hne : i ≠ j := fun e => by rw [e, hfree] at hi; cases hi
      simp only [hi, Bool.not_true, Bool.false_eq_true, if_false] at hslot habsent
      by_cases hk : s.bankWord m.1 m.2 (16 * i) 8 = k
      · simp [hk] at habsent
      · simp only [beq_eq_false_iff_ne.mpr hk, Bool.false_eq_true, if_false] at habsent
        simp only [Bool.or_true, Bool.not_true, Bool.false_eq_true, if_false, hkeys i hne, beq_eq_false_iff_ne.mpr hk, hcap]
        exact ih habsent hslot
end

/-! ### Insertion (R137) -/

section
variable {s t : State} {c b k v : Nat} (hwf : Memory.wf (s.core c).mem = true)
include hwf

/-- A new value for a key that is present. -/
theorem mapFind_updated {f : Nat} (hv : v < 2 ^ 64) (hf : s.mapFind (c, b) k = some f) :
    (s.setBankWord c b (16 * f + 8) 8 v).mapFind (c, b) k = some f ∧ (s.setBankWord c b (16 * f + 8) 8 v).mapValue (c, b) f = v := by
  have hbank := s.bank_setBankWord c b (16 * f + 8) 8 v c b
  refine ⟨?_, ?_⟩
  · rw [← hf, State.mapFind, State.mapFind, hbank]
    refine mapFindFrom_congr (by rw [hbank]) (fun i => by rw [hbank]) (fun i => ?_) _ _
    exact s.bankWord_setBankWord_disjoint c b v (by omega)
  · rw [State.mapValue, s.bankWord_setBankWord_same c b hwf, pow_bytes, Nat.mod_eq_of_lt hv]

/-- The state after a key and its value have taken slot i. -/
def State.occupied (s : State) (c b k v i : Nat) : State :=
  ((s.setBankWord c b (16 * i) 8 k).setBankWord c b (16 * i + 8) 8 v).modBank c b (·.setUsed i true)

/-- A key that is new takes the first free slot, where it is found. -/
theorem mapFind_occupied {i : Nat} (hb : b < 16) (hcap : (s.bank c b).cap ≤ 512) (hk : k < 2 ^ 64) (hv : v < 2 ^ 64)
    (habsent : s.mapFind (c, b) k = none) (hslot : (s.bank c b).freeFrom (s.bank c b).cap (hash64 k % (s.bank c b).cap) = some i) :
    (s.occupied c b k v i).mapFind (c, b) k = some i ∧ (s.occupied c b k v i).mapValue (c, b) i = v := by
  have hpos : 0 < (s.bank c b).cap := Nat.pow_pos (by decide)
  obtain ⟨hfree, hi⟩ := Bank.freeFrom_some hslot (Nat.mod_lt _ hpos)
  have hwf' := s.wf_setBankWord c b hwf (16 * i) 8 k
  have hbank : (s.occupied c b k v i).bank c b = (s.bank c b).setUsed i true := by
    rw [State.occupied, State.bank_modBank _ _ _ _ hb, State.bank_setBankWord, State.bank_setBankWord]
  have hcap' : ((s.occupied c b k v i).bank c b).cap = (s.bank c b).cap := by rw [hbank]; rfl
  refine ⟨?_, ?_⟩
  · have hfind : (s.occupied c b k v i).mapFind (c, b) k = (s.occupied c b k v i).mapFindFrom (c, b) k (s.bank c b).cap (hash64 k % (s.bank c b).cap) :=
      congrArg (fun n => (s.occupied c b k v i).mapFindFrom (c, b) k n (hash64 k % n)) hcap'
    rw [hfind]
    refine mapFindFrom_inserted (m := (c, b)) hcap' (fun a => ?_) ?_ (fun a ha => ?_) hfree habsent hslot
    · rw [hbank, Bank.isUsed_setUsed _ (Nat.lt_of_lt_of_le hi hcap)]
    · rw [State.occupied, State.bankWord_modBank, State.bankWord_setBankWord_disjoint _ _ _ _ (by omega),
        s.bankWord_setBankWord_same c b hwf, pow_bytes, Nat.mod_eq_of_lt hk]
    · rw [State.occupied, State.bankWord_modBank, State.bankWord_setBankWord_disjoint _ _ _ _ (by omega),
        State.bankWord_setBankWord_disjoint _ _ _ _ (by omega)]
  · rw [State.mapValue, State.occupied, State.bankWord_modBank, State.bankWord_setBankWord_same _ _ _ hwf', pow_bytes, Nat.mod_eq_of_lt hv]

/-- What an insertion that may replace a value answers: PRESENT or OK, with the value found under its key, or FULL, with no change. -/
theorem mapInsert_found {r old : Nat} (hb : b < 16) (hcap : (s.bank c b).cap ≤ 512) (hk : k < 2 ^ 64) (hv : v < 2 ^ 64)
    (h : s.mapInsert (c, b) k v false = (r, old, t)) :
    (r = 0 ∨ r = 4 → ∃ f, t.mapFind (c, b) k = some f ∧ t.mapValue (c, b) f = v) ∧ (r = 1 → t = s) ∧ (r = 0 ∨ r = 1 ∨ r = 4) := by
  rw [State.mapInsert] at h
  cases hf : s.mapFind (c, b) k with
  | some f =>
    simp only [hf, Bool.false_eq_true, if_false, Prod.mk.injEq] at h
    obtain ⟨rfl, -, rfl⟩ := h
    exact ⟨fun _ => ⟨f, mapFind_updated hwf hv hf⟩, fun h => absurd h (by decide), .inr (.inr rfl)⟩
  | none =>
    cases hslot : (s.bank c b).freeFrom (s.bank c b).cap (hash64 k % (s.bank c b).cap) with
    | none =>
      simp only [hf, hslot, Prod.mk.injEq] at h
      obtain ⟨rfl, -, rfl⟩ := h
      exact ⟨fun h => absurd h (by decide), fun _ => rfl, .inr (.inl rfl)⟩
    | some i =>
      simp only [hf, hslot, Prod.mk.injEq] at h
      obtain ⟨rfl, -, rfl⟩ := h
      exact ⟨fun _ => ⟨i, mapFind_occupied hwf hb hcap hk hv hf hslot⟩, fun h => absurd h (by decide), .inl rfl⟩
end

end Sys2Proof.Machine
end

section
/-! HEAP banks (R138): sifting an item up or down restores the heap order and keeps the items. -/

open Sys2Proof

namespace Sys2Proof.Machine

/-! ### Heap order -/

/-- The first n values of v are in heap order: none is less than its parent. -/
def HeapOrder (v : Nat → Nat) (n : Nat) : Prop := ∀ i, 0 < i → i < n → v ((i - 1) / 2) ≤ v i

/-- The children of place i are not less than the parent of i. -/
def SkipsOrder (v : Nat → Nat) (n i : Nat) : Prop := ∀ j, 0 < j → j < n → (j - 1) / 2 = i → 0 < i → v ((i - 1) / 2) ≤ v j

/-- Heap order apart from place i, which may be less than its parent: where a sift up stands. -/
def UpOrder (v : Nat → Nat) (n i : Nat) : Prop := (∀ j, 0 < j → j < n → j ≠ i → v ((j - 1) / 2) ≤ v j) ∧ SkipsOrder v n i

/-- Heap order apart from place i, whose children may be less than it: where a sift down stands. -/
def DownOrder (v : Nat → Nat) (n i : Nat) : Prop :=
  (∀ j, 0 < j → j < n → (j - 1) / 2 ≠ i → v ((j - 1) / 2) ≤ v j) ∧ SkipsOrder v n i

section
variable {v : Nat → Nat} {n i : Nat}

/-- The root of a heap is least. -/
theorem HeapOrder.root_le (h : HeapOrder v n) : ∀ j, j < n → v 0 ≤ v j := by
  intro j
  induction j using Nat.strong_induction_on with
  | _ j ih =>
    intro hj
    rcases Nat.eq_zero_or_pos j with rfl | hpos
    · exact Nat.le_refl _
    · exact (ih _ (by omega) (by omega)).trans (h j hpos hj)

theorem UpOrder.heapOrder (h : UpOrder v n i) (hdone : i = 0 ∨ v ((i - 1) / 2) ≤ v i) : HeapOrder v n := by
  obtain ⟨horder, -⟩ := h
  intro j hpos hj
  by_cases hji : j = i
  · subst hji
    exact hdone.resolve_left (Nat.pos_iff_ne_zero.mp hpos)
  · exact horder j hpos hj hji

theorem DownOrder.heapOrder (h : DownOrder v n i) (hdone : ∀ j, 0 < j → j < n → (j - 1) / 2 = i → v i ≤ v j) : HeapOrder v n := by
  obtain ⟨horder, -⟩ := h
  intro j hpos hj
  by_cases hji : (j - 1) / 2 = i
  · rw [hji]
    exact hdone j hpos hj hji
  · exact horder j hpos hj hji

/-- An item less than its parent p changes places with it, and the sift up goes on at p. -/
theorem UpOrder.swap {p : Nat} (h : UpOrder v n i) (hpos : 0 < i) (hp : (i - 1) / 2 = p) (hless : v i < v p) :
    UpOrder (v ∘ Equiv.swap i p) n p := by
  obtain ⟨horder, hskips⟩ := h
  have hati : (v ∘ Equiv.swap i p) i = v p := congrArg v (Equiv.swap_apply_left i p)
  have hatp : (v ∘ Equiv.swap i p) p = v i := congrArg v (Equiv.swap_apply_right i p)
  have hother {j : Nat} (hji : j ≠ i) (hjp : j ≠ p) : (v ∘ Equiv.swap i p) j = v j := congrArg v (Equiv.swap_apply_of_ne_of_ne hji hjp)
  have hsibling {j : Nat} (hj : 0 < j) (hjn : j < n) (hji : j ≠ i) (hjp : (j - 1) / 2 = p) : v p ≤ v j := hjp ▸ horder j hj hjn hji
  refine ⟨fun j hj hjn hjp => ?_, fun j hj hjn hjp hppos => ?_⟩
  · by_cases hji : j = i
    · rw [hji, hp, hati, hatp]
      exact hless.le
    · rw [hother hji hjp]
      by_cases hqi : (j - 1) / 2 = i
      · rw [hqi, hati, ← hp]
        exact hskips j hj hjn hqi hpos
      · by_cases hqp : (j - 1) / 2 = p
        · rw [hqp, hatp]
          exact hless.le.trans (hsibling hj hjn hji hqp)
        · rw [hother hqi hqp]
          exact horder j hj hjn hji
  · have hgrand : v ((p - 1) / 2) ≤ v p := horder p hppos (by omega) (by omega)
    rw [hother (by omega) (by omega)]
    by_cases hji : j = i
    · rw [hji, hati]
      exact hgrand
    · rw [hother hji (by omega)]
      exact hgrand.trans (hsibling hj hjn hji hjp)

/-- An item greater than its least child c changes places with it, and the sift down goes on at c. -/
theorem DownOrder.swap {c : Nat} (h : DownOrder v n i) (hcpos : 0 < c) (hcn : c < n) (hc : (c - 1) / 2 = i)
    (hleast : ∀ j, 0 < j → j < n → (j - 1) / 2 = i → v c ≤ v j) (hless : v c < v i) : DownOrder (v ∘ Equiv.swap i c) n c := by
  obtain ⟨horder, hskips⟩ := h
  have hati : (v ∘ Equiv.swap i c) i = v c := congrArg v (Equiv.swap_apply_left i c)
  have hatc : (v ∘ Equiv.swap i c) c = v i := congrArg v (Equiv.swap_apply_right i c)
  have hother {j : Nat} (hji : j ≠ i) (hjc : j ≠ c) : (v ∘ Equiv.swap i c) j = v j := congrArg v (Equiv.swap_apply_of_ne_of_ne hji hjc)
  refine ⟨fun j hj hjn hqc => ?_, fun j hj hjn hqc _ => ?_⟩
  · by_cases hqi : (j - 1) / 2 = i
    · rw [hqi, hati]
      by_cases hjc : j = c
      · rw [hjc, hatc]
        exact hless.le
      · rw [hother (by omega) hjc]
        exact hleast j hj hjn hqi
    · rw [hother hqi hqc]
      by_cases hji : j = i
      · subst hji
        rw [hati]
        exact hskips c hcpos hcn hc hj
      · rw [hother hji (fun e => hqi (e ▸ hc))]
        exact horder j hj hjn hqi
  · rw [hc, hati, hother (by omega) (by omega), ← hqc]
    exact horder j hj hjn (by omega)
end

/-! ### Items -/

section
variable (s : State) (c b i : Nat) (x : Nat × Nat)

@[simp] theorem State.bank_setHeapItem (d a : Nat) : (s.setHeapItem c b i x).bank d a = s.bank d a := by
  rw [State.setHeapItem, State.bank_setBankWord, State.bank_setBankWord]

@[simp] theorem State.heapItem_modBank (f : Bank → Bank) (d a j : Nat) : (s.modBank c b f).heapItem d a j = s.heapItem d a j := by
  rw [State.heapItem, State.bankWord_modBank, State.bankWord_modBank, State.heapItem]

theorem State.wf_setHeapItem (h : Memory.wf (s.core c).mem = true) : Memory.wf ((s.setHeapItem c b i x).core c).mem = true :=
  State.wf_setBankWord _ _ _ (s.wf_setBankWord c b h _ _ _) _ _ _

/-- An item is an entry of 64 bits and a sequence of 16. -/
def FitsItem (x : Nat × Nat) : Prop := x.1 < 2 ^ 64 ∧ x.2 < 2 ^ 16

theorem State.heapItem_fits : FitsItem (s.heapItem c b i) := ⟨s.bankWord_lt c b _ 8, s.bankWord_lt c b _ 2⟩

theorem State.heapItem_setHeapItem (h : Memory.wf (s.core c).mem = true) {x : Nat × Nat} (hx : FitsItem x) :
    (s.setHeapItem c b i x).heapItem c b = Function.update (s.heapItem c b) i x := by
  obtain ⟨hentry, hseq⟩ := hx
  funext j
  by_cases hj : j = i
  · subst hj
    rw [Function.update_self, State.heapItem, State.setHeapItem,
      State.bankWord_setBankWord_same _ _ _ (s.wf_setBankWord c b h _ _ _), State.bankWord_setBankWord_disjoint _ _ _ _ (by omega),
      State.bankWord_setBankWord_same _ _ _ h, pow_bytes, pow_bytes, Nat.mod_eq_of_lt hentry, Nat.mod_eq_of_lt hseq]
  · rw [Function.update_of_ne hj, State.heapItem, State.setHeapItem]
    rw [State.bankWord_setBankWord_disjoint _ _ _ _ (by omega), State.bankWord_setBankWord_disjoint _ _ _ _ (by omega),
      State.bankWord_setBankWord_disjoint _ _ _ _ (by omega), State.bankWord_setBankWord_disjoint _ _ _ _ (by omega), State.heapItem]
end

/-- The state after the items i and j have changed places. -/
def State.heapSwap (s : State) (c b i j : Nat) : State := (s.setHeapItem c b i (s.heapItem c b j)).setHeapItem c b j (s.heapItem c b i)

/-- The keys of the items of a HEAP. -/
def State.heapKeys (s : State) (c b i : Nat) : Nat := heapKey (s.heapItem c b i)

/-- The least of the children of place i, where it has one among the first n. -/
def State.leastChild (s : State) (c b n i : Nat) : Nat :=
  if 2 * i + 1 + 1 < n && s.heapKeys c b (2 * i + 1 + 1) < s.heapKeys c b (2 * i + 1) then 2 * i + 1 + 1 else 2 * i + 1

/-- u differs from s in the order of the first n items of the HEAP alone. -/
structure State.Reordered (s u : State) (c b n : Nat) : Prop where
  bank : u.bank c b = s.bank c b
  wf : Memory.wf (u.core c).mem = true
  perm : ((List.range n).map (u.heapItem c b)).Perm ((List.range n).map (s.heapItem c b))

theorem State.Reordered.trans {s t u : State} {c b n : Nat} (h : s.Reordered t c b n) (h' : t.Reordered u c b n) : s.Reordered u c b n where
  bank := h'.bank.trans h.bank
  wf := h'.wf
  perm := h'.perm.trans h.perm

theorem map_swap_perm {α : Type} (g : Nat → α) {n i j : Nat} (hi : i < n) (hj : j < n) :
    ((List.range n).map (g ∘ Equiv.swap i j)).Perm ((List.range n).map g) := by
  have hswap : ((List.range n).map (Equiv.swap i j)).Perm (List.range n) := by
    refine (List.perm_ext_iff_of_nodup (List.nodup_range.map (Equiv.swap i j).injective) List.nodup_range).mpr fun a => ?_
    rw [List.mem_map_of_involutive (Equiv.swap_apply_self i j), List.mem_range, List.mem_range]
    rcases eq_or_ne a i with rfl | hai
    · rw [Equiv.swap_apply_left]
      exact iff_of_true hj hi
    · rcases eq_or_ne a j with rfl | haj
      · rw [Equiv.swap_apply_right]
        exact iff_of_true hi hj
      · rw [Equiv.swap_apply_of_ne_of_ne hai haj]
  rw [← List.map_map]
  exact hswap.map g

section
variable {s : State} {c b n : Nat} (hwf : Memory.wf (s.core c).mem = true)
include hwf

theorem State.Reordered.refl : s.Reordered s c b n := ⟨rfl, hwf, .refl _⟩

theorem heapItem_heapSwap (i j : Nat) : (s.heapSwap c b i j).heapItem c b = s.heapItem c b ∘ Equiv.swap i j := by
  rw [State.heapSwap, State.heapItem_setHeapItem _ _ _ _ (s.wf_setHeapItem _ _ _ _ hwf) (s.heapItem_fits _ _ _),
    State.heapItem_setHeapItem _ _ _ _ hwf (s.heapItem_fits _ _ _)]
  funext a
  rw [Function.comp_apply, Equiv.swap_apply_def, Function.update_apply, Function.update_apply]
  split
  · next haj =>
    subst haj
    split
    · next hai => rw [hai]
    · rfl
  · split
    · rfl
    · rfl

theorem heapKeys_heapSwap (i j : Nat) : (s.heapSwap c b i j).heapKeys c b = s.heapKeys c b ∘ Equiv.swap i j :=
  funext fun a => congrArg heapKey (congrFun (heapItem_heapSwap hwf i j) a)

theorem reordered_heapSwap {i j : Nat} (hi : i < n) (hj : j < n) : s.Reordered (s.heapSwap c b i j) c b n where
  bank := by rw [State.heapSwap, State.bank_setHeapItem, State.bank_setHeapItem]
  wf := State.wf_setHeapItem _ _ _ _ _ (s.wf_setHeapItem _ _ _ _ hwf)
  perm := by
    rw [heapItem_heapSwap hwf]
    exact map_swap_perm _ hi hj

/-! ### Sifts -/

omit hwf in
theorem heapDown_succ (f i : Nat) : s.heapDown c b n (f + 1) i = if n ≤ 2 * i + 1 then s else
    if s.heapKeys c b i ≤ s.heapKeys c b (s.leastChild c b n i) then s
    else (s.heapSwap c b i (s.leastChild c b n i)).heapDown c b n f (s.leastChild c b n i) := rfl

omit hwf in
/-- The least child is a child, and not greater than another. -/
theorem leastChild_spec {i : Nat} (h : ¬ n ≤ 2 * i + 1) : 0 < s.leastChild c b n i ∧ s.leastChild c b n i < n ∧
    (s.leastChild c b n i - 1) / 2 = i ∧ ∀ j, 0 < j → j < n → (j - 1) / 2 = i → s.heapKeys c b (s.leastChild c b n i) ≤ s.heapKeys c b j := by
  have hchild {j : Nat} (hj : 0 < j) (hji : (j - 1) / 2 = i) : j = 2 * i + 1 ∨ j = 2 * i + 1 + 1 := by omega
  rw [State.leastChild]
  split
  · next hright =>
    simp only [Bool.and_eq_true, decide_eq_true_eq] at hright
    obtain ⟨hn, hless⟩ := hright
    refine ⟨by omega, hn, by omega, fun j hj hjn hji => ?_⟩
    rcases hchild hj hji with rfl | rfl
    · exact hless.le
    · exact Nat.le_refl _
  · next hleft =>
    simp only [Bool.and_eq_true, decide_eq_true_eq, not_and, not_lt] at hleft
    refine ⟨by omega, by omega, by omega, fun j hj hjn hji => ?_⟩
    rcases hchild hj hji with rfl | rfl
    · exact Nat.le_refl _
    · exact hleft hjn

/-- A sift up restores the heap order and keeps the items. -/
theorem heapUp_restores {f i : Nat} (hi : i < n) (hf : i + 1 ≤ 2 ^ f) (h : UpOrder (s.heapKeys c b) n i) :
    s.Reordered (s.heapUp c b f i) c b n ∧ HeapOrder ((s.heapUp c b f i).heapKeys c b) n := by
  induction f generalizing s i with
  | zero => exact ⟨.refl hwf, h.heapOrder (.inl (by omega))⟩
  | succ f ih =>
    rw [State.heapUp]
    split
    · next hdone =>
      simp only [Bool.or_eq_true, beq_iff_eq, decide_eq_true_eq] at hdone
      exact ⟨.refl hwf, h.heapOrder hdone⟩
    · next hmore =>
      simp only [Bool.or_eq_true, beq_iff_eq, decide_eq_true_eq, not_or, not_le] at hmore
      obtain ⟨hpos, hless⟩ := hmore
      have hstep := reordered_heapSwap (b := b) hwf hi (show (i - 1) / 2 < n by omega)
      have horder := h.swap (Nat.pos_of_ne_zero hpos) rfl hless
      rw [← heapKeys_heapSwap hwf] at horder
      rw [Nat.pow_succ] at hf
      obtain ⟨hrest, hheap⟩ := ih hstep.wf (by omega) (by omega) horder
      exact ⟨hstep.trans hrest, hheap⟩

/-- A sift down restores the heap order and keeps the items. -/
theorem heapDown_restores {f i : Nat} (hf : n ≤ (i + 1) * 2 ^ f) (h : DownOrder (s.heapKeys c b) n i) :
    s.Reordered (s.heapDown c b n f i) c b n ∧ HeapOrder ((s.heapDown c b n f i).heapKeys c b) n := by
  induction f generalizing s i with
  | zero => exact ⟨.refl hwf, h.heapOrder fun j hpos hj hji => absurd hf (by omega)⟩
  | succ f ih =>
    rw [heapDown_succ]
    by_cases hleaf : n ≤ 2 * i + 1
    · rw [if_pos hleaf]
      exact ⟨.refl hwf, h.heapOrder fun j hpos hj hji => absurd hleaf (by omega)⟩
    · rw [if_neg hleaf]
      obtain ⟨hcpos, hcn, hc, hleast⟩ := leastChild_spec (s := s) (c := c) (b := b) hleaf
      generalize s.leastChild c b n i = j at hcpos hcn hc hleast ⊢
      split
      · next hdone => exact ⟨.refl hwf, h.heapOrder fun k hpos hk hki => hdone.trans (hleast k hpos hk hki)⟩
      · next hmore =>
        have hstep := reordered_heapSwap (b := b) hwf (show i < n by omega) hcn
        have horder := h.swap hcpos hcn hc hleast (Nat.lt_of_not_le hmore)
        rw [← heapKeys_heapSwap hwf] at horder
        have hfuel : n ≤ (j + 1) * 2 ^ f := hf.trans (by
          rw [Nat.pow_succ', ← Nat.mul_assoc]
          exact Nat.mul_le_mul_right _ (by omega))
        obtain ⟨hrest, hheap⟩ := ih hstep.wf hfuel horder
        exact ⟨hstep.trans hrest, hheap⟩
end

/-! ### Insertion and removal (R138) -/

section
variable {s : State} {c b : Nat}

theorem soundHeap_iff : s.soundHeap c b ↔ b < 16 ∧ (s.bank c b).cap ≤ 512 ∧ (s.bank c b).hcount ≤ (s.bank c b).cap ∧
    Memory.wf (s.core c).mem = true ∧ HeapOrder (s.heapKeys c b) (s.bank c b).hcount := .rfl

theorem heapInsert_none_iff (h : s.soundHeap c b) (e : Nat) : s.heapInsert c b e = none ↔ (s.bank c b).hcount = (s.bank c b).cap := by
  obtain ⟨-, -, hle, -, -⟩ := soundHeap_iff.mp h
  rw [State.heapInsert]
  simp only [ite_eq_left_iff, reduceCtorEq, imp_false, not_not]
  exact ⟨hle.antisymm, fun h => h.ge⟩

/-- The state after an item has been added behind the others, before it is sifted up. -/
def State.heapAdded (s : State) (c b e : Nat) : State :=
  (s.setHeapItem c b (s.bank c b).hcount (e, (s.bank c b).hseq.toNat)).modBank c b
    (fun x => { x with hseq := x.hseq + 1, hcount := x.hcount + 1 })

/-- An insertion adds its entry with the next sequence, and the heap stays one (R138). -/
theorem heapInsert_some (h : s.soundHeap c b) {e : Nat} (he : e < 2 ^ 64) {t : State} (ht : s.heapInsert c b e = some t) :
    t.soundHeap c b ∧ (t.heapItems c b).Perm ((e, (s.bank c b).hseq.toNat) :: s.heapItems c b) ∧
      (t.bank c b).hseq = (s.bank c b).hseq + 1 := by
  obtain ⟨hb, hcap, -, hwf, horder⟩ := soundHeap_iff.mp h
  rw [State.heapInsert] at ht
  split at ht
  · cases ht
  next hroom =>
  rw [not_le] at hroom
  obtain rfl : (s.heapAdded c b e).heapUp c b 9 (s.bank c b).hcount = t := Option.some.inj ht
  have hitems : (s.heapAdded c b e).heapItem c b =
      Function.update (s.heapItem c b) (s.bank c b).hcount (e, (s.bank c b).hseq.toNat) := by
    funext j
    rw [State.heapAdded, State.heapItem_modBank, State.heapItem_setHeapItem _ _ _ _ hwf ⟨he, (s.bank c b).hseq.isLt⟩]
  have hbank : (s.heapAdded c b e).bank c b = { s.bank c b with hseq := (s.bank c b).hseq + 1, hcount := (s.bank c b).hcount + 1 } := by
    rw [State.heapAdded, State.bank_modBank _ _ _ _ hb, State.bank_setHeapItem]
  have hwf' : Memory.wf ((s.heapAdded c b e).core c).mem = true := by
    rw [State.heapAdded, State.mem_modBank]
    exact s.wf_setHeapItem _ _ _ _ hwf
  generalize hs1 : s.heapAdded c b e = s1 at hitems hbank hwf' ⊢
  generalize hn : (s.bank c b).hcount = n at *
  have hkeys {j : Nat} (hj : j ≠ n) : s1.heapKeys c b j = s.heapKeys c b j := by
    rw [State.heapKeys, hitems, Function.update_of_ne hj, State.heapKeys]
  have hup : UpOrder (s1.heapKeys c b) (n + 1) n := by
    refine ⟨fun j hpos hj hjn => ?_, fun j hpos hj hjn _ => absurd hjn (by omega)⟩
    rw [hkeys (by omega), hkeys hjn]
    exact horder j hpos (by omega)
  obtain ⟨⟨hbank', hwf'', hperm⟩, hheap⟩ := heapUp_restores hwf' (Nat.lt_succ_self n) (show n + 1 ≤ 2 ^ 9 from Nat.le_trans hroom hcap) hup
  rw [hbank] at hbank'
  have hcount : ((s1.heapUp c b 9 n).bank c b).hcount = n + 1 := by rw [hbank']
  have hcap' : ((s1.heapUp c b 9 n).bank c b).cap = (s.bank c b).cap := by
    rw [hbank']
    rfl
  refine ⟨soundHeap_iff.mpr ⟨hb, hcap' ▸ hcap, ?_, hwf'', ?_⟩, ?_, ?_⟩
  · rw [hcount, hcap']
    exact hroom
  · rw [hcount]
    exact hheap
  · have hold : (List.range n).map (s1.heapItem c b) = s.heapItems c b := by
      rw [State.heapItems, hn]
      refine List.map_congr_left fun j hj => ?_
      rw [hitems, Function.update_of_ne (List.mem_range.mp hj).ne]
    rw [State.heapItems, hcount]
    refine hperm.trans ?_
    rw [List.range_succ, List.map_append, hold, List.map_singleton, hitems, Function.update_self]
    exact List.perm_append_singleton _ _
  · rw [hbank']

theorem heapPop_none_iff : s.heapPop c b = none ↔ (s.bank c b).hcount = 0 := by
  rw [State.heapPop]
  simp only [ite_eq_left_iff, reduceCtorEq, imp_false, not_not, beq_iff_eq]

/-- The state after the last item has taken the place of the root, before it is sifted down. -/
def State.heapRooted (s : State) (c b : Nat) : State :=
  let n := (s.bank c b).hcount - 1
  (s.setHeapItem c b 0 (s.heapItem c b n)).modBank c b (fun x => { x with hcount := n, hseq := if n == 0 then 0 else x.hseq })

/-- The first item, with the others after the last of them has taken its place, makes up the items. -/
theorem perm_cons_update_zero {α : Type} (g : Nat → α) (n : Nat) :
    ((List.range (n + 1)).map g).Perm (g 0 :: (List.range n).map (Function.update g 0 (g n))) := by
  rw [List.range_succ_eq_map, List.map_cons, List.map_map]
  refine .cons _ ?_
  cases n with
  | zero => exact .refl _
  | succ n =>
    have htail : (List.range n).map (Function.update g 0 (g (n + 1)) ∘ Nat.succ) = (List.range n).map (g ∘ Nat.succ) :=
      List.map_congr_left fun j _ => Function.update_of_ne (Nat.succ_ne_zero j) _ _
    have hright : (List.range (n + 1)).map (Function.update g 0 (g (n + 1))) = g (n + 1) :: (List.range n).map (g ∘ Nat.succ) := by
      rw [List.range_succ_eq_map, List.map_cons, List.map_map, htail, Function.update_self]
    rw [hright, List.range_succ, List.map_append, List.map_singleton]
    exact List.perm_append_singleton _ _

/-- A removal gives an entry of the least key and leaves the others, and the heap stays one (R138). -/
theorem heapPop_some (h : s.soundHeap c b) {e : Nat} {t : State} (ht : s.heapPop c b = some (e, t)) :
    t.soundHeap c b ∧ (t.bank c b).hseq = (if (s.bank c b).hcount = 1 then 0 else (s.bank c b).hseq) ∧
      ∃ q, (s.heapItems c b).Perm ((e, q) :: t.heapItems c b) ∧ ∀ y ∈ t.heapItems c b, heapKey (e, q) ≤ heapKey y := by
  obtain ⟨hb, hcap, hle, hwf, horder⟩ := soundHeap_iff.mp h
  rw [State.heapPop] at ht
  split at ht
  · cases ht
  next hpos =>
  obtain ⟨rfl, rfl⟩ : (s.heapItem c b 0).1 = e ∧ (s.heapRooted c b).heapDown c b ((s.bank c b).hcount - 1) 9 0 = t :=
    Prod.mk.inj (Option.some.inj ht)
  obtain ⟨n, hn⟩ := Nat.exists_eq_succ_of_ne_zero (fun h0 => hpos (beq_iff_eq.mpr h0))
  have hitems : (s.heapRooted c b).heapItem c b = Function.update (s.heapItem c b) 0 (s.heapItem c b n) := by
    funext j
    rw [State.heapRooted, State.heapItem_modBank, State.heapItem_setHeapItem _ _ _ _ hwf (s.heapItem_fits _ _ _), hn]
    rfl
  have hbank : (s.heapRooted c b).bank c b = { s.bank c b with hcount := n, hseq := if n == 0 then 0 else (s.bank c b).hseq } := by
    rw [State.heapRooted, State.bank_modBank _ _ _ _ hb, State.bank_setHeapItem, hn]
    rfl
  have hwf' : Memory.wf ((s.heapRooted c b).core c).mem = true := by
    rw [State.heapRooted, State.mem_modBank]
    exact s.wf_setHeapItem _ _ _ _ hwf
  generalize hs1 : s.heapRooted c b = s1 at hitems hbank hwf' ⊢
  rw [hn] at horder hle ⊢
  rw [Nat.succ_sub_one]
  have hdown : DownOrder (s1.heapKeys c b) n 0 := by
    refine ⟨fun j hpos hj hjn => ?_, fun j hpos hj hjn h0 => absurd h0 (Nat.lt_irrefl 0)⟩
    have hkeys {j : Nat} (hj : j ≠ 0) : s1.heapKeys c b j = s.heapKeys c b j := by
      rw [State.heapKeys, hitems, Function.update_of_ne hj, State.heapKeys]
    rw [hkeys hjn, hkeys hpos.ne']
    exact horder j hpos (Nat.lt_succ_of_lt hj)
  obtain ⟨⟨hbank', hwf'', hperm⟩, hheap⟩ := heapDown_restores hwf' (f := 9) (i := 0) (by omega) hdown
  rw [hbank] at hbank'
  have hcount : ((s1.heapDown c b n 9 0).bank c b).hcount = n := by rw [hbank']
  have hcap' : ((s1.heapDown c b n 9 0).bank c b).cap = (s.bank c b).cap := by
    rw [hbank']
    rfl
  have hall : (s.heapItems c b).Perm (s.heapItem c b 0 :: (s1.heapDown c b n 9 0).heapItems c b) := by
    rw [State.heapItems, State.heapItems, hn, hcount]
    refine (perm_cons_update_zero _ n).trans (.cons _ ?_)
    rw [← hitems]
    exact hperm.symm
  refine ⟨soundHeap_iff.mpr ⟨hb, hcap' ▸ hcap, ?_, hwf'', ?_⟩, ?_, (s.heapItem c b 0).2, hall, fun y hy => ?_⟩
  · rw [hcount, hcap']
    exact Nat.le_of_succ_le hle
  · rw [hcount]
    exact hheap
  · rw [hbank']
    simp only [beq_iff_eq, Nat.succ_eq_add_one, Nat.add_eq_right]
  · have hmem := hall.mem_iff.mpr (List.mem_cons_of_mem _ hy)
    rw [State.heapItems, List.mem_map] at hmem
    obtain ⟨j, hj, rfl⟩ := hmem
    rw [hn, List.mem_range] at hj
    exact horder.root_le j hj
end

end Sys2Proof.Machine
end

section
/-! HIST banks (R139): the bin of a key, and what BINC adds to it. -/

open Sys2Proof

namespace Sys2Proof.Machine

/-! ### The fields of BANKCTL (R130) -/

section
variable (w : BitVec 64)

theorem ctlMask_eq : ctlMask w.toNat = (w.extractLsb' 15 11).toNat := by
  rw [BitVec.extractLsb'_toNat, Nat.shiftRight_eq_div_pow, ctlMask]

theorem ctlShift_eq : ctlShift w.toNat = (w.extractLsb' 26 6).toNat := by
  rw [BitVec.extractLsb'_toNat, Nat.shiftRight_eq_div_pow, ctlShift]

theorem ctlEdge_eq : ctlEdge w.toNat = (w.getLsbD 14).toNat := by
  rw [BitVec.getLsbD, Nat.toNat_testBit, ctlEdge]

/-- The base of a HIST is a signed field of 32 bits. -/
theorem base_eq : ofInt 64 (toSigned 32 (w.toNat / 2 ^ 32)) = ((w.extractLsb' 32 32).signExtend 64).toNat := by
  have hfield : w.extractLsb' 32 32 = BitVec.ofNat 32 (w.toNat / 2 ^ 32) := by
    rw [← Nat.shiftRight_eq_div_pow]
    rfl
  rw [hfield, toSigned_eq_toInt (by decide), BitVec.signExtend, BitVec.toNat_ofInt, ofInt]
end

/-- The key's bin as the model computes it and as words subtract and shift. -/
theorem sub_shift_toNat (k b : BitVec 64) (n : Nat) : ((k - b) >>> n).toNat = (k.toNat + 2 ^ 64 - b.toNat) % 2 ^ 64 / 2 ^ n := by
  rw [BitVec.toNat_ushiftRight, BitVec.toNat_sub, Nat.shiftRight_eq_div_pow]
  congr 2
  have := b.isLt
  omega

/-- The bin that a key is counted in by a HIST of BANKCTL w, whatever the number of bins. -/
def binIndex (w k : BitVec 64) : Nat := ((k - (w.extractLsb' 32 32).signExtend 64) >>> (w.extractLsb' 26 6).toNat).toNat

/-! ### Bins of an unspanned bank (R139) -/

section
variable {s : State} {c b : Nat} (hspan : (s.bank c b).span = none)
include hspan

theorem binOf_unspanned (k : BitVec 64) : s.binOf c b k.toNat =
    if ctlMask (s.bank c b).ctl.toNat < binIndex (s.bank c b).ctl k then
      if (s.bank c b).ctl.getLsbD 14 = true then some (ctlMask (s.bank c b).ctl.toNat + 1) else none
    else some (binIndex (s.bank c b).ctl k) := by
  rw [State.binOf, s.members_of_unspanned c b hspan, base_eq, ctlShift_eq, ← sub_shift_toNat, ctlEdge_eq, ← binIndex, List.length_singleton, Nat.one_mul]
  cases (s.bank c b).ctl.getLsbD 14
  · rfl
  · rfl

theorem binAt_unspanned {j : Nat} (hj : j ≤ ctlMask (s.bank c b).ctl.toNat + 1) : s.binAt c b j = ((c, b), j) := by
  rw [State.binAt, s.members_of_unspanned c b hspan, List.length_singleton, Nat.one_mul]
  split
  · next hlt => rw [Nat.div_eq_of_lt hlt, Nat.mod_eq_of_lt hlt]; rfl
  · next hge => rw [Nat.le_antisymm hj (Nat.le_of_not_lt hge)]; rfl

theorem binGet_unspanned {j : Nat} (hj : j ≤ ctlMask (s.bank c b).ctl.toNat + 1) : s.binGet c b j = s.bankWord c b (4 * j) 4 := by
  rw [State.binGet, binAt_unspanned hspan hj]

theorem binSet_unspanned {j : Nat} (hj : j ≤ ctlMask (s.bank c b).ctl.toNat + 1) (v : Nat) :
    s.binSet c b j v = s.setBankWord c b (4 * j) 4 v := by
  rw [State.binSet, binAt_unspanned hspan hj]

/-- An addition to a bin saturates at 2^32 - 1 (R139). -/
theorem binAdd_unspanned {j : Nat} (hj : j ≤ ctlMask (s.bank c b).ctl.toNat + 1) (n : Nat) : s.binAdd c b j n =
    (decide (0xFFFFFFFF < s.bankWord c b (4 * j) 4 + n), s.setBankWord c b (4 * j) 4 (min (s.bankWord c b (4 * j) 4 + n) 0xFFFFFFFF)) := by
  have hmax : 2 ^ 32 - 1 = 0xFFFFFFFF := rfl
  rw [State.binAdd, binGet_unspanned hspan hj, binSet_unspanned hspan hj, binSet_unspanned hspan hj, hmax]
  split
  · next hsat => rw [decide_eq_true hsat, Nat.min_eq_right hsat.le]
  · next hfits => rw [decide_eq_false hfits, Nat.min_eq_left (Nat.le_of_not_lt hfits)]
end

/-! ### BINC (R139, R147) -/

/-- A BINC of a HIST bank that is neither spanned nor a mailbox. -/
structure State.HistReq (s : State) (q : BankReq) : Prop where
  code : q.code = 0xB8
  pers : (s.bank q.core q.bank).pers = 5
  member : (s.bank q.core q.bank).isMember = false
  span : (s.bank q.core q.bank).span = none
  mailbox : s.isMailbox q.core q.bank = false

section
variable {s : State} {q : BankReq} (h : s.HistReq q)
include h

/-- BINC answers ABSENT where its key has no bin. -/
theorem State.HistReq.bankOp_absent (hj : s.binOf q.core q.bank q.bv.toNat = none) : s.bankOp q = .ok ({ status := 3 }, s) := by
  simp [State.bankOp, h.code, h.member, h.mailbox, h.pers, bankCell, hj]

/-- BINC adds to the bin of its key, and answers what it then holds. -/
theorem State.HistReq.bankOp_bin {j : Nat} (hj : s.binOf q.core q.bank q.bv.toNat = some j) : s.bankOp q =
    .ok ({ d := BitVec.ofNat 64 ((s.binAdd q.core q.bank j q.din.toNat).2.binGet q.core q.bank j),
           sat := (s.binAdd q.core q.bank j q.din.toNat).1 }, (s.binAdd q.core q.bank j q.din.toNat).2) := by
  simp [State.bankOp, h.code, h.member, h.mailbox, h.pers, bankCell, hj]

/-- BINC adds to one bin of its bank, saturating, and leaves the others. -/
theorem State.HistReq.bankOp_adds (hwf : Memory.wf (s.core q.core).mem = true) {j : Nat}
    (hj : s.binOf q.core q.bank q.bv.toNat = some j) (hle : j ≤ ctlMask (s.bank q.core q.bank).ctl.toNat + 1) :
    ∃ (r : BankRes) (t : State), s.bankOp q = .ok (r, t) ∧ r.status = 0 ∧
      r.d = BitVec.ofNat 64 (min (s.bankWord q.core q.bank (4 * j) 4 + q.din.toNat) 0xFFFFFFFF) ∧
      (r.sat = true ↔ 0xFFFFFFFF < s.bankWord q.core q.bank (4 * j) 4 + q.din.toNat) ∧
      t.bankWord q.core q.bank (4 * j) 4 = min (s.bankWord q.core q.bank (4 * j) 4 + q.din.toNat) 0xFFFFFFFF ∧
      ∀ i, i < 2048 → i ≠ j → t.bankWord q.core q.bank (4 * i) 4 = s.bankWord q.core q.bank (4 * i) 4 := by
  generalize hsum : s.bankWord q.core q.bank (4 * j) 4 + q.din.toNat = sum
  have hadd := binAdd_unspanned h.span hle q.din.toNat
  rw [hsum] at hadd
  have hword : (s.setBankWord q.core q.bank (4 * j) 4 (min sum 0xFFFFFFFF)).bankWord q.core q.bank (4 * j) 4 = min sum 0xFFFFFFFF := by
    rw [s.bankWord_setBankWord_same _ _ hwf]
    exact Nat.mod_eq_of_lt (Nat.lt_of_le_of_lt (Nat.min_le_right _ _) (by decide))
  have hbank := s.bank_setBankWord q.core q.bank (4 * j) 4 (min sum 0xFFFFFFFF) q.core q.bank
  have hget : (s.setBankWord q.core q.bank (4 * j) 4 (min sum 0xFFFFFFFF)).binGet q.core q.bank j = min sum 0xFFFFFFFF :=
    (binGet_unspanned (hbank ▸ h.span) (hbank ▸ hle)).trans hword
  refine ⟨_, _, h.bankOp_bin hj, rfl, ?_, ?_, ?_, fun i _ hij => ?_⟩
  · rw [hadd, hget]
  · rw [hadd, decide_eq_true_eq]
  · rw [hadd, hword]
  · rw [hadd]
    exact s.bankWord_setBankWord_disjoint _ _ _ (place_disjoint hij)
end

end Sys2Proof.Machine

open Sys2Proof.Machine

/-- Settles O28: a QUEUE's ring of entries is a list that puts append to and takes shorten; a STACK's and a MAP's bytes are read
where they were written; a HEAP's sifts restore its order and rearrange its items alone; BINC writes one bin. -/
theorem bankContents : Obligations.BankContents := by
  unfold Obligations.BankContents
  refine ⟨⟨fun s t c b i e h => ⟨fun hput => ?_, h.queueTake_some, h.queuePut_none_iff e, h.queueTake_none_iff⟩,
    fun s t c b e hb hspan hwf ht => stackTake_stackPut hspan hb hwf ht⟩, ?_,
    fun s t c b k v r old hb hcap hwf hk hv h => mapInsert_found hwf hb hcap hk hv h,
    fun s c b h => ⟨fun e he => ⟨heapInsert_none_iff h e, fun t => heapInsert_some h he⟩, heapPop_none_iff, fun e t => heapPop_some h⟩, ?_⟩
  · have hroom : (s.bank c b).count i < (s.bank c b).depth i := by
      obtain ⟨-, -, -, -, -, hle, -⟩ := id h
      refine Nat.lt_of_le_of_ne hle fun hfull => ?_
      rw [(h.queuePut_none_iff e).mpr hfull] at hput
      cases hput
    rw [h.queuePut_some hroom] at hput
    exact Option.some.inj hput ▸ h.queueList_pushed hroom
  · intro s q hsound x i hpers hmember hmailbox hle hwide hone
    have h : s.QueueReq q i := ⟨rfl, hsound, hpers, hmember, hmailbox, hle, hwide, hone⟩
    refine ⟨fun hcode hempty => ?_, fun hcode hfull => ?_, fun hcode hroom => ?_, fun hcode => ?_⟩
    · have hnil : s.queueList q.core q.bank i = [] := congrArg (fun n => (List.range n).map _) hempty
      rw [h.bankOp_get hcode, hsound.queueTake_none_iff.mpr hnil, Option.elim_none]
    · rw [h.bankOp_put hcode, (hsound.queuePut_none_iff _).mpr hfull, Option.elim_none]
    · rw [h.bankOp_put hcode, hsound.queuePut_some hroom, Option.elim_some]
      exact ⟨_, _, rfl, rfl, congrArg (BitVec.ofNat 64) (hsound.liveCount_pushed hpers hle hone _)⟩
    · obtain ⟨r, hr, hd⟩ := h.bankOp_count hcode
      exact ⟨r, hr, hd.trans (congrArg (BitVec.ofNat 64) (hsound.liveCount_eq hpers hle hone))⟩
  · intro s q x j mask edge bin sum hcode hb hpers hmember hspan hmailbox _ hwf
    have h : s.HistReq q := ⟨hcode, hpers, hmember, hspan, hmailbox⟩
    have hof : s.binOf q.core q.bank q.bv.toNat = if mask < j then if edge = true then some (mask + 1) else none else some j := by
      rw [binOf_unspanned hspan, ctlMask_eq]
      rfl
    refine ⟨fun hbin => ?_, fun hout hnone => ?_⟩
    · have hsome : s.binOf q.core q.bank q.bv.toNat = some bin := by
        rw [hof]
        split
        · next hout => exact (if_pos (hbin.resolve_left (Nat.not_le.mpr hout))).trans (congrArg some (Nat.min_eq_right hout).symm)
        · next hin => exact congrArg some (Nat.min_eq_left (Nat.le_succ_of_le (Nat.le_of_not_lt hin))).symm
      exact h.bankOp_adds hwf hsome (ctlMask_eq _ ▸ Nat.min_le_right j (mask + 1))
    · exact h.bankOp_absent (by rw [hof, if_pos hout, hnone, if_neg Bool.false_ne_true])

end

section
/-! What sending leaves as it was (R195, R200, R271): the combining buffers that depart, the retry entries of an NI, and the packets that they
put on the network. -/

open Sys2Proof

namespace Sys2Proof.Machine

/-! ### Sending -/

/-- A slot apart from what sending notes in it: its retry entries, its combining buffer and its unacknowledged stores. -/
def Slot.unsent (x : Slot) : Slot := { x with ni := [], comb := [], unacked := [] }

/-- A core apart from its slots. -/
def Core.unslotted (x : Core) : Core := { x with slots := Vector.replicate 4 {} }

/-- Between two states only packets were put on the network or taken from it, and noted in the slots that sent them. -/
structure State.Sent (s t : State) : Prop where
  rest : t = { s with cores := t.cores, net := t.net }
  cores : ∀ d, (t.core d).unslotted = (s.core d).unslotted
  slots : ∀ d j, (t.slot d j).unsent = (s.slot d j).unsent

theorem State.Sent.refl (s : State) : s.Sent s := ⟨rfl, fun _ => rfl, fun _ _ => rfl⟩

theorem State.Sent.setNet (s : State) (net : List Packet) : s.Sent { s with net } := ⟨rfl, fun _ => rfl, fun _ _ => rfl⟩

theorem State.Sent.trans {s t u : State} (h : s.Sent t) (g : t.Sent u) : s.Sent u := by
  refine ⟨?_, fun d => (g.cores d).trans (h.cores d), fun d j => (g.slots d j).trans (h.slots d j)⟩
  rw [g.rest, h.rest]

theorem State.Sent.modSlot (s : State) (c k : Nat) {f : Slot → Slot} (hf : ∀ x, (f x).unsent = x.unsent) : s.Sent (s.modSlot c k f) :=
  ⟨rfl, fun d => State.core_modCore_keeps Core.unslotted s (by rfl) d, fun d j => State.slot_modSlot_keeps Slot.unsent hf s c k d j⟩

section
variable {s t : State} (h : s.Sent t)
include h

/-- What of a slot sending does not note is as it was. -/
theorem State.Sent.slot_keeps {α : Type} (π : Slot → α) (hπ : ∀ x, π x.unsent = π x) (d j : Nat) : π (t.slot d j) = π (s.slot d j) := by
  rw [← hπ, h.slots, hπ]

/-- What of a core is not in its slots is as it was. -/
theorem State.Sent.core_keeps {α : Type} (π : Core → α) (hπ : ∀ x, π x.unslotted = π x) (d : Nat) : π (t.core d) = π (s.core d) := by
  rw [← hπ, h.cores, hπ]

theorem State.Sent.cur_eq : t.cur = s.cur := by rw [h.rest]

theorem State.Sent.mem_eq (d : Nat) : (t.core d).mem = (s.core d).mem := h.core_keeps Core.mem (fun _ => rfl) d

theorem State.Sent.bank_eq (d b : Nat) : t.bank d b = s.bank d b := h.core_keeps (·.bank b) (fun _ => rfl) d

theorem State.Sent.sameMemory : s.sameMemory t := by
  refine ⟨fun d => ⟨h.mem_eq d, h.core_keeps Core.leg (fun _ => rfl) d, h.core_keeps Core.l1 (fun _ => rfl) d⟩, fun n => ?_, ?_, ?_, ?_⟩
  · rw [h.rest]
    exact ⟨rfl, rfl⟩
  all_goals rw [h.rest]

theorem State.Sent.queueList_eq (c b i : Nat) : t.queueList c b i = s.queueList c b i := by
  simp only [State.queueList, State.bankWord, h.bank_eq, h.mem_eq]
end

@[simp] theorem State.slot_sendPacket (s : State) (p : Packet) (d j : Nat) : (s.sendPacket p).slot d j = s.slot d j := rfl

/-- The slots of a core are no part of its banks. -/
theorem State.bank_modSlot (s : State) (c k : Nat) (f : Slot → Slot) (d b : Nat) : (s.modSlot c k f).bank d b = s.bank d b := by
  simp only [State.bank, Core.bank, State.core_modSlot_banks]

theorem State.queueList_modSlot (s : State) (c k : Nat) (f : Slot → Slot) (d b i : Nat) :
    (s.modSlot c k f).queueList d b i = s.queueList d b i := by
  simp only [State.queueList, State.bankWord, State.bank_modSlot, State.core_modSlot_mem]

/-! ### The combining buffer (R271) -/

section
variable (s : State) (c k : Nat)

theorem State.Sent.sendComb (e : CombEntry) : s.Sent (s.sendComb c k e) := by
  unfold State.sendComb
  dsimp only
  split
  · exact .refl s
  · exact .trans (.modSlot s c k fun _ => by rfl) (.setNet _ _)

theorem State.Sent.flushComb (p : CombEntry → Bool) : s.Sent (s.flushComb c k p) := by
  rw [State.flushComb]
  exact List.foldlRecOn (motive := fun t => s.Sent t) _ _ (.refl s) fun t h e _ => h.trans (.sendComb t c k e)

theorem State.sendComb_ni (e : CombEntry) (d j : Nat) : ((s.sendComb c k e).slot d j).ni = (s.slot d j).ni := by
  unfold State.sendComb
  dsimp only
  split
  · rfl
  · rw [State.slot_sendPacket]
    exact State.slot_modSlot_keeps Slot.ni (fun _ => by rfl) s c k d j

/-- A combining buffer departs without a word to the NI. -/
theorem State.flushComb_ni (p : CombEntry → Bool) (d j : Nat) : ((s.flushComb c k p).slot d j).ni = (s.slot d j).ni := by
  rw [State.flushComb]
  exact List.foldlRecOn (motive := fun t => (State.slot t d j).ni = (s.slot d j).ni) _ _ rfl
    fun t h _ _ => (t.sendComb_ni c k _ d j).trans h

theorem State.flushComb_none {p : CombEntry → Bool} (h : ∀ e ∈ (s.slot c k).comb, p e = false) : s.flushComb c k p = s := by
  have hnil : (s.slot c k).comb.filter p = [] := List.filter_eq_nil_iff.mpr fun e he => by rw [h e he]; exact Bool.false_ne_true
  rw [State.flushComb, hnil, List.foldl_nil]

theorem State.flushComb_nil (p : CombEntry → Bool) (h : (s.slot c k).comb = []) : s.flushComb c k p = s :=
  s.flushComb_none c k fun _ he => absurd (h ▸ he) List.not_mem_nil
end

/-- No combining buffer sends what it does not hold: where every store before a bound is acknowledged, none is to be sent (R195). -/
theorem State.flushBefore_done {s : State} {h : Nat × Nat} {upTo : Nat} (hdone : s.storesBefore h upTo = false) : s.flushBefore h upTo = s := by
  have hcomb : ∀ x : Slot, x.storesBefore upTo = false → ∀ e ∈ x.comb, Decidable.decide (e.ord < upTo) = false := by
    intro x hx
    simp only [Slot.storesBefore, Bool.or_eq_false_iff] at hx
    obtain ⟨⟨-, hx⟩, -⟩ := hx
    simpa using hx
  simp only [State.storesBefore, Bool.or_eq_false_iff] at hdone
  obtain ⟨hown, haway⟩ := hdone
  simp only [State.flushBefore]
  rw [s.flushComb_none _ _ (hcomb _ hown)]
  cases hg : (s.slot h.1 h.2).awayAt with
  | none => rfl
  | some g =>
    rw [hg] at haway
    exact s.flushComb_none _ _ (hcomb _ haway)

end Sys2Proof.Machine
end

section
/-! The retry entries of an NI (R195, R200-R203): how an entry joins them, leaves as a packet, and is put in place of itself. -/

open Sys2Proof

namespace Sys2Proof.Machine

/-! ### Retirement -/

/-- A slot once its instruction has retired, with the thread that this leaves. -/
def Slot.retired (x : Slot) (t : Thread) : Slot :=
  { x with readyFor := 0, waited := 0, noMatch := false, badPage := none, badLine := none, draining := false, leaving := false,
           sq := x.sq.map (·.skid), thr := t }

theorem State.finish_slot_retired (s : State) {c k : Nat} (len : Len) (hc : s.cur = .slot c k) (hk : k < 4) : (s.finish len).slot c k =
    (s.slot c k).retired { (s.slot c k).thr with pc := (s.slot c k).thr.pc + BitVec.ofNat 64 (lenBytes len) } := by
  rw [s.finish_slot len hc hk, s.noteIssue_slot hc hk]
  rfl

/-- What a retirement keeps of its own slot, it keeps of every slot. -/
theorem State.slot_finish_keeps {α : Type} (π : Slot → α) (s : State) {c k : Nat} (len : Len) (hc : s.cur = .slot c k) (hk : k < 4)
    (hπ : ∀ x t, π (x.retired t) = π x) (d j : Nat) : π ((s.finish len).slot d j) = π (s.slot d j) := by
  by_cases hdj : (d, j) = (c, k)
  · obtain ⟨rfl, rfl⟩ := Prod.mk.inj hdj
    rw [s.finish_slot_retired len hc hk, hπ]
  · obtain ⟨-, -, -, hslots, -⟩ := s.finish_frame len hc
    rw [hslots d j hdj]

theorem State.sameMemory_finish (s : State) {c k : Nat} (len : Len) (hc : s.cur = .slot c k) : s.sameMemory (s.finish len) := by
  obtain ⟨hmem, -⟩ := s.finish_frame len hc
  exact hmem

/-! ### The list of entries -/

/-- An entry put in place of the one with its number. -/
def NiEntry.inPlace (e : NiEntry) (l : List NiEntry) : List NiEntry := l.map (fun x => if x.id == e.id then e else x)

section
variable (e : NiEntry) (l : List NiEntry)

theorem NiEntry.ids_inPlace : (e.inPlace l).map (·.id) = l.map (·.id) := by
  rw [NiEntry.inPlace, List.map_map]
  refine List.map_congr_left fun x _ => ?_
  simp only [Function.comp_apply]
  split
  · next h => exact (beq_iff_eq.mp h).symm
  · rfl

variable {e l}

theorem NiEntry.eq_of_mem_inPlace {x : NiEntry} (hx : x ∈ e.inPlace l) (hid : x.id = e.id) : x = e := by
  obtain ⟨y, -, rfl⟩ := List.mem_map.mp hx
  split
  · rfl
  · next h => exact absurd hid (by rwa [if_neg h, ← beq_iff_eq])

theorem NiEntry.mem_inPlace {y : NiEntry} (hy : y ∈ l) (hid : y.id = e.id) : e ∈ e.inPlace l :=
  List.mem_map.mpr ⟨y, hy, if_pos (beq_iff_eq.mpr hid)⟩

theorem NiEntry.mem_inPlace_of_ne {y : NiEntry} (hy : y ∈ l) (hid : y.id ≠ e.id) : y ∈ e.inPlace l :=
  List.mem_map.mpr ⟨y, hy, if_neg (by rwa [beq_iff_eq])⟩

/-- What the oldest entry that a test finds becomes is the oldest that it finds, where the test still finds it. -/
theorem NiEntry.find?_inPlace {f : NiEntry} {p : NiEntry → Bool} (hid : f.id = e.id) (hp : p f = true) (hfind : l.find? p = some e) :
    (f.inPlace l).find? p = some f := by
  induction l with
  | nil => cases hfind
  | cons x r ih =>
    rw [NiEntry.inPlace, List.map_cons]
    split
    · exact List.find?_cons_of_pos hp
    · next hx =>
      have hpx : ¬ p x = true := fun hpx => by
        rw [List.find?_cons_of_pos hpx, Option.some.injEq] at hfind
        exact hx (by rw [hfind, hid, BEq.rfl])
      rw [List.find?_cons_of_neg hpx] at hfind ⊢
      exact ih hfind

/-- And no entry that the test finds stands before it. -/
theorem NiEntry.before_inPlace {f : NiEntry} {p : NiEntry → Bool} (hid : f.id = e.id) (hfind : l.find? p = some e) :
    ((f.inPlace l).takeWhile (fun x => x.id != f.id)).filter p = [] := by
  induction l with
  | nil => rfl
  | cons x r ih =>
    rw [NiEntry.inPlace, List.map_cons]
    split
    · rw [List.takeWhile_cons_of_neg (by simp)]
      rfl
    · next hx =>
      have hpx : ¬ p x = true := fun hpx => by
        rw [List.find?_cons_of_pos hpx, Option.some.injEq] at hfind
        exact hx (by rw [hfind, hid, BEq.rfl])
      rw [List.find?_cons_of_neg hpx] at hfind
      rw [List.takeWhile_cons_of_pos (by rwa [bne_iff_ne, ne_eq, ← beq_iff_eq]), List.filter_cons_of_neg hpx]
      exact ih hfind
end

/-! ### A new entry (R203) -/

section
variable (returned : Bool) (l : List NiEntry) (e : NiEntry)

theorem length_insertEntry : (insertEntry returned l e).length = l.length + 1 := by
  unfold insertEntry
  split
  · have hle := (List.takeWhile_sublist (l := l) (fun x => !(x.sameKey e && x.behindReturn))).length_le
    simp only [List.length_append, List.length_cons, List.length_drop]
    omega
  · rw [List.length_append]
    rfl

/-- The list has the new entry, held behind a returned message or not. -/
theorem mem_insertEntry : ∃ x ∈ insertEntry returned l e, { x with behindReturn := false } = { e with behindReturn := false } := by
  unfold insertEntry
  split
  · exact ⟨e, List.mem_append_right _ List.mem_cons_self, rfl⟩
  · exact ⟨_, List.mem_append_right _ List.mem_cons_self, rfl⟩
end

/-! ### The entries of a slot -/

section
variable {s : State} {u : Nat} (hu : u < 16384)
include hu

theorem State.niOf_slot : s.niOf u = (s.slot (u / 4) (u % 4)).ni := if_pos hu

theorem State.setNi_slot (l : List NiEntry) : s.setNi u l = s.modSlot (u / 4) (u % 4) (fun x => { x with ni := l }) := if_pos hu

theorem State.niOf_setNi (l : List NiEntry) : (s.setNi u l).niOf u = l := by
  rw [State.setNi_slot hu, State.niOf_slot hu, State.slot_modSlot _ _ _ _ (Nat.mod_lt _ (by decide))]

theorem State.Sent.setNi (l : List NiEntry) : s.Sent (s.setNi u l) := by
  rw [State.setNi_slot hu]
  exact .modSlot _ _ _ fun _ => by rfl

theorem State.net_setNi (l : List NiEntry) : (s.setNi u l).net = s.net := by rw [State.setNi_slot hu, State.modSlot_net]

theorem State.storesBefore_setNi (l : List NiEntry) (h : Nat × Nat) (upTo : Nat) :
    (s.setNi u l).storesBefore h upTo = s.storesBefore h upTo := by
  have hslot (d j : Nat) : ((s.modSlot (u / 4) (u % 4) (fun x => { x with ni := l })).slot d j).storesBefore upTo =
      (s.slot d j).storesBefore upTo := State.slot_modSlot_keeps (·.storesBefore upTo) (fun _ => by rfl) s _ _ d j
  have haway : ((s.modSlot (u / 4) (u % 4) (fun x => { x with ni := l })).slot h.1 h.2).awayAt = (s.slot h.1 h.2).awayAt :=
    State.slot_modSlot_keeps Slot.awayAt (fun _ => by rfl) s _ _ h.1 h.2
  rw [State.setNi_slot hu, State.storesBefore, hslot, haway, State.storesBefore]
  congr 1
  split
  · exact hslot _ _
  · rfl
end

/-! ### An entry leaves (R200) -/

/-- An entry on its way. -/
def State.inFlight (s : State) (e : NiEntry) (retry : Bool) : NiEntry := { e with st := .flying, msg := s.attempt e.msg retry }

section
variable {s : State} {u : Nat}

/-- A launch puts the entry in flight and a packet on the network: its message, or the answer to one that has nowhere to go (R222). -/
theorem State.launch_eq (e : NiEntry) (retry : Bool) :
    ∃ p, s.launch u e retry = (s.setNi u ((s.inFlight e retry).inPlace (s.niOf u))).sendPacket p := by
  unfold State.launch
  dsimp only
  split <;> exact ⟨_, rfl⟩

variable (hu : u < 16384)
include hu

theorem State.niOf_launch (e : NiEntry) (retry : Bool) : (s.launch u e retry).niOf u = (s.inFlight e retry).inPlace (s.niOf u) := by
  obtain ⟨p, hp⟩ := State.launch_eq (s := s) (u := u) e retry
  rw [hp]
  exact State.niOf_setNi hu _

theorem State.Sent.launch (e : NiEntry) (retry : Bool) : s.Sent (s.launch u e retry) := by
  obtain ⟨p, hp⟩ := State.launch_eq (s := s) (u := u) e retry
  rw [hp]
  exact (State.Sent.setNi hu _).trans (.setNet _ _)

/-- A launch to an actor that lives somewhere: what it puts on the network, and what the NI then holds. -/
theorem State.launch_leaves {n dev core slot ch : Nat} {e : NiEntry} (retry : Bool) (hn : (s.niOf u)[n]?.map (·.id) = some e.id)
    (hto : s.resolveActor e.team e.addr.toNat = some (dev, core, slot, ch)) :
    ∃ p : Packet, (s.launch u e retry).net = s.net ++ [p] ∧ p.body = .msg (s.attempt e.msg retry) e.id ∧ p.unit = u ∧ p.dev = dev ∧
      p.core = core ∧ p.slot = slot ∧ (∀ x ∈ (s.launch u e retry).niOf u, x.id = e.id → x.st = .flying) ∧
      ((s.launch u e retry).niOf u)[n]?.map (·.id) = some e.id ∧ ((s.launch u e retry).niOf u).length = (s.niOf u).length ∧
      s.sameMemory (s.launch u e retry) := by
  refine ⟨{ src := (u / 4, u % 4), unit := u, dev, core, slot, dom := e.msg.dom, body := .msg (s.attempt e.msg retry) e.id },
    ?_, rfl, rfl, rfl, rfl, rfl, ?_, ?_, ?_, (State.Sent.launch hu e retry).sameMemory⟩
  · simp only [State.launch, hto, if_pos hu]
    exact congrArg (· ++ _) (State.net_setNi hu _)
  all_goals rw [State.niOf_launch hu]
  · intro x hx hid
    rw [NiEntry.eq_of_mem_inPlace hx hid]
    rfl
  · rw [← List.getElem?_map, NiEntry.ids_inPlace, List.getElem?_map, hn]
  · rw [NiEntry.inPlace, List.length_map]
end

/-! ### The next entry of a channel (R201) -/

section
variable {s : State} {u : Nat}

theorem State.pump_held {e x : NiEntry} (hfind : (s.niOf u).find? (fun x => x.sameKey e && !x.isReturning) = some x) (hst : x.st = .held)
    (hmay : s.mayLaunch u x = true) : s.pump u e = s.launch u x true := by
  simp only [State.pump, hfind, hst, hmay, BEq.rfl, Bool.and_self, if_true]

/-- The next message of a channel leaves, or nothing happens. -/
theorem State.pump_cases (s : State) (u : Nat) (e : NiEntry) :
    s.pump u e = s ∨ ∃ x ∈ s.niOf u, x.st = .held ∧ s.pump u e = s.launch u x true := by
  unfold State.pump
  split
  · next x hfind =>
    split
    · next h =>
      rw [Bool.and_eq_true, beq_iff_eq] at h
      exact .inr ⟨x, List.mem_of_find?_eq_some hfind, h.1, rfl⟩
    · exact .inl rfl
  · exact .inl rfl

variable (hu : u < 16384)
include hu

theorem State.Sent.pump (e : NiEntry) : s.Sent (s.pump u e) := by
  rcases s.pump_cases u e with h | ⟨x, -, -, h⟩
  · rw [h]
    exact .refl s
  · rw [h]
    exact .launch hu x true

theorem State.ids_pump (e : NiEntry) : ((s.pump u e).niOf u).map (·.id) = (s.niOf u).map (·.id) := by
  rcases s.pump_cases u e with h | ⟨x, -, -, h⟩
  · rw [h]
  · rw [h, State.niOf_launch hu, NiEntry.ids_inPlace]

/-- An entry that does not wait for its turn stays as it is. -/
theorem State.mem_pump {e y : NiEntry} (hy : y ∈ s.niOf u) (hst : ∀ x ∈ s.niOf u, x.id = y.id → x.st ≠ .held) : y ∈ (s.pump u e).niOf u := by
  rcases s.pump_cases u e with h | ⟨x, hx, hheld, h⟩
  · rwa [h]
  · rw [h, State.niOf_launch hu]
    exact NiEntry.mem_inPlace_of_ne hy fun hid => hst x hx hid.symm hheld

/-- A freed entry is gone. -/
theorem State.id_ne_of_mem_freeEntry {e x : NiEntry} (hx : x ∈ (s.freeEntry u e).niOf u) : x.id ≠ e.id := by
  have hid : x.id ∈ ((s.freeEntry u e).niOf u).map (·.id) := List.mem_map_of_mem hx
  rw [State.freeEntry, State.ids_pump hu, State.modNi, State.niOf_setNi hu, List.mem_map] at hid
  obtain ⟨y, hy, hyx⟩ := hid
  rw [List.mem_filter, bne_iff_ne] at hy
  exact hyx ▸ hy.2

theorem State.Sent.freeEntry (e : NiEntry) : s.Sent (s.freeEntry u e) := (State.Sent.setNi hu _).trans (.pump hu e)
end

end Sys2Proof.Machine
end

section
/-! SEND, launches and resends (R185, R186, R194, R195, R200, R201, R204). -/

open Sys2Proof

namespace Sys2Proof.Machine

/-- A choice between two bodies runs the chosen one. -/
theorem ite_run {α : Type} (p : Prop) [Decidable p] (m n : M α) (s : State) : (if p then m else n) s = if p then m s else n s := by
  split <;> rfl

/-! ### SEND (R194-R197) -/

/-- The payload is read from operands of the issuing agent, which stays the same (R194). -/
theorem sendPayload_cur {o : Op} {s t : State} {v : BitVec 256} (h : sendPayload o s = .ok (v, t)) : t.cur = s.cur := by
  unfold sendPayload at h
  split at h
  all_goals
    obtain ⟨x, s1, hx, h⟩ := bind_cases h
    rw [pure_run, Except.ok.injEq, Prod.mk.injEq] at h
    obtain ⟨-, rfl⟩ := h
  · exact (srcV_sameAgent hx).1
  · exact (srcX_sameAgent hx).1

/-- The messages that a handler's firing may send; 15 is no limit (R204). -/
def Slot.sendLimit (x : Slot) : Nat := match x.firing with | some (.handler ch) => htabLimit (vget 0 x.act.htab ch) | _ => 15

/-- The entry that a SEND of slot k of core c makes. -/
def State.newEntry (s : State) (c k : Nat) (a : BitVec 64) (payload : BitVec 256) (m : BitVec 4) : NiEntry :=
  s.fresh.2.sendEntry (s.homeOf c k).1 (s.homeOf c k).2 s.nextId a payload (s.checkDom c k) m (s.slot c k).thr.pc

/-- The entry joins the others of the actor's slot. -/
def State.queueEntry (s : State) (h : Nat × Nat) (e : NiEntry) : State :=
  s.fresh.2.modSlot h.1 h.2 (fun x => { x with ni := insertEntry (x.returned.contains e.channel) x.ni e })

/-- The state in which a SEND has put its entry into the NI of its actor, and is counted. -/
def State.sendPlaced (s : State) (c k : Nat) (e : NiEntry) : State :=
  (if e.release then (s.queueEntry (s.homeOf c k) e).flushComb c k (fun _ => true) else s.queueEntry (s.homeOf c k) e).modSlot c k
    (fun x => { x with sent := x.sent + 1 })

/-- How a SEND ends once its operands are read: the checks of R186 and R204, the NI's room, and the entry (R195). -/
def State.sendAnswer (s : State) (c k : Nat) (a : BitVec 64) (payload : BitVec 256) (m : BitVec 4) : Except Stop (Flow × State) :=
  if !s.addressOk (((s.teamOf c k).map Team.size).getD 0) a.toNat then .error (.trap .rights a)
  else if (s.slot c k).sendLimit != 15 && (s.slot c k).sent == (s.slot c k).sendLimit then .error (.trap .rate a)
  else if 16 ≤ (s.slot (s.homeOf c k).1 (s.homeOf c k).2).ni.length then .error (.stall .release)
  else .ok (.next, s.sendPlaced c k (s.newEntry c k a payload m))

section
variable {o : Op} {s s1 : State} {c k : Nat} {a : BitVec 64} {payload : BitVec 256}

theorem execSend_answer (hc : s.cur = .slot c k) (hr : s.runs 0xC0 o) (ha : rdReg o.a s = .ok (a, s))
    (hp : sendPayload o s = .ok (payload, s1)) : exec (.send o) s = .next (s.conclude o.len (s1.sendAnswer c k a payload o.m)) := by
  have hat : s1.at_ = (c, k) := by rw [State.at_, sendPayload_cur hp, hc]
  rw [exec_send, execSend, runScalar_run hr.1 hr.2]
  refine congrArg (fun x => (Host.Outcome.next (s.conclude o.len x) : Host.Outcome State Fault Refusal)) ?_
  refine (bind_ok ha).trans ((bind_ok hp).trans ((bind_ok (getS_run s1)).trans ?_))
  simp only [hat, ite_run]
  rfl
end

section
variable {s : State} {c k : Nat} {a : BitVec 64} {payload : BitVec 256} {m : BitVec 4}

theorem State.sendAnswer_rights (hok : s.addressOk (((s.teamOf c k).map Team.size).getD 0) a.toNat = false) :
    s.sendAnswer c k a payload m = .error (.trap .rights a) := by
  rw [State.sendAnswer, hok]
  rfl

variable (hok : s.addressOk (((s.teamOf c k).map Team.size).getD 0) a.toNat = true)
include hok

theorem State.sendAnswer_rate (hlimit : (s.slot c k).sendLimit ≠ 15) (hspent : (s.slot c k).sent = (s.slot c k).sendLimit) :
    s.sendAnswer c k a payload m = .error (.trap .rate a) := by
  rw [State.sendAnswer, hok, if_neg (by decide), if_pos]
  rw [Bool.and_eq_true, bne_iff_ne, beq_iff_eq]
  exact ⟨hlimit, hspent⟩

theorem State.sendAnswer_placed (hlimit : (s.slot c k).sendLimit = 15 ∨ (s.slot c k).sent ≠ (s.slot c k).sendLimit)
    (hroom : (s.slot (s.homeOf c k).1 (s.homeOf c k).2).ni.length < 16) :
    s.sendAnswer c k a payload m = .ok (.next, s.sendPlaced c k (s.newEntry c k a payload m)) := by
  rw [State.sendAnswer, hok, if_neg (by decide), if_neg, if_neg (Nat.not_le.mpr hroom)]
  rw [Bool.and_eq_true, bne_iff_ne, beq_iff_eq]
  exact fun h => hlimit.elim h.1 fun hne => hne h.2
end

section
variable (s : State) (h : Nat × Nat) (e : NiEntry)

theorem State.Sent.queueEntry : s.fresh.2.Sent (s.queueEntry h e) := .modSlot _ _ _ fun _ => by rfl

theorem State.ni_queueEntry (hk : h.2 < 4) : ((s.queueEntry h e).slot h.1 h.2).ni =
    insertEntry ((s.slot h.1 h.2).returned.contains e.channel) (s.slot h.1 h.2).ni e := by
  rw [State.queueEntry, State.slot_modSlot _ _ _ _ hk]
  rfl

/-- A message without `.nb` takes the combining buffer along. -/
theorem State.sendPlaced_eq (c k : Nat) : ∃ t : State, s.fresh.2.Sent t ∧
    (∀ d j, (t.slot d j).ni = ((s.queueEntry (s.homeOf c k) e).slot d j).ni) ∧
    s.sendPlaced c k e = t.modSlot c k (fun x => { x with sent := x.sent + 1 }) := by
  unfold State.sendPlaced
  split
  · exact ⟨_, (State.Sent.queueEntry s _ e).trans (.flushComb _ c k _), State.flushComb_ni _ c k _, rfl⟩
  · exact ⟨_, .queueEntry s _ e, fun _ _ => rfl, rfl⟩
end

/-- What a placed SEND leaves: the entry in the NI, the count, the thread and the memories as they were. -/
theorem State.sendPlaced_leaves (s : State) {c k : Nat} (e : NiEntry) (hk : k < 4) (hh : (s.homeOf c k).2 < 4) :
    let h := s.homeOf c k
    let t := s.sendPlaced c k e
    (t.slot h.1 h.2).ni = insertEntry ((s.slot h.1 h.2).returned.contains e.channel) (s.slot h.1 h.2).ni e ∧
      (t.slot c k).sent = (s.slot c k).sent + 1 ∧ (t.slot c k).thr = (s.slot c k).thr ∧ t.cur = s.cur ∧ s.sameMemory t := by
  obtain ⟨t, hsent, hni, ht⟩ := s.sendPlaced_eq e c k
  dsimp only
  rw [ht]
  refine ⟨?ni, ?sent, ?thr, hsent.cur_eq, State.sameMemory_trans hsent.sameMemory (State.sameMemory_modSlot _ _ _ _)⟩
  case ni =>
    rw [← s.ni_queueEntry _ e hh, ← hni]
    exact State.slot_modSlot_keeps Slot.ni (fun _ => by rfl) t c k _ _
  case sent =>
    rw [State.slot_modSlot _ _ _ _ hk]
    exact congrArg (· + 1) (hsent.slot_keeps Slot.sent (fun _ => rfl) c k)
  case thr =>
    rw [State.slot_modSlot _ _ _ _ hk]
    exact hsent.slot_keeps Slot.thr (fun _ => rfl) c k

/-! ### Launch and resend (R195, R200, R201) -/

/-- An entry that waits only for its turn. -/
def NiEntry.held (e : NiEntry) : NiEntry := { e with st := .held }

/-- The state in which an entry of a unit waits only for its turn. -/
def State.holdEntry (s : State) (u : Nat) (e : NiEntry) : State := s.setNi u (e.held.inPlace (s.niOf u))

section
variable {s : State} {u n : Nat} {e : NiEntry} (hn : (s.niOf u)[n]? = some e)
include hn

/-- An entry that may be launched, and whose stores are acknowledged, is launched (R195). -/
theorem execSendLaunch_launches (hst : e.st = .release) (hdone : e.release = true → s.storesBefore (u / 4, u % 4) e.upTo = false)
    (hmay : s.mayLaunch u e = true) : exec (.sendLaunch u n) s = .next (s.launch u e e.bypass) := by
  have hflush : (if (decide (u < 16384) && e.release && e.st == .release) = true then s.flushBefore (u / 4, u % 4) e.upTo else s) = s := by
    split
    · next h =>
      rw [Bool.and_eq_true, Bool.and_eq_true] at h
      exact State.flushBefore_done (hdone h.1.2)
    · rfl
  have hretry : (e.bypass || e.st == .held) = e.bypass := by rw [hst]; exact Bool.or_false _
  rw [exec_sendLaunch, execSendLaunch]
  simp only [hn, hflush, hmay, if_true, hretry]

variable (hu : u < 16384) (hfind : (s.niOf u).find? (fun x => x.sameKey e && !x.isReturning) = some e)
include hu hfind

omit hn in
/-- An entry whose back-off is over may be launched where it is the oldest to its channel (R201). -/
theorem State.mayLaunch_holdEntry (hdone : e.release = true → s.storesBefore (u / 4, u % 4) e.upTo = false)
    (hdying : (s.slot (u / 4) (u % 4)).dying = false) (hbehind : e.behindReturn = false) :
    (s.holdEntry u e).mayLaunch u e.held = true := by
  have hbefore : ((e.held.inPlace (s.niOf u)).takeWhile (fun x => x.id != e.held.id)).filter (fun x => x.sameKey e && !x.isReturning) = [] :=
    NiEntry.before_inPlace (e := e) rfl hfind
  have hstored : (!e.release || Decidable.decide (u ≥ 16384) || !s.storesBefore (u / 4, u % 4) e.upTo) = true := by
    cases hrel : e.release with
    | false => rfl
    | true => rw [hdone hrel]; exact Bool.or_true _
  have halive : ((s.setNi u (e.held.inPlace (s.niOf u))).slot (u / 4) (u % 4)).dying = false :=
    ((State.Sent.setNi hu _).slot_keeps Slot.dying (fun _ => rfl) _ _).trans hdying
  unfold State.mayLaunch State.holdEntry
  rw [State.niOf_setNi hu, State.storesBefore_setNi hu, halive]
  dsimp only [NiEntry.held]
  rw [Bool.and_false, if_neg Bool.false_ne_true, Bool.and_eq_true, Bool.and_eq_true]
  exact ⟨⟨hstored, by rw [hbehind]; rfl⟩, List.isEmpty_iff.mpr hbefore⟩

omit hfind in
/-- What its launch leaves, said of the state before it waits for its turn. -/
theorem State.launch_holdEntry {dev core slot ch : Nat} (hto : s.resolveActor e.team e.addr.toNat = some (dev, core, slot, ch)) :
    let t := (s.holdEntry u e).launch u e.held true
    ∃ p : Packet, t.net = s.net ++ [p] ∧ p.body = .msg (s.attempt e.msg true) e.id ∧ p.unit = u ∧ p.dev = dev ∧
      p.core = core ∧ p.slot = slot ∧ (∀ x ∈ t.niOf u, x.id = e.id → x.st = .flying) ∧ (t.niOf u)[n]?.map (·.id) = some e.id ∧
      (t.niOf u).length = (s.niOf u).length ∧ s.sameMemory t := by
  have hsent : s.Sent (s.holdEntry u e) := .setNi hu _
  have hni : (s.holdEntry u e).niOf u = e.held.inPlace (s.niOf u) := State.niOf_setNi hu _
  have hid : ((s.holdEntry u e).niOf u)[n]?.map (·.id) = some e.held.id := by
    rw [hni, ← List.getElem?_map, NiEntry.ids_inPlace, List.getElem?_map, hn]
    rfl
  have hto' : (s.holdEntry u e).resolveActor e.held.team e.held.addr.toNat = some (dev, core, slot, ch) := by
    rw [hsent.rest]
    exact hto
  have hattempt : (s.holdEntry u e).attempt e.held.msg true = s.attempt e.msg true := by
    rw [hsent.rest]
    rfl
  obtain ⟨p, hnet, hbody, hunit, hdev, hcore, hslot, hflying, hplace, hlength, hmem⟩ := State.launch_leaves hu true hid hto'
  refine ⟨p, hnet.trans ?_, hbody.trans ?_, hunit, hdev, hcore, hslot, hflying, hplace, hlength.trans ?_,
    State.sameMemory_trans hsent.sameMemory hmem⟩
  · exact congrArg (· ++ _) (State.net_setNi hu _)
  · rw [hattempt]
    rfl
  · rw [hni, NiEntry.inPlace, List.length_map]

/-- It is resent with RETRY = 1. -/
theorem execRetryBackoffExpiry_launches (hst : e.st = .backoff 0) (hmay : (s.holdEntry u e).mayLaunch u e.held = true) :
    exec (.retryBackoffExpiry u n) s = .next ((s.holdEntry u e).launch u e.held true) := by
  rw [exec_retryBackoffExpiry, execRetryBackoffExpiry]
  simp only [hn, hst]
  refine congrArg Host.Outcome.next (State.pump_held (x := e.held) ?_ rfl hmay)
  rw [State.modNi, State.niOf_setNi hu]
  refine NiEntry.find?_inPlace (e := e) (f := e.held) rfl ?_ hfind
  simp [NiEntry.sameKey, NiEntry.isReturning, NiEntry.held]
end

end Sys2Proof.Machine

open Sys2Proof.Machine

/-- Settles O31: SEND faults, or puts its entry into the NI; a launch or a resend puts the entry in flight and its message on the network.
That a plain message to a channel with a returned `.nr` message is not held is what `insertEntry` says (log entry 19). -/
theorem messagesLeave : Obligations.MessagesLeave := by
  unfold Obligations.MessagesLeave
  refine ⟨?send, ?leave⟩
  case send =>
    intro o s s1 c k a payload hc hk hr ha hp h sl ok limit hh
    have hanswer := execSend_answer hc hr ha hp
    refine ⟨fun hok hlimit hroom => ?placed, fun hok => ?rights, fun hok hlimit hspent => ?rate⟩
    case placed =>
      obtain ⟨hni, hsent, hthr, hcur, hmem⟩ := s1.sendPlaced_leaves (s1.newEntry c k a payload o.m) hk hh
      have hct := hcur.trans ((sendPayload_cur hp).trans hc)
      have hfinish := (State.slot_finish_keeps Slot.ni _ o.len hct hk (fun _ _ => rfl) h.1 h.2).trans hni
      rw [hanswer, State.sendAnswer_placed hok hlimit hroom]
      refine ⟨_, s1.newEntry c k a payload o.m, rfl, hfinish, ?length, ?member, rfl, rfl, rfl, rfl, rfl, rfl, rfl, rfl, rfl,
        ?count, ?thread, State.sameMemory_trans hmem (State.sameMemory_finish _ _ hct)⟩
      case length => exact (congrArg List.length hfinish).trans (length_insertEntry _ _ _)
      case member => exact hfinish ▸ mem_insertEntry _ _ _
      case count => exact (State.slot_finish_keeps Slot.sent _ o.len hct hk (fun _ _ => rfl) c k).trans hsent
      case thread => exact (congrArg Slot.thr (State.finish_slot_retired _ o.len hct hk)).trans (by rw [hthr]; rfl)
    case rights => rw [hanswer, State.sendAnswer_rights hok]; rfl
    case rate => rw [hanswer, State.sendAnswer_rate hok hlimit hspent]; rfl
  case leave =>
    intro s u n dev core slot ch e hu hn hto hdone sent
    refine ⟨fun hst hmay => ?launch, fun hst hdying hbehind hfind => ?resend⟩
    case launch =>
      obtain ⟨p, hp⟩ := State.launch_leaves hu e.bypass (by rw [hn]; rfl) hto
      exact ⟨_, p, execSendLaunch_launches hn hst hdone hmay, hp⟩
    case resend =>
      have hmay := State.mayLaunch_holdEntry hu hfind hdone hdying hbehind
      obtain ⟨p, hp⟩ := State.launch_holdEntry hn hu hto
      exact ⟨_, p, execRetryBackoffExpiry_launches hn hu hfind hst hmay, hp⟩
end

section
/-! Answers to a sender, back-off and returned messages (R198, R201-R203). -/

open Sys2Proof

namespace Sys2Proof.Machine

/-! ### A message in a mailbox (R187, R190) -/

/-- The state with a message appended to channel ch of a mailbox. -/
def State.mailed (s : State) (c b ch : Nat) (payload : BitVec 256) (hdr : BitVec 64) : State :=
  (s.pushed c b ch payload.toNat).modBank c b (fun x => { x with hdrs := lput x.hdrs ch (lget [] x.hdrs ch ++ [hdr]) })

section
variable {s : State} {c b ch : Nat} (payload : BitVec 256) (hdr : BitVec 64)

theorem State.mailPut_room (hroom : (s.bank c b).count ch < (s.bank c b).depth ch) :
    s.mailPut c b ch payload hdr = some (s.mailed c b ch payload hdr) := by
  simp only [State.mailPut, State.qPush, if_neg (Nat.not_le.mpr hroom)]
  rfl

/-- A message's header is no part of the queue of payloads. -/
theorem State.queueList_modBank_hdrs (s : State) (c : Nat) {b : Nat} (i : Nat) (hb : b < 16) (f : Bank → List (List (BitVec 64))) :
    (s.modBank c b (fun x => { x with hdrs := f x })).queueList c b i = s.queueList c b i := by
  simp only [State.queueList, State.bankWord_modBank, State.bank_modBank _ _ _ _ hb]
  rfl

/-- The payload stands behind the others. -/
theorem State.queueList_mailed (h : s.soundQueue c b ch) (hesz : (s.bank c b).esz = 32)
    (hroom : (s.bank c b).count ch < (s.bank c b).depth ch) :
    (s.mailed c b ch payload hdr).queueList c b ch = s.queueList c b ch ++ [payload.toNat] := by
  obtain ⟨hb, -⟩ := id h
  rw [State.mailed, State.queueList_modBank_hdrs _ _ _ hb, h.queueList_pushed hroom, hesz, Nat.mod_eq_of_lt payload.isLt]

theorem State.slot_mailed (d j : Nat) : (s.mailed c b ch payload hdr).slot d j = s.slot d j :=
  (State.slot_modCore_keeps _ _ _ rfl d j).trans ((State.slot_modCore_keeps _ _ _ rfl d j).trans (State.slot_modCore_keeps _ _ _ rfl d j))
end

/-! ### An answer is taken (R201) -/

section
variable {s : State} {i entry reason u : Nat} {p : Packet} {e : NiEntry} (hp : s.packetAt i = some p)
  (hbody : p.body = .answer entry reason) (hunit : p.unit = u) (hbehind : s.answerBehind i p = false)
  (hfind : (s.niOf u).find? (fun x => x.id == entry) = some e)
include hp hbody hunit hbehind hfind

theorem execMessageAnswer_takes : exec (.messageAnswer i) s = .next ((s.dropPacket i).takeAnswer u e reason) := by
  rw [exec_messageAnswer, execMessageAnswer, hp]
  simp only [hbody, hbehind, Bool.false_eq_true, if_false, hunit, hfind]
end

section
variable {s : State} {u : Nat} {e : NiEntry} (hu : u < 16384) (hcard : e.card = none)
include hu hcard

omit hu in
theorem State.completionOver_plain : s.completionOver u e = s := by rw [State.completionOver, hcard]

theorem State.takeAnswer_accepted : s.takeAnswer u e 0 = s.acceptEntry u e := by
  have hport : (u == unitPort) = false := by rw [beq_eq_false_iff_ne, unitPort]; omega
  simp only [State.takeAnswer, hport, BEq.rfl, if_true, Bool.false_eq_true, if_false, State.completionOver_plain hcard]

omit hcard in
/-- An accepted entry is gone. -/
theorem State.id_ne_of_mem_acceptEntry {x : NiEntry} (hx : x ∈ (s.acceptEntry u e).niOf u) : x.id ≠ e.id :=
  State.id_ne_of_mem_freeEntry hu hx
end

/-! ### Refusals (R201) -/

/-- An entry once it has been refused with reason FULL, and waits its back-off. -/
def NiEntry.backedOff (e : NiEntry) (base : Nat) : NiEntry :=
  { e with refusals := e.refusals + 1, tries := e.tries + 1, st := .backoff (min (base * 2 ^ e.refusals) 65536) }

section
variable {s : State} {u : Nat} {e : NiEntry} (hnr : e.nr = false)
include hnr

theorem refuseEntry_backoff {base : Nat} {l : List NiEntry} (htries : e.tries < 15) (hbehind : e.behindReturn = false)
    (hold : (l.takeWhile (fun x => x.id != e.id)).any (fun x => x.sameKey e && !x.isReturning) = false) :
    refuseEntry base e 1 l = (e.backedOff base).inPlace l := by
  have hlast : ¬ (e.tries + 1 == 16) = true := by rw [beq_iff_eq]; omega
  have hbefore : (l.takeWhile (fun x => x.id != e.id)).filter (fun x => x.sameKey e && !x.isReturning) = [] := by
    rw [List.filter_eq_nil_iff]
    simpa using hold
  unfold refuseEntry
  dsimp only
  rw [if_neg (by rw [hnr]; exact Bool.false_ne_true)]
  refine (if_neg hlast).trans ?_
  rw [if_neg (by rw [hbehind, hbefore]; exact Bool.false_ne_true)]
  rfl

theorem State.takeAnswer_refused (hu : u < 16384) :
    s.takeAnswer u e 1 = (s.setNi u (refuseEntry (s.backoffBase u) e 1 (s.niOf u))).pump u e := by
  have hport : (u == unitPort) = false := by rw [beq_eq_false_iff_ne, unitPort]; omega
  simp only [State.takeAnswer, hport, hnr, Bool.false_eq_true, if_false]
  rfl
end

/-! ### Returned messages (R202) -/

/-- RETURNS counts a message more, up to 255. -/
def Slot.countReturn (x : Slot) : Slot :=
  { x with act := { x.act with returns := if x.act.returns == 255 then 255 else x.act.returns + 1 } }

/-- The state in which a returned message of a slot is on channel 15 of its sender and counted, and its entry is freed. -/
def State.returned (s : State) (u : Nat) (e : NiEntry) (hdr : BitVec 64) : State :=
  ((s.mailed (u / 4) (s.slot (u / 4) (u % 4)).act.mbox.toNat 15 e.msg.payload hdr).modSlot (u / 4) (u % 4) (·.countReturn)).freeEntry u e

section
variable {s : State} {u n reason : Nat} {e : NiEntry} (hu : u < 16384)
include hu

theorem execReturnDelivery_returned (hn : (s.niOf u)[n]? = some e) (hst : e.st = .returning reason) (hcard : e.card = none)
    (hfirst : ((s.niOf u).take n).any (·.isReturning) = false) (hguest : (s.slot (u / 4) (u % 4)).guest = none)
    (hteam : (s.slot (u / 4) (u % 4)).ident.map (·.team) = e.team)
    (hroom : (s.bank (u / 4) (s.slot (u / 4) (u % 4)).act.mbox.toNat).count 15 +
      (s.core (u / 4)).reservedChan (s.slot (u / 4) (u % 4)).act.mbox.toNat 15 <
      (s.bank (u / 4) (s.slot (u / 4) (u % 4)).act.mbox.toNat).depth 15) :
    ∃ hdr, exec (.returnDelivery u n) s = .next (s.returned u e hdr) := by
  have hport : (u == unitPort) = false := by rw [beq_eq_false_iff_ne, unitPort]; omega
  have hput (hdr : BitVec 64) := State.mailPut_room (s := s) (c := u / 4) (b := (s.slot (u / 4) (u % 4)).act.mbox.toNat) (ch := 15)
    e.msg.payload hdr (by omega)
  rw [exec_returnDelivery, execReturnDelivery]
  simp only [hn, hst, hfirst, hport, hguest, hteam, Nat.not_le.mpr hu, Nat.not_le.mpr hroom, hput, State.completionOver_plain hcard, if_pos hu,
    decide_false, Bool.false_and, Bool.false_eq_true, if_false, Option.isSome_none, bne_self_eq_false, Bool.or_self]
  exact ⟨_, rfl⟩

/-- What a placed return leaves. -/
theorem State.returned_leaves (e : NiEntry) (hdr : BitVec 64) (hesz : (s.bank (u / 4) (s.slot (u / 4) (u % 4)).act.mbox.toNat).esz = 32)
    (hsound : s.soundQueue (u / 4) (s.slot (u / 4) (u % 4)).act.mbox.toNat 15)
    (hroom : (s.bank (u / 4) (s.slot (u / 4) (u % 4)).act.mbox.toNat).count 15 <
      (s.bank (u / 4) (s.slot (u / 4) (u % 4)).act.mbox.toNat).depth 15) :
    let mb := (s.slot (u / 4) (u % 4)).act.mbox.toNat
    let t := s.returned u e hdr
    t.queueList (u / 4) mb 15 = s.queueList (u / 4) mb 15 ++ [e.msg.payload.toNat] ∧
      (t.slot (u / 4) (u % 4)).act = (s.slot (u / 4) (u % 4)).countReturn.act := by
  refine ⟨?_, ?_⟩
  · rw [State.returned, (State.Sent.freeEntry hu e).queueList_eq, State.queueList_modSlot, State.queueList_mailed _ _ hsound hesz hroom]
  · rw [State.returned, (State.Sent.freeEntry hu e).slot_keeps Slot.act (fun _ => rfl), State.slot_modSlot _ _ _ _ (Nat.mod_lt _ (by decide)),
      State.slot_mailed]
end

end Sys2Proof.Machine

open Sys2Proof.Machine

/-- Settles O33: an accepted message's entry is filtered out; a refused one is put back with its back-off, and the next message of its
channel leaves the others as they are; a returned one joins channel 15. -/
theorem answersAndReturns : Obligations.AnswersAndReturns := by
  unfold Obligations.AnswersAndReturns
  refine ⟨?answer, ?returned⟩
  case answer =>
    intro s i entry u p e reason hu hp hbody hunit hbehind hfind hcard
    have hid : e.id = entry := by simpa using List.find?_some hfind
    have htakes := execMessageAnswer_takes hp hbody hunit hbehind hfind
    refine ⟨fun haccepted => ?accepted, fun hrefused hnr htries hheld hfirst => ?refused⟩
    case accepted =>
      subst haccepted
      refine ⟨_, htakes, fun x hx => ?_⟩
      rw [State.takeAnswer_accepted hu hcard] at hx
      exact hid ▸ State.id_ne_of_mem_acceptEntry hu hx
    case refused =>
      subst hrefused
      refine ⟨_, e.backedOff (s.backoffBase u), htakes, ?_, hid, rfl, rfl, ?_⟩
      · rw [State.takeAnswer_refused hnr hu, refuseEntry_backoff hnr htries hheld (hid ▸ hfirst)]
        refine State.mem_pump hu ?_ fun x hx hsame => ?_
        · rw [State.niOf_setNi hu]
          exact NiEntry.mem_inPlace (List.mem_of_find?_eq_some hfind) rfl
        · rw [State.niOf_setNi hu] at hx
          rw [NiEntry.eq_of_mem_inPlace hx hsame]
          exact NiState.noConfusion
      · rw [State.backoffBase, if_pos hu]
        rfl
  case returned =>
    intro s u n reason e hu hn hst hcard hfirst c k sl mb hguest hteam hroom hsound hesz
    obtain ⟨hdr, hexec⟩ := execReturnDelivery_returned hu hn hst hcard hfirst hguest hteam hroom
    obtain ⟨hqueue, hact⟩ := State.returned_leaves hu e hdr hesz hsound (Nat.lt_of_le_of_lt (Nat.le_add_right _ _) hroom)
    refine ⟨_, hexec, hqueue, (congrArg ActorRegs.returns hact).trans ?_, fun x hx => State.id_ne_of_mem_freeEntry hu hx⟩
    simp only [Slot.countReturn, beq_iff_eq]
    rfl
end

section
/-! The decision on a message at a mailbox (R198, R199). -/

open Sys2Proof

namespace Sys2Proof.Machine

/-! ### The set of refused senders -/

theorem getLsbD_or_bit (v : BitVec 16) {i : Nat} (h : i < 16) : (v ||| ((1 : BitVec 16) <<< i)).getLsbD i = true := by
  simp [h]

section
variable {set : List (Nat × Nat × Nat × Nat)} {ovf : BitVec 16} {who : Nat × Nat × Nat × Nat} {ch : Nat} {retry full : Bool}

/-- A sender that is known, or may be, and does not resend is refused ORDER. -/
theorem decideSet_order (hknown : (set.contains who || ovf.getLsbD ch) = true) (hretry : retry = false) :
    decideSet set ovf who ch retry full = (2, set, ovf) := by
  rw [decideSet, hknown, hretry]
  rfl

variable (hpass : (set.contains who || ovf.getLsbD ch) = false ∨ retry = true)
include hpass

/-- Where the order allows the message, what decides is whether the channel is full and whether the set has room. -/
theorem decideSet_inOrder : decideSet set ovf who ch retry full =
    if full then
      if set.contains who then (1, set, ovf)
      else if set.length < mboxCap then (1, set ++ [who], ovf) else (1, set, ovf ||| ((1 : BitVec 16) <<< ch))
    else if !set.contains who && mboxCap ≤ set.length then (1, set, ovf ||| ((1 : BitVec 16) <<< ch))
    else (0, set.filter (· != who), ovf) := by
  have horder : ¬ ((set.contains who || ovf.getLsbD ch) && !retry) = true := by
    rcases hpass with h | h
    · rw [h]
      exact Bool.false_ne_true
    · rw [h, Bool.not_true, Bool.and_false]
      exact Bool.false_ne_true
  rw [decideSet, if_neg horder]

/-- A full channel refuses FULL, and records its sender where the set has room; without room OVF stands for it (R199). -/
theorem decideSet_full (hch : ch < 16) (hfull : full = true) : ∃ set' ovf', decideSet set ovf who ch retry full = (1, set', ovf') ∧
    set' = (if set.contains who || 8 ≤ set.length then set else set ++ [who]) ∧
    ((!set.contains who && decide (8 ≤ set.length)) = true → ovf'.getLsbD ch = true) := by
  rw [decideSet_inOrder hpass, if_pos hfull, show mboxCap = 8 from rfl]
  cases hknown : set.contains who with
  | true => exact ⟨_, _, rfl, rfl, fun h => absurd h Bool.false_ne_true⟩
  | false =>
    by_cases hroom : set.length < 8
    · refine ⟨_, _, if_pos hroom, ?_, fun h => ?_⟩
      · rw [if_neg (by simpa using hroom)]
      · rw [Bool.not_false, Bool.true_and, decide_eq_true_eq] at h
        omega
    · refine ⟨_, _, if_neg hroom, ?_, fun _ => getLsbD_or_bit ovf hch⟩
      rw [if_pos (by simpa using hroom)]

/-- A channel with room refuses a sender that the set has no room for (R199). -/
theorem decideSet_crowded (hch : ch < 16) (hfull : ¬ full = true) (hknown : set.contains who = false) (hcrowd : 8 ≤ set.length) :
    ∃ ovf', decideSet set ovf who ch retry full = (1, set, ovf') ∧ ovf'.getLsbD ch = true := by
  rw [decideSet_inOrder hpass, if_neg hfull, hknown, show mboxCap = 8 from rfl, if_pos (by simpa using hcrowd)]
  exact ⟨_, rfl, getLsbD_or_bit ovf hch⟩

/-- Any other is accepted, and forgotten (R199). -/
theorem decideSet_accepts (hfull : ¬ full = true) (hroom : set.contains who = true ∨ set.length < 8) :
    decideSet set ovf who ch retry full = (0, set.filter (· != who), ovf) := by
  rw [decideSet_inOrder hpass, if_neg hfull, if_neg]
  rcases hroom with h | h
  · rw [h]
    exact Bool.false_ne_true
  · simp [show mboxCap = 8 from rfl, h]
end

/-! ### The decision at an actor (R198) -/

/-- Whether channel ch of a mailbox has no place free; one that an instruction in progress may give back is not (R20). -/
def State.mailFull (s : State) (c mb ch : Nat) : Bool := (s.bank c mb).depth ch ≤ (s.bank c mb).count ch + (s.core c).reservedChan mb ch

/-- A message for channel ch of slot k of core c, from a slot, where the actor of a team lives in the slot. -/
structure State.MailReq (s : State) (c k ch : Nat) (sender : Nat × Nat × Nat) (m : Msg) (id : Ident) (tm : Team) : Prop where
  slot : k < 4
  away : (s.slot c k).away = none
  ident : (s.slot c k).ident = some id
  guest : (s.slot c k).guest = none
  team : s.team id.team = some tm
  live : tm.st ≠ .ended

section
variable {s : State} {c k ch : Nat} {sender : Nat × Nat × Nat} {m : Msg} {id : Ident} {tm : Team} (h : s.MailReq c k ch sender m id tm)
include h

/-- A sender whose domain may not send to the actor's is refused BARRED. -/
theorem State.MailReq.decide_barred (hbar : s.maySend m.dom tm.domain = false) : s.decide c k ch sender m = (5, s) := by
  simp [State.decide, h.away, h.ident, h.guest, h.team, h.live, hbar]

variable (hmay : s.maySend m.dom tm.domain = true) {r : Nat} {set : List (Nat × Nat × Nat × Nat)} {ovf : BitVec 16}
include hmay

/-- One that the set refuses leaves its traces in the set. -/
theorem State.MailReq.decide_refused (hr : r ≠ 0) (hset : decideSet (s.slot c k).refused (s.slot c k).ovf
      (sender.1, sender.2.1, sender.2.2, ch) ch m.retry (s.mailFull c (s.slot c k).act.mbox.toNat ch) = (r, set, ovf)) :
    s.decide c k ch sender m = (r, s.modSlot c k (fun x => { x with refused := set, ovf })) := by
  rw [State.mailFull] at hset
  simp [State.decide, h.away, h.ident, h.guest, h.team, h.live, hmay, hset, hr]

/-- One that it accepts is appended to its channel. -/
theorem State.MailReq.decide_accepted (hfull : ¬ s.mailFull c (s.slot c k).act.mbox.toNat ch = true)
    (hset : decideSet (s.slot c k).refused (s.slot c k).ovf
      (sender.1, sender.2.1, sender.2.2, ch) ch m.retry (s.mailFull c (s.slot c k).act.mbox.toNat ch) = (0, set, ovf)) :
    s.decide c k ch sender m = (0, (s.modSlot c k (fun x => { x with refused := set, ovf })).mailed c (s.slot c k).act.mbox.toNat ch
      m.payload (m.header (some id.team))) := by
  have hroom : ((s.modSlot c k (fun x => { x with refused := set, ovf })).bank c (s.slot c k).act.mbox.toNat).count ch <
      ((s.modSlot c k (fun x => { x with refused := set, ovf })).bank c (s.slot c k).act.mbox.toNat).depth ch := by
    rw [State.mailFull, decide_eq_true_eq] at hfull
    rw [State.bank_modSlot]
    omega
  rw [State.mailFull] at hset
  simp [State.decide, h.away, h.ident, h.guest, h.team, h.live, hmay, hset, State.mailPut_room _ _ hroom]
end

/-- A change of a slot's own registers is no part of the queue either. -/
theorem State.queueList_mailed_modSlot {s : State} {c b ch : Nat} (i k : Nat) (f : Slot → Slot) (payload : BitVec 256) (hdr : BitVec 64)
    (h : s.soundQueue c b ch) (hesz : (s.bank c b).esz = 32) (hroom : (s.bank c b).count ch < (s.bank c b).depth ch) :
    (((s.dropPacket i).modSlot c k f).mailed c b ch payload hdr).queueList c b ch = s.queueList c b ch ++ [payload.toNat] := by
  have hbank (d a : Nat) : ((s.dropPacket i).modSlot c k f).bank d a = s.bank d a :=
    (State.bank_modSlot (s.dropPacket i) c k f d a).trans ((State.Sent.setNet s (ldel s.net i)).bank_eq d a)
  have hmem : (((s.dropPacket i).modSlot c k f).core c).mem = (s.core c).mem := State.core_modSlot_mem ..
  have hsound : ((s.dropPacket i).modSlot c k f).soundQueue c b ch := by
    rw [State.soundQueue, hbank, hmem]
    exact h
  rw [State.queueList_mailed _ _ hsound (by rwa [hbank]) (by rwa [hbank]), State.queueList_modSlot]
  exact congrArg (· ++ _) ((State.Sent.setNet s (ldel s.net i)).queueList_eq c b ch)

@[simp] theorem State.slot_dropPacket (s : State) (i d j : Nat) : (s.dropPacket i).slot d j = s.slot d j := rfl

/-! ### The message and its answer (R198) -/

/-- A message that is the next of its sender to reach an actor of this device. -/
structure State.MsgArrives (s : State) (i entry : Nat) (p : Packet) (m : Msg) : Prop where
  packet : s.packetAt i = some p
  body : p.body = .msg m entry
  next : s.msgBehind i p = false
  found : s.isLost p.dev = false
  dev : p.dev = s.ownDev
  actor : m.dest.getLsbD 27 = false

/-- The sender of packet i is answered, in a state of which more is said. -/
def State.answersMsg (s : State) (i entry : Nat) (p : Packet) (reason : Nat) (f : State → Prop) : Prop :=
  ∃ (t : State) (q : Packet), exec (.messageArrival i) s = .next t ∧ t.net = ldel s.net i ++ [q] ∧ q.body = .answer entry reason ∧
    q.unit = p.unit ∧ q.core = p.src.1 ∧ q.slot = p.src.2 ∧ f t

section
variable {s : State} {i entry reason : Nat} {p : Packet} {m : Msg} (h : s.MsgArrives i entry p m) {f : State → Prop}
include h

theorem State.MsgArrives.exec_eq {t : State}
    (hdecide : (s.dropPacket i).decide p.core p.slot (m.dest.toNat % 16) (s.ownDev, p.src.1, p.src.2) m = (reason, t)) :
    exec (.messageArrival i) s = .next (t.answerMsg p entry reason) := by
  have hown : (p.dev != s.ownDev) = false := by rw [h.dev]; exact bne_self_eq_false _
  rw [exec_messageArrival, execMessageArrival, h.packet]
  simp only [h.body, h.next, h.found, hown, h.actor, hdecide, Bool.false_eq_true, if_false, Bool.false_and]

/-- The answer is the newest packet, and changes nothing else. -/
theorem State.MsgArrives.answers {t : State}
    (hdecide : (s.dropPacket i).decide p.core p.slot (m.dest.toNat % 16) (s.ownDev, p.src.1, p.src.2) m = (reason, t))
    (hnet : t.net = ldel s.net i) (hf : ∀ u, t.Sent u → f u) : s.answersMsg i entry p reason f :=
  ⟨_, { src := (p.core, p.slot), unit := p.unit, dev := t.ownDev, core := p.src.1, slot := p.src.2, body := .answer entry reason },
    h.exec_eq hdecide, congrArg (· ++ [_]) hnet, rfl, rfl, rfl, rfl, hf _ (.setNet _ _)⟩

variable {id : Ident} {tm : Team} {set : List (Nat × Nat × Nat × Nat)} {ovf : BitVec 16}
  (hreq : (s.dropPacket i).MailReq p.core p.slot (m.dest.toNat % 16) (s.ownDev, p.src.1, p.src.2) m id tm)
  (hmay : s.maySend m.dom tm.domain = true)
include hreq hmay

/-- A refusal changes the mailbox's set of refused senders alone. -/
theorem State.MsgArrives.refuses (hr : reason ≠ 0)
    (hset : decideSet (s.slot p.core p.slot).refused (s.slot p.core p.slot).ovf (s.ownDev, p.src.1, p.src.2, m.dest.toNat % 16)
      (m.dest.toNat % 16) m.retry (s.mailFull p.core (s.slot p.core p.slot).act.mbox.toNat (m.dest.toNat % 16)) = (reason, set, ovf))
    (hf : ∀ t : State, s.sameMemory t → (∀ b, t.bank p.core b = s.bank p.core b) → (t.slot p.core p.slot).refused = set →
      (t.slot p.core p.slot).ovf = ovf → f t) : s.answersMsg i entry p reason f := by
  have hslot := State.slot_modSlot (s.dropPacket i) p.core p.slot (fun x => { x with refused := set, ovf }) hreq.slot
  have hmem := State.sameMemory_trans (s.sameMemory_setNet (ldel s.net i))
    (State.sameMemory_modSlot (s.dropPacket i) p.core p.slot (fun x => { x with refused := set, ovf }))
  refine h.answers (hreq.decide_refused hmay hr hset) rfl fun t ht => hf t (State.sameMemory_trans hmem ht.sameMemory) (fun b => ?_) ?_ ?_
  · rw [ht.bank_eq, State.bank_modSlot]
    rfl
  · rw [ht.slot_keeps Slot.refused (fun _ => rfl), hslot]
  · rw [ht.slot_keeps Slot.ovf (fun _ => rfl), hslot]

/-- An acceptance appends the payload to its channel. -/
theorem State.MsgArrives.accepts (hfull : ¬ s.mailFull p.core (s.slot p.core p.slot).act.mbox.toNat (m.dest.toNat % 16) = true)
    (hset : decideSet (s.slot p.core p.slot).refused (s.slot p.core p.slot).ovf (s.ownDev, p.src.1, p.src.2, m.dest.toNat % 16)
      (m.dest.toNat % 16) m.retry (s.mailFull p.core (s.slot p.core p.slot).act.mbox.toNat (m.dest.toNat % 16)) = (0, set, ovf))
    (hsound : s.soundQueue p.core (s.slot p.core p.slot).act.mbox.toNat (m.dest.toNat % 16))
    (hesz : (s.bank p.core (s.slot p.core p.slot).act.mbox.toNat).esz = 32) :
    s.answersMsg i entry p 0 fun t => t.queueList p.core (s.slot p.core p.slot).act.mbox.toNat (m.dest.toNat % 16) =
      s.queueList p.core (s.slot p.core p.slot).act.mbox.toNat (m.dest.toNat % 16) ++ [m.payload.toNat] ∧
      (t.slot p.core p.slot).refused = set := by
  refine h.answers (hreq.decide_accepted hmay hfull hset) rfl fun t ht => ⟨?_, ?_⟩
  · rw [ht.queueList_eq, State.slot_dropPacket, State.queueList_mailed_modSlot _ _ _ _ _ hsound hesz (by
      rw [State.mailFull, decide_eq_true_eq] at hfull
      exact Nat.lt_of_le_of_lt (Nat.le_add_right _ _) (Nat.not_le.mp hfull))]
  · rw [ht.slot_keeps Slot.refused (fun _ => rfl), State.slot_mailed, State.slot_modSlot _ _ _ _ hreq.slot]
end

end Sys2Proof.Machine

open Sys2Proof.Machine

/-- Settles O32: the rows of the table are those of `decideSet`; what they leave of the set is kept, and an accepted message is appended. -/
theorem mailboxDecision : Obligations.MailboxDecision := by
  unfold Obligations.MailboxDecision
  intro s i entry p m id tm hp hbody hbehind hlost hdev hactor hslot sl ch mb x who known full answered same haway hident hguest hteam hlive
  have h : s.MsgArrives i entry p m := ⟨hp, hbody, hbehind, hlost, hdev, hactor⟩
  have hreq : (s.dropPacket i).MailReq p.core p.slot ch (s.ownDev, p.src.1, p.src.2) m id tm := ⟨hslot, haway, hident, hguest, hteam, hlive⟩
  have hch : ch < 16 := Nat.mod_lt _ (by decide)
  have hmail : s.mailFull p.core mb ch = true ↔ full := decide_eq_true_iff
  refine ⟨fun hbar => ?barred, fun hmay => ⟨fun hknown hretry => ?order, fun hpass =>
    ⟨fun hfull => ?full, fun hfull hnew hcrowd => ?crowded, fun hfull hroom hsound hesz => ?accepted⟩⟩⟩
  case barred => exact h.answers (hreq.decide_barred hbar) rfl fun t ht =>
    ⟨State.sameMemory_trans (s.sameMemory_setNet _) ht.sameMemory, ht.bank_eq _ _⟩
  case order =>
    exact h.refuses hreq hmay (by decide) (decideSet_order hknown hretry) fun t hmem hbank hrefused _ => ⟨⟨hmem, hbank mb⟩, hrefused⟩
  case full =>
    obtain ⟨set, ovf, hset, hrefused, hovf⟩ := decideSet_full hpass hch (hmail.mpr hfull)
    exact h.refuses hreq hmay (by decide) hset fun t hmem hbank hr ho => ⟨⟨hmem, hbank mb⟩, hr.trans hrefused, fun hlost => ho ▸ hovf hlost⟩
  case crowded =>
    obtain ⟨ovf, hset, hovf⟩ := decideSet_crowded hpass hch (mt hmail.mp hfull) hnew hcrowd
    exact h.refuses hreq hmay (by decide) hset fun t hmem hbank hr ho => ⟨⟨hmem, hbank mb⟩, hr, ho ▸ hovf⟩
  case accepted =>
    exact h.accepts hreq hmay (mt hmail.mp hfull) (decideSet_accepts hpass (mt hmail.mp hfull) hroom) hsound hesz
end

section
/-! The channel and handler instructions at their actor's own core, and DONE (R206-R208). -/

open Sys2Proof

namespace Sys2Proof.Machine

/-! ### CHCNT and CHDROP (R206) -/

/-- What a form of CHCNT answers of channel ch of slot k of core c. -/
def State.channelWord (s : State) (c k ch : Nat) : Nat → BitVec 64
  | 0 => BitVec.ofNat 64 ((s.bank c (s.slot c k).act.mbox.toNat).count ch)
  | 1 => s.headHeader c (s.slot c k).act.mbox.toNat ch
  | 2 => BitVec.ofNat 64 ((s.bank c (s.slot c k).act.mbox.toNat).depth ch)
  | _ => BitVec.ofNat 64 (((s.slot c k).refused.filter (fun e => e.2.2.2 == ch)).length + 16 * ((s.slot c k).ovf.getLsbD ch).toNat)

section
variable {o : Op} {s t : State} {c k : Nat} {a b : BitVec 64} (hc : s.cur = .slot c k) (hguest : s.isGuest = false)
  (hg : s.thread.guardBit o = true)
include hc hguest hg

theorem execChcnt_ok (h : s.mayRun 0xC1 = true) (hd : dstX o.d (s.channelWord c k (i18f o 3 0) (i18f o 5 4)) s = .ok ((), t)) :
    exec (.chcnt o) s = .next (t.finish o.len) := by
  have hat : s.at_ = (c, k) := by rw [State.at_, hc]
  rw [exec_chcnt, execChcnt]
  refine runScalar_finish h hg ((bind_ok (homeOnly_run hguest)).trans ((bind_ok (getS_run s)).trans ?_))
  simp only [hat]
  exact dstX_next hd

theorem execChdrop_ok (h : s.mayRun 0xC2 = true) (hb : rdReg o.b s = .ok (b, s))
    (hd : dstX o.d (BitVec.ofNat 64 (min b.toNat ((s.bank c (s.slot c k).act.mbox.toNat).count (i18f o 3 0))))
      (s.modBank c (s.slot c k).act.mbox.toNat (·.dropHead (i18f o 3 0)
        (min b.toNat ((s.bank c (s.slot c k).act.mbox.toNat).count (i18f o 3 0))))) = .ok ((), t)) :
    exec (.chdrop o) s = .next (t.finish o.len) := by
  have hat : s.at_ = (c, k) := by rw [State.at_, hc]
  rw [exec_chdrop, execChdrop]
  refine runScalar_finish h hg ((bind_ok (homeOnly_run hguest)).trans ((bind_ok hb).trans ((bind_ok (getS_run s)).trans ?_)))
  simp only [hat]
  exact (bind_ok (modS_run _ s)).trans (dstX_next hd)

/-! ### HEN, HDIS and HSET (R207) -/

/-- The handlers that a mask instruction names, in I18 and in A. -/
def handlersOf (o : Op) (a : BitVec 64) : BitVec 16 := o.i18.setWidth 16 ||| a.setWidth 16

theorem handlerMask_ok {code : Nat} (f : ActorRegs → BitVec 16 → ActorRegs) (h : s.mayRun code = true) (ha : rdReg o.a s = .ok (a, s)) :
    handlerMask code o f s = .next ((s.modSlot c k (fun x => { x with act := f x.act (handlersOf o a) })).finish o.len) := by
  have hmask : BitVec.ofNat 16 (i18f o 15 0) = o.i18.setWidth 16 := by
    rw [i18f, Nat.pow_zero, Nat.div_one]
    exact BitVec.eq_of_toNat_eq (by simp)
  rw [handlerMask]
  refine runScalar_finish h hg ((bind_ok (homeOnly_run hguest)).trans ((bind_ok ha).trans ((bind_ok (modCurSlot_slot hc _)).trans ?_)))
  rw [hmask]
  rfl

/-- A mask instruction changes the actor's registers alone, and moves on. -/
theorem handlerMask_leaves {code : Nat} (hk : k < 4) (f : ActorRegs → BitVec 16 → ActorRegs) (h : s.mayRun code = true) (ha : rdReg o.a s = .ok (a, s)) :
    ∃ u : State, handlerMask code o f s = .next u ∧ (u.slot c k).act = f (s.slot c k).act (handlersOf o a) ∧
      (u.slot c k).regs = (s.slot c k).regs ∧ (u.slot c k).firing = (s.slot c k).firing ∧ (u.slot c k).status = (s.slot c k).status ∧
      u.thread = { s.thread with pc := s.thread.pc + BitVec.ofNat 64 (lenBytes o.len) } ∧ s.sameMemory u ∧ s.sameRest u := by
  refine ⟨_, handlerMask_ok hc hguest hg f h ha, ?_⟩
  generalize ht : s.modSlot c k (fun x => { x with act := f x.act (handlersOf o a) }) = t
  have hct : t.cur = .slot c k := ht ▸ hc
  have hslot : t.slot c k = { s.slot c k with act := f (s.slot c k).act (handlersOf o a) } := ht ▸ State.slot_modSlot _ _ _ _ hk
  have hmem : s.sameMemory t := ht ▸ State.sameMemory_modSlot _ _ _ _
  have hrest : s.sameRest t := ht ▸ (s.near_modSlot _ hc rfl).rest
  obtain ⟨hfmem, hfrest, -⟩ := t.finish_frame o.len hct
  rw [State.finish_thread o.len hct hk, State.finish_slot_retired t o.len hct hk, hslot, State.thread, hc]
  exact ⟨rfl, rfl, rfl, rfl, rfl, State.sameMemory_trans hmem hfmem, State.sameRest_trans hrest hfrest⟩
end

/-! ### DONE (R208) -/

section
variable {s : State} {c k : Nat}

theorem State.endFiring_home (h : (s.slot c k).guest = none) : s.endFiring c k = s.modSlot c k (·.endFiring) := by rw [State.endFiring, h]

variable (hc : s.cur = .slot c k) (hguest : s.isGuest = false)
include hc hguest

theorem guest_of_isGuest : (s.slot c k).guest = none := by simpa [State.isGuest, hc] using hguest

/-- A firing in its own slot may end at once (R253). -/
theorem guestDone_home : guestDone s = .ok ((), s) := by
  have hat : s.at_ = (c, k) := by rw [State.at_, hc]
  unfold guestDone
  rw [bind_ok (getS_run s)]
  simp only [hat, guest_of_isGuest hc hguest, Option.isNone_none, if_true, pure_run]
end

/-- The end of a firing in its slot leaves the thread, the actor and the memories (R208). -/
theorem State.noteIssue_endFiring (s : State) {c k : Nat} (hc : s.cur = .slot c k) (hk : k < 4) :
    let u := (s.modSlot c k (·.endFiring)).noteIssue
    (u.slot c k).firing = none ∧ (u.slot c k).status = .waiting ∧ (u.slot c k).km = false ∧ (u.slot c k).thr = (s.slot c k).thr ∧
      (u.slot c k).act = (s.slot c k).act ∧ s.sameMemory u := by
  have hct : (s.modSlot c k (·.endFiring)).cur = .slot c k := hc
  dsimp only
  rw [State.noteIssue_slot _ hct hk, State.slot_modSlot _ _ _ _ hk]
  exact ⟨rfl, rfl, rfl, rfl, rfl, State.sameMemory_trans (State.sameMemory_modSlot _ _ _ _) (State.noteIssue_near _ hct).sameMemory⟩

section
variable {o : Op} {s : State} {c k : Nat} (hc : s.cur = .slot c k) (h : s.mayRun 0xC6 = true) (hg : s.thread.guardBit o = true)
include hc h hg

theorem execDone_ends (hguest : s.isGuest = false) (hfiring : (s.slot c k).firing.isSome = true) :
    exec (.done o) s = .next (s.modSlot c k (·.endFiring)).noteIssue := by
  have hin : (!(s.slot c k).inFiring) = false := by rw [Slot.inFiring, hfiring]; rfl
  rw [exec_done, execDone, runScalar_ok (t := s.modSlot c k (·.endFiring)) (fl := .ended) h hg]
  · rfl
  rw [bind_ok (curSlot_slot hc), hin, if_neg Bool.false_ne_true, bind_ok (guestDone_home hc hguest), bind_ok (modS_run _ s), pure_run]
  rw [State.at_, hc, State.endFiring_home (guest_of_isGuest hc hguest)]

/-- Outside a firing DONE raises ILLEGAL (R208). -/
theorem execDone_illegal (hfiring : (s.slot c k).firing = none) : exec (.done o) s = .next (s.trapCur .illegal (packWord0 0xC6 o)) := by
  have hin : (!(s.slot c k).inFiring) = true := by rw [Slot.inFiring, hfiring]; rfl
  rw [exec_done, execDone]
  refine runScalar_trap h hg ?_
  rw [bind_ok (curSlot_slot hc), hin, if_pos rfl, raise_run]
end

end Sys2Proof.Machine

open Sys2Proof.Machine

/-- Settles O34: each reads its operands at home and changes what its rule names, and the instruction retires. -/
theorem channelsAndHandlers : Obligations.ChannelsAndHandlers := by
  unfold Obligations.ChannelsAndHandlers
  intro o s t c k a b hc hk hguest hg sl mb x ch mask
  refine ⟨fun form hform h hi hd => ?chcnt, fun h hb hd => ?chdrop, fun e he h ha => ?mask, fun h hfiring => ?done, fun h hfiring => ?illegal⟩
  case chcnt =>
    refine execChcnt_ok hc hguest hg h ?_
    simp only [List.mem_cons, List.not_mem_nil, or_false] at hform
    rw [hi]
    rcases hform with rfl | rfl | rfl | rfl <;> exact hd
  case chdrop => exact execChdrop_ok hc hguest hg h hb hd
  case mask =>
    simp only [List.mem_cons, List.not_mem_nil, or_false] at he
    rcases he with rfl | rfl | rfl
    · exact handlerMask_leaves hc hguest hg hk (fun r m => { r with en := r.en ||| m }) h ha
    · exact handlerMask_leaves hc hguest hg hk (fun r m => { r with en := r.en &&& ~~~m }) h ha
    · exact handlerMask_leaves hc hguest hg hk (fun r m => { r with soft := r.soft ||| m }) h ha
  case done => exact ⟨_, execDone_ends hc h hg hguest hfiring, s.noteIssue_endFiring hc hk⟩
  case illegal => exact execDone_illegal hc h hg hfiring
end

section
/-! Bytes written to ARRAY banks of local memory, which no span reaches (R8, R153). -/

open Sys2Proof

namespace Sys2Proof.Machine

/-! ### Writes one byte after the other -/

/-- What lies behind the head of a list. -/
theorem lget_cons_sub {α : Type} (d y : α) (l : List α) {a x : Nat} (h : a < x) : lget d (y :: l) (x - a) = lget d l (x - (a + 1)) := by
  obtain ⟨n, rfl⟩ := Nat.exists_eq_add_of_le h
  rw [show a.succ + n - a = n + 1 from by omega, show a.succ + n - (a + 1) = n from by omega]
  rfl

section
variable {s t u : State} {c off : Nat} {bs : List (Option Byte)}

theorem State.wroteLocal_nil (s : State) (c off : Nat) : s.wroteLocal s c off [] :=
  ⟨fun x => (if_neg (by simp)).symm, fun _ _ => rfl, fun _ => ⟨rfl, rfl⟩, fun _ => ⟨rfl, rfl⟩, rfl, rfl, rfl⟩

/-- A byte that is masked stays. -/
theorem State.wroteLocal_none (s : State) (c off : Nat) : s.wroteLocal s c off [none] := by
  refine ⟨fun x => ?_, fun _ _ => rfl, fun _ => ⟨rfl, rfl⟩, fun _ => ⟨rfl, rfl⟩, rfl, rfl, rfl⟩
  split
  · next hx =>
    rw [List.length_singleton] at hx
    obtain rfl : x = off := by omega
    rw [Nat.sub_self]
    rfl
  · rfl

/-- A byte and the bytes behind it. -/
theorem State.wroteLocal_cons {b : Option Byte} (h : s.wroteLocal t c off [b]) (g : t.wroteLocal u c (off + 1) bs) :
    s.wroteLocal u c off (b :: bs) := by
  obtain ⟨hmem, hother, hleg, hsvc, hhbm, hhleg, hl2⟩ := h
  obtain ⟨gmem, gother, gleg, gsvc, ghbm, ghleg, gl2⟩ := g
  refine ⟨fun x => ?_, fun d hd => (gother d hd).trans (hother d hd), fun d => ⟨(gleg d).1.trans (hleg d).1, (gleg d).2.trans (hleg d).2⟩,
    fun n => ⟨(gsvc n).1.trans (hsvc n).1, (gsvc n).2.trans (hsvc n).2⟩, ghbm.trans hhbm, ghleg.trans hhleg, gl2.trans hl2⟩
  rw [gmem, hmem]
  simp only [List.length_cons, List.length_nil]
  rcases Nat.lt_trichotomy x off with hx | rfl | hx
  · rw [if_neg (by omega), if_neg (by omega), if_neg (by omega)]
  · rw [if_neg (by omega), if_pos (by omega), if_pos (by omega), Nat.sub_self]
    rfl
  · rw [if_neg (show ¬ (off ≤ x ∧ x < off + (0 + 1)) by omega)]
    split
    · rw [if_pos (by omega), lget_cons_sub _ _ _ hx]
    · rw [if_neg (by omega)]

/-- What leaves the memories leaves what was written. -/
theorem State.wroteLocal_sameMemory (h : s.wroteLocal t c off bs) (g : t.sameMemory u) : s.wroteLocal u c off bs := by
  obtain ⟨hmem, hother, hleg, hsvc, hhbm, hhleg, hl2⟩ := h
  obtain ⟨gcore, gsvc, ghbm, ghleg, gl2⟩ := g
  exact ⟨fun x => by rw [(gcore c).1, hmem], fun d hd => (gcore d).1.trans (hother d hd),
    fun d => ⟨(gcore d).2.1.trans (hleg d).1, (gcore d).2.2.trans (hleg d).2⟩,
    fun n => ⟨(gsvc n).1.trans (hsvc n).1, (gsvc n).2.trans (hsvc n).2⟩, ghbm.trans hhbm, ghleg.trans hhleg, gl2.trans hl2⟩
end

/-! ### Writes to ARRAY banks (R153) -/

section
variable (s : State) (c : Nat)

/-- Core c with a byte of its memory written. -/
def Core.putByte (x : Core) (off : Nat) (b : Byte) : Core := { x with mem := Mem.write x.mem off b }

/-- Spans depend on the banks alone. -/
theorem State.spanTarget_modCore {f : Core → Core} (hf : (f (s.core c)).banks = (s.core c).banks) (d x : Nat) :
    (s.modCore c f).spanTarget d x = s.spanTarget d x := by
  have hbank (d a : Nat) : (s.modCore c f).bank d a = s.bank d a := State.bank_modCore_keeps s hf d a
  have hmembers (d a : Nat) : (s.modCore c f).members d a = s.members d a := by
    unfold State.members
    rw [hbank]
    rfl
  simp only [State.spanTarget, hbank, hmembers]

theorem State.wroteLocal_putByte (hwf : Memory.wf (s.core c).mem = true) (off : Nat) (b : Byte) :
    s.wroteLocal (s.modCore c (·.putByte off b)) c off [some b] := by
  refine ⟨fun x => ?_, fun d hd => by rw [State.core_modCore_ne _ _ hd], fun d => ⟨State.core_modCore_keeps Core.leg s (by rfl) d,
    State.core_modCore_keeps Core.l1 s (by rfl) d⟩, fun _ => ⟨rfl, rfl⟩, rfl, rfl, rfl⟩
  rw [State.core_modCore, Core.putByte, List.length_singleton]
  by_cases hx : x = off
  · subst hx
    rw [Mem.read_write _ _ _ hwf, if_pos (by omega), Nat.sub_self]
    rfl
  · rw [Mem.read_write_ne _ _ hx, if_neg (by omega)]

/-- Bytes that no span reaches are written where they are addressed. -/
theorem State.wroteLocal_localWrite (bs : List (Option Byte)) (off : Nat) (hwf : Memory.wf (s.core c).mem = true)
    (hspan : ∀ i, i < bs.length → s.spanTarget c (off + i) = none) : s.wroteLocal (s.localWrite c off bs) c off bs := by
  induction bs generalizing s off with
  | nil => exact s.wroteLocal_nil c off
  | cons b bs ih =>
    have hnext (i : Nat) (hi : i < bs.length) : s.spanTarget c (off + 1 + i) = none := by
      rw [Nat.add_assoc, Nat.add_comm 1]
      exact hspan (i + 1) (Nat.succ_lt_succ hi)
    cases b with
    | none =>
      exact State.wroteLocal_cons (s.wroteLocal_none c off) (ih s (off + 1) hwf hnext)
    | some b =>
      have hhere := hspan 0 (Nat.succ_pos _)
      rw [Nat.add_zero] at hhere
      rw [State.localWrite, hhere]
      refine State.wroteLocal_cons (s.wroteLocal_putByte c hwf off b) (ih _ _ ?_ fun i hi => ?_)
      · rw [State.core_modCore]
        exact Memory.wf_write _ _ _ hwf
      · rw [State.spanTarget_modCore]
        · exact hnext i hi
        · rfl

/-- What a byte's write keeps, a write keeps. -/
theorem State.localWrite_keeps {α : Type} (π : State → α) (hπ : ∀ t d off b, π (t.modCore d (Core.putByte · off b)) = π t)
    (off : Nat) (bs : List (Option Byte)) : π (s.localWrite c off bs) = π s := by
  induction bs generalizing s off with
  | nil => rfl
  | cons b bs ih =>
    cases b with
    | none => exact ih s (off + 1)
    | some b => exact (ih _ _).trans (hπ s _ _ b)
end

end Sys2Proof.Machine
end

section
/-! TEND (R212): its end with a zero address, its decrement in an ARRAY bank of the issuing core, and the reply to one that was sent. -/

open Sys2Proof

namespace Sys2Proof.Machine

/-! ### The decrement's site and its waits (R265, R266, R269, R276) -/

/-- The site of an atomic in local memory of core c. -/
def State.localSite (s : State) (c off : Nat) : AtomicSite :=
  { tgt := { dev := s.ownDev, core := c, isLocal := true }, addr := off, kind := s.localKind c off }

section
variable {s : State} {c k : Nat} (h : s.calm c k)
include h

theorem State.calm.atomicSite_local {e : BitVec 64} {z off : Nat} (hal : e.toNat % z = 0)
    (hloc : s.locate c k e.toNat z = some (.loc s.ownDev c off z)) (harray : s.noAtomic c off = false) :
    atomicSite false e z s = .ok (s.localSite c off, s) := by
  unfold atomicSite
  rw [if_neg (by rw [hal]; exact Bool.false_ne_true), bind_ok (getS_run s), h.at_eq]
  simp only [hloc, harray, Bool.and_false, Bool.false_eq_true, if_false, BEq.rfl, if_true]
  rfl

theorem State.calm.releaseWait_ok : releaseWait s = .ok ((), s) := by
  obtain ⟨-, -, hsq, -, howed, hun, hcores, -, -⟩ := id h
  unfold releaseWait
  rw [bind_ok (getS_run s), h.at_eq]
  simp [State.releasing, State.gathering, hsq, howed, hun, hcores]

theorem State.calm.atomicOrder_ok (st : AtomicSite) (z : Nat) (rel : Bool) : atomicOrder st z rel s = .ok ((), s) := by
  obtain ⟨-, -, hsq, hcomb, howed, hun, hcores, -, -⟩ := id h
  unfold atomicOrder
  rw [bind_ok (curSlot_run s), bind_ok (getS_run s), h.at_eq]
  simp only [Slot.acquiring, Slot.storeOverlap, Slot.soPending, Slot.farStore, State.laneHolds, State.gathering, hsq, hcomb, howed, hun, hcores,
    List.isEmpty_nil, List.any_nil, Bool.not_true, Bool.or_self, Bool.and_false, Bool.false_eq_true, if_false]
  cases rel
  · rfl
  · exact h.releaseWait_ok

theorem State.calm.bytesPoisoned_eq (d : Nat) (isLocal : Bool) (off : Nat) : s.bytesPoisoned d isLocal off = false := by
  obtain ⟨-, -, -, -, -, -, -, hpoison, -⟩ := h
  simp [State.bytesPoisoned, hpoison]
end

/-! ### The decrement (R212, R276) -/

/-- The bytes of a count that is one less. -/
def lessOne (old : Nat) : List (Option Byte) := (natToBytes 8 (BitVec.ofNat 64 old - 1).toNat).map some

theorem atomicNew_decrement (old : Nat) : atomicNew 0x70 (8 * 8) 0 old (2 ^ 64 - 1) 0 = ((BitVec.ofNat 64 old - 1).toNat, 0, true) := by
  have hsub : (BitVec.ofNat 64 old - 1).toNat = (old % 2 ^ 64 + (2 ^ 64 - 1) % 2 ^ 64) % 2 ^ 64 := by
    rw [BitVec.toNat_sub, BitVec.toNat_ofNat, Nat.add_comm]
    rfl
  rw [hsub]
  rfl

theorem State.atomicAt_decrement (s : State) (c off cls : Nat) : s.atomicAt c true off 0x70 8 0 (2 ^ 64 - 1) 0 cls =
    (bytesToNat (s.localRead c off 8), 0, s.localWrite c off (lessOne (bytesToNat (s.localRead c off 8)))) := by
  simp only [State.atomicAt, if_true, atomicNew_decrement]
  rfl

theorem State.tendResult_other (s : State) (c k : Nat) (a : BitVec 64) {old : BitVec 64} (h : old ≠ 1) :
    s.tendResult c k a old = s.endFiring c k := by
  rw [State.tendResult, if_pos (by rwa [bne_iff_ne])]

theorem State.length_localRead (s : State) (c off n : Nat) : (s.localRead c off n).length = n := by
  rw [State.localRead, List.length_map, List.length_range]

/-- The eight bytes of a count are a number of 64 bits. -/
theorem ofNat_localRead_ne_one {s : State} {c off : Nat} (h : bytesToNat (s.localRead c off 8) ≠ 1) :
    BitVec.ofNat 64 (bytesToNat (s.localRead c off 8)) ≠ 1 := by
  have hlt := bytesToNat_lt (s.localRead c off 8)
  rw [State.length_localRead, pow_bytes] at hlt
  intro hone
  have hnat := congrArg BitVec.toNat hone
  rw [BitVec.toNat_ofNat, Nat.mod_eq_of_lt hlt] at hnat
  exact h hnat

/-! ### TEND (R212) -/

/-- The state in which a TEND of slot k of core c has taken one from the count at an offset of its core. -/
def State.counted (s : State) (c off : Nat) : State := s.localWrite c off (lessOne (bytesToNat (s.localRead c off 8)))

section
variable {o : Op} {s : State} {c k off : Nat} {a : BitVec 64}

theorem execTend_zero (hc : s.cur = .slot c k) (hguest : s.isGuest = false) (hr : s.runs 0xC8 o) (ha : rdReg o.a s = .ok (0, s)) :
    exec (.tend o) s = .next (s.modSlot c k (·.endFiring)).noteIssue := by
  rw [exec_tend, execTend, runScalar_ok (t := s.modSlot c k (·.endFiring)) (fl := .ended) hr.1 hr.2]
  · rfl
  rw [bind_ok ha, if_pos BEq.rfl, bind_ok (guestDone_home hc hguest), bind_ok (modS_run _ s), pure_run]
  rw [State.at_, hc, State.endFiring_home (guest_of_isGuest hc hguest)]

/-- With an old count other than 1 the firing ends once the count is written. -/
theorem execTend_counts (h : s.calm c k) (hguest : s.isGuest = false) (hr : s.runs 0xC8 o) (ha : rdReg o.a s = .ok (a, s)) (hne : a ≠ 0)
    (hal : a.toNat % 8 = 0) (hloc : s.locate c k a.toNat 8 = some (.loc s.ownDev c off 8)) (harray : s.noAtomic c off = false)
    (hold : bytesToNat (s.localRead c off 8) ≠ 1) :
    exec (.tend o) s = .next ((s.counted c off).noteIssue.endFiring c k).noteIssue := by
  obtain ⟨hc, -⟩ := id h
  have hbody : (a == 0) = false := beq_eq_false_iff_ne.mpr hne
  rw [exec_tend, execTend, runScalar_ok (t := (s.counted c off).noteIssue.endFiring c k) (fl := .ended) hr.1 hr.2]
  · rfl
  rw [bind_ok ha, hbody, if_neg Bool.false_ne_true]
  refine (bind_ok (h.atomicSite_local hal hloc harray)).trans ((bind_ok h.releaseAll_ok).trans ((bind_ok (guestDone_home hc hguest)).trans
    ((bind_ok (h.atomicOrder_ok _ _ _)).trans ((bind_ok (getS_run s)).trans ?_))))
  simp only [h.at_eq, State.localSite, BEq.rfl, Bool.and_self, Bool.true_and, if_true, h.localHeld_eq, h.bytesPoisoned_eq, Bool.false_eq_true,
    if_false, State.atomicAt_decrement, State.tendResult_other _ _ _ _ (ofNat_localRead_ne_one hold)]
  rfl

/-- The write of the count leaves the slot's firing to end. -/
theorem State.counted_ends (h : s.calm c k) (hguest : s.isGuest = false) (harray : s.plainArray c off 8) :
    let t := ((s.counted c off).noteIssue.endFiring c k).noteIssue
    s.wroteLocal t c off (lessOne (bytesToNat (s.localRead c off 8))) ∧ (t.slot c k).firing = none ∧ (t.slot c k).status = .waiting := by
  obtain ⟨hc, hk, -⟩ := id h
  obtain ⟨hwf, hplain⟩ := harray
  have hslot : (s.counted c off).slot c k = s.slot c k :=
    State.localWrite_keeps s c (·.slot c k) (fun t d _ _ => State.slot_modCore_keeps t d _ rfl c k) off _
  have hcur : (s.counted c off).cur = .slot c k := (State.localWrite_keeps s c State.cur (fun _ _ _ _ => rfl) off _).trans hc
  have hcur' : (s.counted c off).noteIssue.cur = .slot c k := (State.noteIssue_near _ hcur).cur.trans hcur
  have hhome : ((s.counted c off).noteIssue.slot c k).guest = none := by
    rw [State.noteIssue_slot _ hcur hk, hslot]
    exact guest_of_isGuest hc hguest
  have hwrote : s.wroteLocal (s.counted c off) c off (lessOne (bytesToNat (s.localRead c off 8))) :=
    s.wroteLocal_localWrite c _ off hwf fun i hi => (hplain i hi).1
  obtain ⟨hfiring, hstatus, -, -, -, hmem⟩ := (s.counted c off).noteIssue.noteIssue_endFiring hcur' hk
  rw [State.endFiring_home hhome]
  exact ⟨State.wroteLocal_sameMemory hwrote (State.sameMemory_trans (State.noteIssue_near _ hcur).sameMemory hmem), hfiring, hstatus⟩
end

/-! ### The reply (R212) -/

theorem execTendDecrementReply_ends {s : State} {i rid : Nat} {p : Packet} {a old : BitVec 64} (hp : s.packetAt i = some p)
    (hbody : p.body = .tendReply rid (.ok old)) (hpend : (s.slot p.core p.slot).pend = some (.tend rid a))
    (hguest : (s.slot p.core p.slot).guest = none) (hold : old ≠ 1) :
    exec (.tendDecrementReply i) s = .next ((s.dropPacket i).modSlot p.core p.slot (·.endFiring)) := by
  have hjoined : s.homeJoined p.core p.slot = true := by rw [State.homeJoined, hguest]
  rw [exec_tendDecrementReply, execTendDecrementReply, State.onPacket, hp]
  simp only [hbody, hpend, hjoined, bne_self_eq_false, Bool.not_true, Bool.or_self, Bool.false_eq_true, if_false,
    State.tendResult_other _ _ _ _ hold]
  exact congrArg Host.Outcome.next (State.endFiring_home (s := s.dropPacket i) hguest)

end Sys2Proof.Machine

open Sys2Proof.Machine

/-- Settles O39: a zero address ends the firing; a decrement of a count other than 1, in the own core or by the reply, ends it too. -/
theorem taskEnds : Obligations.TaskEnds := by
  unfold Obligations.TaskEnds
  refine ⟨?zero, ?counts, ?reply⟩
  case zero =>
    intro o s c k hc hk hguest hr ha
    obtain ⟨hfiring, hstatus, -, -, -, hmem⟩ := s.noteIssue_endFiring hc hk
    exact ⟨_, execTend_zero hc hguest hr ha, hfiring, hstatus, hmem⟩
  case counts =>
    intro o s c k off a h hguest hr ha hne hal hloc hplain harray old hold
    exact ⟨_, execTend_counts h hguest hr ha hne hal hloc harray hold, State.counted_ends h hguest hplain⟩
  case reply =>
    intro s i rid p a old hp hbody hk hpend hguest hold
    refine ⟨_, execTendDecrementReply_ends hp hbody hpend hguest hold, rfl, ?_⟩
    rw [State.slot_modSlot _ _ _ _ hk]
    exact ⟨rfl, rfl, rfl, State.sameMemory_trans (s.sameMemory_setNet _) (State.sameMemory_modSlot _ _ _ _)⟩
end

section
/-! FORK (R209, R211): its record, the push onto the core's deque, and the answer in C. -/

open Sys2Proof

namespace Sys2Proof.Machine

/-! ### The push (R209, R213) -/

/-- A worker whose wait for the next round a push ends is otherwise as it was. -/
theorem Slot.roundAgain_keeps {α : Type} (π : Slot → α) (hπ : ∀ x : Slot, π { x with roundLeft := none, stealWait := 0 } = π x) (x : Slot) :
    π x.roundAgain = π x := by
  unfold Slot.roundAgain
  split
  · exact hπ x
  · rfl

theorem Core.slot_pushTask (x : Core) (t : Task) (j : Nat) : (x.pushTask t).slot j = (x.slot j).roundAgain := by
  simp only [Core.slot, Core.pushTask, vget, Vector.getElem?_map]
  cases x.slots[j]? <;> rfl

section
variable (s : State) (c k : Nat) (x : Task)

theorem State.slot_pushTask : (s.modCore c (·.pushTask x)).slot c k = (s.slot c k).roundAgain := by
  rw [State.slot, State.core_modCore, Core.slot_pushTask]
  rfl

theorem State.sameMemory_pushTask : s.sameMemory (s.modCore c (·.pushTask x)) :=
  ⟨fun d => ⟨State.core_modCore_keeps Core.mem s (by rfl) d, State.core_modCore_keeps Core.leg s (by rfl) d,
    State.core_modCore_keeps Core.l1 s (by rfl) d⟩, fun _ => ⟨rfl, rfl⟩, rfl, rfl, rfl⟩
end

/-! ### The answer in an x register -/

/-- A slot that has written an x register. -/
def Slot.wroteX (x : Slot) (n : Nat) (v : BitVec 64) : Slot := { x.clearPoison (poisonKeyX n) with thr := x.thr.setX n v }

section
variable {t : State} {c k n : Nat} (len : Len) (hc : t.cur = .slot c k) (v : BitVec 64)
include hc

/-- Where no load owes a value an x register is written. -/
theorem wrX_wroteX (howed : (t.slot c k).owed = []) : wrX n v t = .ok ((), t.modSlot c k (·.wroteX n v)) :=
  wrX_slot hc (.inr (by rw [howed, List.any_nil]))

theorem State.finish_deque : ((t.finish len).core c).deque = (t.core c).deque := by
  obtain ⟨f, g, e⟩ := State.finish_eq len hc
  rw [e, State.core_modSlot_deque, State.core_modSlot_deque, State.core_modCore]

/-- An instruction that answers in an x register and retires leaves the deque and the memories. -/
theorem State.finish_wroteX (hk : k < 4) (hn : n < 32) :
    let u := (t.modSlot c k (·.wroteX n v)).finish len
    (u.core c).deque = (t.core c).deque ∧ u.thread.getX n = (if n = 0 then 0 else v) ∧ t.sameMemory u := by
  have hcu : (t.modSlot c k (·.wroteX n v)).cur = .slot c k := hc
  refine ⟨?_, ?_, State.sameMemory_trans (t.sameMemory_modSlot c k _) (State.sameMemory_finish _ len hcu)⟩
  · rw [State.finish_deque len hcu, State.core_modSlot_deque]
  · rw [State.finish_thread len hcu hk, State.slot_modSlot _ _ _ _ hk, Thread.getX_setPc]
    exact Thread.getX_setX_eq _ v hn
end

/-! ### The record (R211) -/

/-- The task that a FORK of slot k of core c makes of the record at an offset of its core. -/
def State.forked (s : State) (c k off : Nat) (a b : BitVec 64) : Task :=
  taskOf (s.localRead c off 32) 0 b (s.forkerOf c k) (c, k) s.nextId a (s.slot c k).thr.pc

/-- The part of what is read that is read from within. -/
theorem State.localRead_window (s : State) (c off m n r : Nat) :
    ((s.localRead c off (m + n + r)).drop m).take n = s.localRead c (off + m) n := by
  rw [State.localRead_add, State.localRead_add, List.append_assoc, List.drop_left' (State.length_localRead ..),
    List.take_left' (State.length_localRead ..)]

section
variable (s : State) (c k off : Nat) (a b : BitVec 64)

/-- The entry, the arguments, the join address and the forker of a forked task. -/
theorem State.forked_fields (hentry : bytesToNat (s.localRead c off 8) < 2 ^ 32) :
    let x := s.forked c k off a b
    x.entry = bytesBv 64 (s.localRead c off 8) ∧ x.args.1 = bytesBv 64 (s.localRead c (off + 8) 8) ∧
      x.args.2.1 = bytesBv 64 (s.localRead c (off + 16) 8) ∧ x.args.2.2 = bytesBv 64 (s.localRead c (off + 24) 8) ∧
      x.join = b ∧ x.forker = s.forkerOf c k := by
  have hword (i r : Nat) (hr : 8 * i + 8 + r = 32) : ((s.localRead c off 32).drop (8 * i)).take 8 = s.localRead c (off + 8 * i) 8 := by
    rw [← hr, State.localRead_window]
  have hsmall : (bytesBv 64 (s.localRead c off 8)).toNat < 2 ^ 32 := by
    rw [bytesBv, BitVec.toNat_ofNat]
    exact (Nat.mod_le _ _).trans_lt hentry
  simp only [State.forked, taskOf, hword 0 24 rfl, hword 1 16 rfl, hword 2 8 rfl, hword 3 0 rfl, Nat.mul_zero, Nat.add_zero, if_pos hsmall,
    Nat.mul_one, Nat.reduceMul, and_self]
end

/-! ### FORK (R211) -/

/-- What a FORK does with a record that it may read, in the state s: it pushes the task, or its answer is that the deque is full. -/
def pushRecord (s : State) (n c k off : Nat) (a b : BitVec 64) : M Flow :=
  if dequeCap ≤ (s.core c).deque.length then wrX n 1 >>= fun _ => pure .next
  else do
    let f ← if bytesToNat ((s.localRead c off 32).take 8) < 2 ^ 32 then pure 0 else freeM
    let s' ← getS
    modCurCore (·.pushTask (taskOf (s.localRead c off 32) f b (s'.forkerOf c k) (c, k) s'.nextId a (s'.slot c k).thr.pc))
    modS (fun s => s.flushComb c k (fun _ => true))
    wrX n 0
    pure .next

section
variable {o : Op} {s : State} {c k off : Nat} {a b : BitVec 64} (h : s.calm c k) (hguest : s.isGuest = false)
include h

theorem pushRecord_full (n : Nat) (hfull : dequeCap ≤ (s.core c).deque.length) :
    pushRecord s n c k off a b s = .ok (.next, s.modSlot c k (·.wroteX n 1)) := by
  obtain ⟨hc, -, -, -, howed, -⟩ := id h
  rw [pushRecord, if_pos hfull, bind_ok (wrX_wroteX hc 1 howed), pure_run]

theorem pushRecord_room (n : Nat) (hroom : ¬ dequeCap ≤ (s.core c).deque.length) (hentry : bytesToNat (s.localRead c off 8) < 2 ^ 32) :
    pushRecord s n c k off a b s =
      .ok (.next, (s.modCore c (·.pushTask (s.forked c k off a b))).modSlot c k (·.wroteX n 0)) := by
  obtain ⟨hc, -, -, hcomb, howed, -⟩ := id h
  have hhead : (s.localRead c off 32).take 8 = s.localRead c off 8 := s.localRead_window c off 0 8 24
  generalize ht : s.modCore c (·.pushTask (s.forked c k off a b)) = t
  have hct : t.cur = .slot c k := ht ▸ hc
  have hslot : t.slot c k = (s.slot c k).roundAgain := ht ▸ s.slot_pushTask c k _
  have hct' : (t.slot c k).comb = [] := by rw [hslot, Slot.roundAgain_keeps Slot.comb fun _ => rfl, hcomb]
  have hot : (t.slot c k).owed = [] := by rw [hslot, Slot.roundAgain_keeps Slot.owed fun _ => rfl, howed]
  have hpush : modCurCore (·.pushTask (s.forked c k off a b)) s = .ok ((), t) := ht ▸ modCurCore_slot hc _
  have hflush : modS (fun s => s.flushComb c k (fun _ => true)) t = .ok ((), t) := by rw [modS_run, State.flushComb_nil _ _ _ _ hct']
  rw [pushRecord, if_neg hroom, hhead, if_pos hentry]
  exact (bind_ok (pure_run 0 s)).trans ((bind_ok (getS_run s)).trans ((bind_ok hpush).trans ((bind_ok hflush).trans
    ((bind_ok (wrX_wroteX hct 0 hot)).trans (pure_run _ _)))))

include hguest

/-- An own offset is one of the running core. -/
theorem locate_of_ownOffset {e n : Nat} (hown : s.ownOffset c k e n = some off) : ∃ m, s.locate c k e n = some (.loc s.ownDev c off m) := by
  obtain ⟨hc, -⟩ := id h
  rw [State.ownOffset, homeOf_of_isGuest hc hguest] at hown
  split at hown
  · next d core x m hloc =>
    split at hown
    · next hcond =>
      rw [Bool.and_eq_true, beq_iff_eq, beq_iff_eq] at hcond
      obtain ⟨rfl, rfl⟩ := hcond
      obtain rfl := Option.some.inj hown
      exact ⟨m, hloc⟩
    · cases hown
  · cases hown

/-- A FORK whose record lies aligned in plain banks of its core pushes it and retires. -/
theorem execFork_pushes {t : State} (hr : s.runs 0xC7 o) (ha : rdReg o.a s = .ok (a, s)) (hb : rdReg o.b s = .ok (b, s))
    (hclaim : claimX (regNum o.c) s = .ok ((), s)) (hown : s.ownOffset c k a.toNat 32 = some off) (hal : a.toNat % 8 = 0)
    (hplain : s.plainBanks c off 32 = true) (hpush : pushRecord s (regNum o.c) c k off a b s = .ok (.next, t)) :
    exec (.fork o) s = .next (t.finish o.len) := by
  obtain ⟨m, hloc⟩ := locate_of_ownOffset h hguest hown
  rw [exec_fork, execFork]
  refine runScalar_finish hr.1 hr.2 ((bind_ok (homeOnly_run hguest)).trans ((bind_ok ha).trans ((bind_ok hb).trans ((bind_ok hclaim).trans
    ((bind_ok (getS_run s)).trans ?_)))))
  simp only [h.at_eq, hloc, BEq.rfl, Bool.and_self, if_true, hal, hplain, bne_self_eq_false, Bool.not_true, Bool.false_eq_true, if_false]
  refine (bind_ok (h.loadOrder_ok _ _ _)).trans ?_
  simp only [h.localHeld_eq, State.rangePoisoned, h.bytesPoisoned_eq, Bool.or_self, Bool.false_eq_true, if_false]
  exact hpush
end

end Sys2Proof.Machine
end

section
/-! TASK_TAKE and STEAL_WAIT_EXPIRY (R211, R213): the entry that a worker takes from its own core or from a victim, and the firing it starts. -/

open Sys2Proof

namespace Sys2Proof.Machine

/-! ### The firing of a task (R31, R213) -/

/-- The x registers at the start of the firing of a task of the actor act. -/
def Task.startX (x : Task) (act : ActorRegs) : List (Nat × BitVec 64) :=
  [(3, act.abase), (4, x.forker), (5, 16), (10, x.args.1), (11, x.args.2.1), (12, x.args.2.2), (13, x.join)]

/-- A slot that starts the firing of a task. -/
def Slot.taskStart (u : Slot) (x : Task) : Slot := u.startRegs .task (x.startX u.act) (u.act.acode + x.entry)

/-- The slot u is at the start of the firing of a task of the actor act. -/
def Slot.atTask (u : Slot) (act : ActorRegs) (x : Task) : Prop :=
  u.firing = some .task ∧ u.thr.pc = act.acode + x.entry ∧ u.thr.getX 3 = act.abase ∧ u.thr.getX 4 = x.forker ∧ u.thr.getX 5 = 16 ∧
    u.thr.getX 10 = x.args.1 ∧ u.thr.getX 11 = x.args.2.1 ∧ u.thr.getX 12 = x.args.2.2 ∧ u.thr.getX 13 = x.join

theorem Slot.atTask_taskStart (u : Slot) (x : Task) : (u.taskStart x).atTask u.act x := by
  have hx (n : Nat) : (u.taskStart x).thr.getX n =
      ((x.startX u.act).foldl (fun (t : Thread) e => t.setX e.1 e.2) { rm := u.thr.rm, flags := u.thr.flags }).getX n := rfl
  refine ⟨rfl, rfl, ?_⟩
  simp [hx, Task.startX, Thread.getX_setX, Thread.getX_setX_ne]

section
variable {s : State} {c k : Nat} {x : Task}

theorem State.fireTask_eq (hal : ((s.slot c k).act.acode + x.entry).toNat % 4 = 0) : s.fireTask c k x = s.modSlot c k (·.taskStart x) :=
  if_pos (beq_iff_eq.mpr hal)

/-- A firing starts in its slot and leaves the deques. -/
theorem State.fireTask_starts {t : State} (hk : k < 4) (hact : (t.slot c k).act = (s.slot c k).act)
    (hal : ((s.slot c k).act.acode + x.entry).toNat % 4 = 0) :
    (∀ d, ((t.fireTask c k x).core d).deque = (t.core d).deque) ∧ ((t.fireTask c k x).slot c k).lastVictim = (t.slot c k).lastVictim ∧
      ((t.fireTask c k x).slot c k).atTask (s.slot c k).act x := by
  rw [← hact] at hal ⊢
  rw [State.fireTask_eq hal, State.slot_modSlot _ _ _ _ hk]
  exact ⟨fun d => State.core_modSlot_deque .., rfl, Slot.atTask_taskStart _ x⟩
end

/-! ### The entry that a pop takes (R211) -/

theorem Core.popEntry_some {d : Core} {x : Task} (h : x ∈ d.deque) : d.popEntry (some x) = some x :=
  if_pos (List.contains_iff_mem.mpr h)

/-- Where the deque is empty there is none. -/
theorem Core.popEntry_nil {d : Core} (w : Option Task) (h : d.deque = []) : d.popEntry w = none := by
  cases w <;> simp [Core.popEntry, h]

/-- The deque without its bottom entry. -/
theorem Core.deque_dropTask_last {d : Core} {x : Task} (h : d.deque.getLast? = some x) : (d.dropTask x).deque = d.deque.dropLast := by
  have hsplit : d.deque = d.deque.dropLast ++ [x] := (List.dropLast_append_getLast? x h).symm
  calc (d.deque.reverse.erase x).reverse = ((d.deque.dropLast ++ [x]).reverse.erase x).reverse := by rw [← hsplit]
    _ = d.deque.dropLast := by rw [List.reverse_append, List.reverse_singleton, List.singleton_append, List.erase_cons_head, List.reverse_reverse]

/-! ### TASK_TAKE (R213) -/

section
variable {s : State} {c k : Nat} {x : Task} (hk : k < 4) (hwaiting : (s.slot c k).status = .waiting) (hhalt : (s.slot c k).haltReq = false)
  (hworker : (s.slot c k).act.worker = true) (hhandlers : s.pendingHandlers c k = []) (hsteal : (s.slot c k).stealAt = none)
  (hready : s.taskReady x = true) (hal : ((s.slot c k).act.acode + x.entry).toNat % 4 = 0)
include hwaiting hhalt hworker hhandlers hsteal

/-- A WAITING worker that does not steal pops, and tries a victim where there is nothing to pop. -/
theorem execTaskTake_popEntry (hready : s.taskReady x = true) : ((s.core c).popEntry (s.slot c k).taskWait = some x →
      execTaskTake c k s = .next ((s.modCore c (·.dropTask x)).fireTask c k x)) ∧
    ((s.core c).popEntry (s.slot c k).taskWait = none → (s.slot c k).roundLeft = none → execTaskTake c k s = .next (s.stealTry c k)) := by
  rw [execTaskTake]
  simp only [hwaiting, hhalt, hworker, hsteal, hhandlers, bne_self_eq_false, Bool.not_true, Bool.or_self, Bool.false_eq_true, if_false,
    Option.isSome_none, List.isEmpty_nil]
  refine ⟨fun hpop => ?_, fun hpop hround => ?_⟩
  · rw [hpop]
    exact congrArg Host.Outcome.next (if_pos hready)
  · rw [hpop, hround]
    rfl

include hk hready hal

/-- The entry of a pop, once ready, leaves its deque, and its firing starts. -/
theorem execTaskTake_pops (hpop : (s.core c).popEntry (s.slot c k).taskWait = some x) :
    ∃ t : State, exec (.taskTake c k) s = .next t ∧ (t.core c).deque = ((s.core c).dropTask x).deque ∧ (t.slot c k).atTask (s.slot c k).act x := by
  have hact : ((s.modCore c (·.dropTask x)).slot c k).act = (s.slot c k).act := by rw [State.slot_modCore_keeps s c _ rfl]
  obtain ⟨hdeque, -, hstart⟩ := State.fireTask_starts (x := x) hk hact hal
  obtain ⟨hpops, -⟩ := execTaskTake_popEntry hwaiting hhalt hworker hhandlers hsteal hready
  exact ⟨_, hpops hpop, by rw [hdeque, State.core_modCore], hstart⟩

/-- The oldest entry of the first victim of a round, once ready, leaves its deque, and its firing starts. -/
theorem execTaskTake_steals {v : Nat} {vs : List Nat} {xs : List Task} (hempty : (s.core c).deque = []) (hround : (s.slot c k).roundLeft = none)
    (hfrom : roundFrom (s.victims c k) (s.slot c k).lastVictim = v :: vs) (hjoined : s.stacksJoined (coreStack c) (coreStack v) = true)
    (hvictim : (s.core v).deque = x :: xs) :
    ∃ t : State, exec (.taskTake c k) s = .next t ∧ (t.core v).deque = xs ∧ (t.slot c k).lastVictim = some v ∧
      (t.slot c k).atTask (s.slot c k).act x := by
  generalize ht : (s.modCore v (fun y => { y with deque := xs })).modSlot c k (fun u => { u with lastVictim := some v }) = t
  have hslot : t.slot c k = { s.slot c k with lastVictim := some v } := by
    rw [← ht, State.slot_modSlot _ _ _ _ hk, State.slot_modCore_keeps s v _ rfl]
  obtain ⟨hdeque, hlast, hstart⟩ := State.fireTask_starts (t := t) (x := x) hk (by rw [hslot]) hal
  have htry : s.stealTry c k = t.fireTask c k x := by
    rw [State.stealTry]
    simp only [hround, Option.getD_none, hfrom, hjoined, hvictim, Bool.not_true, Bool.false_eq_true, if_false, if_pos hready, ht]
  obtain ⟨-, htries⟩ := execTaskTake_popEntry hwaiting hhalt hworker hhandlers hsteal hready
  refine ⟨t.fireTask c k x, htry ▸ htries (Core.popEntry_nil _ hempty) hround, ?_, ?_, hstart⟩
  · rw [hdeque, ← ht, State.core_modSlot_deque, State.core_modCore]
  · rw [hlast, hslot]
end

/-! ### STEAL_WAIT_EXPIRY (R213) -/

section
variable {s : State} {c k : Nat}

theorem execStealWaitExpiry_ends (hround : (s.slot c k).roundLeft = some []) (hwait : (s.slot c k).stealWait = 0) :
    exec (.stealWaitExpiry c k) s = .next (s.modSlot c k (fun x => { x with roundLeft := none })) := by
  rw [exec_stealWaitExpiry, execStealWaitExpiry, hround, hwait]
  rfl

theorem execStealWaitExpiry_waits (hwait : (s.slot c k).stealWait ≠ 0) : exec (.stealWaitExpiry c k) s = .next s := by
  rw [exec_stealWaitExpiry, execStealWaitExpiry, beq_eq_false_iff_ne.mpr hwait, Bool.and_false, if_neg Bool.false_ne_true]
end

end Sys2Proof.Machine

open Sys2Proof.Machine

/-- Settles O38: a FORK pushes or finds the deque full; a worker takes what its pop finds, or steals; its wait ends at 0. -/
theorem tasksPushAndTake : Obligations.TasksPushAndTake := by
  unfold Obligations.TasksPushAndTake
  refine ⟨?fork, ?take, ?expiry⟩
  case fork =>
    intro o s c k a b h hguest hr ha hb hclaim off hown hal hplain
    obtain ⟨hc, hk, -⟩ := id h
    refine ⟨fun hfull => ?_, fun hroom hentry => ?_⟩
    · obtain ⟨hdeque, hx, -⟩ := State.finish_wroteX o.len hc 1 hk (regNum_lt o.c)
      exact ⟨_, execFork_pushes h hguest hr ha hb hclaim hown hal hplain (pushRecord_full h _ hfull), hdeque, hx⟩
    · have hpushed := State.finish_wroteX (t := s.modCore c (·.pushTask (s.forked c k off a b))) o.len hc 0 hk (regNum_lt o.c)
      obtain ⟨hdeque, hx, hmem⟩ := hpushed
      obtain ⟨he, h1, h2, h3, hj, hf⟩ := s.forked_fields c k off a b hentry
      rw [State.core_modCore] at hdeque
      rw [ite_self] at hx
      exact ⟨_, _, execFork_pushes h hguest hr ha hb hclaim hown hal hplain (pushRecord_room h _ (Nat.not_le.mpr hroom) hentry), hdeque, hx,
        he, h1, h2, h3, hj, hf, State.sameMemory_trans (s.sameMemory_pushTask c _) hmem⟩
  case take =>
    intro s c k hk hwaiting hhalt hworker hhandlers hsteal started
    refine ⟨fun x hwait hmem hready hal => ?_, fun x hwait hlast hready hal => ?_, fun v vs x xs hempty hround hfrom _ hjoined hvictim hready hal => ?_⟩
    · exact execTaskTake_pops hk hwaiting hhalt hworker hhandlers hsteal hready hal (hwait ▸ Core.popEntry_some hmem)
    · obtain ⟨t, hexec, hdeque, hstart⟩ := execTaskTake_pops hk hwaiting hhalt hworker hhandlers hsteal hready hal (by rw [hwait]; exact hlast)
      exact ⟨t, hexec, hdeque.trans (Core.deque_dropTask_last hlast), hstart⟩
    · exact execTaskTake_steals hk hwaiting hhalt hworker hhandlers hsteal hready hal hempty hround hfrom hjoined hvictim
  case expiry =>
    intro s c k hk hround
    refine ⟨fun hwait => ⟨_, execStealWaitExpiry_ends hround hwait, ?_⟩, execStealWaitExpiry_waits⟩
    rw [State.slot_modSlot _ _ _ _ hk]
end
